-- ==== Sys2Proof/Word.lean ====
section
/-! DEFINITION. The word types, bit fields of numbers, and the sparse table that every memory, register file and
window of the model is held in. -/

namespace Sys2Proof

/-- A register word, 32 bits (00_scope.md R7). -/
abbrev Word := BitVec 32
/-- A byte of an addressed memory. -/
abbrev Byte := BitVec 8
/-- A 64-bit word of a chute or of a scalar register. -/
abbrev W64 := BitVec 64

/-- Bits `hi..lo` of a number, both ends included (00_scope.md R6). -/
def bits (w hi lo : Nat) : Nat := (w / 2 ^ lo) % 2 ^ (hi + 1 - lo)

/-- Bit `b` of a number. -/
def bitOf (w b : Nat) : Bool := (w / 2 ^ b) % 2 == 1

/-- The number with bits `hi..lo` replaced by `v`. -/
def putBits (w hi lo v : Nat) : Nat :=
  w - bits w hi lo * 2 ^ lo + (v % 2 ^ (hi + 1 - lo)) * 2 ^ lo

/-- The number with bit `b` set. -/
def setBitN (w b : Nat) : Nat := if bitOf w b then w else w + 2 ^ b

/-- The number with bit `b` clear. -/
def clrBitN (w b : Nat) : Nat := if bitOf w b then w - 2 ^ b else w

/-- One as a number for true. -/
def b2n (b : Bool) : Nat := if b then 1 else 0

/-- Two's complement reading of the low `n` bits. -/
def sext (n w : Nat) : Int :=
  let v := w % 2 ^ n
  if v < 2 ^ (n - 1) then (v : Int) else (v : Int) - (2 ^ n : Nat)

/-- The low `n` bits of an integer in two's complement. -/
def toU (n : Nat) (i : Int) : Nat := (i % ((2 ^ n : Nat) : Int)).toNat

/-- Saturating sum at `2 ^ n - 1` (00_scope.md R13). -/
def satAdd (n a b : Nat) : Nat := min (a + b) (2 ^ n - 1)

/-- Division rounded up. -/
def ceilDiv (a b : Nat) : Nat := (a + b - 1) / b

/-- How many bits of the low `n` are set. -/
def popCount (n w : Nat) : Nat := ((List.range n).filter (fun i => bitOf w i)).length

/-- Little-endian bytes of a number, `n` of them (00_scope.md R7). -/
def leBytes : Nat → Nat → List Nat
  | 0, _ => []
  | n + 1, w => w % 256 :: leBytes n (w / 256)

/-- The number that little-endian bytes spell. -/
def ofLe : List Nat → Nat
  | [] => 0
  | b :: bs => b % 256 + 256 * ofLe bs

/-- Big-endian bytes of a number, `n` of them. -/
def beBytes (n w : Nat) : List Nat := (leBytes n w).reverse

/-- The number that big-endian bytes spell. -/
def ofBe (bs : List Nat) : Nat := ofLe bs.reverse

/-- A sparse table: keys strictly rising, no entry equal to what an unlisted key reads as. -/
abbrev Tab (α : Type) := List (Nat × α)

/-- The entry of key `k`, or what the default `d` gives for it. -/
def Tab.get {α : Type} (d : Nat → α) : Tab α → Nat → α
  | [], k => d k
  | (i, v) :: t, k => if i = k then v else Tab.get d t k

/-- Is key `k` listed? -/
def Tab.has {α : Type} (t : Tab α) (k : Nat) : Bool := t.any (fun p => p.1 == k)

/-- Remove key `k`. -/
def Tab.del {α : Type} : Tab α → Nat → Tab α
  | [], _ => []
  | (i, v) :: t, k => if i = k then Tab.del t k else (i, v) :: Tab.del t k

/-- Put `v` at key `k`, in rising order. -/
def Tab.put {α : Type} : Tab α → Nat → α → Tab α
  | [], k, v => [(k, v)]
  | (i, w) :: t, k, v =>
    if k < i then (k, v) :: (i, w) :: t
    else if k = i then (k, v) :: t
    else (i, w) :: Tab.put t k v

/-- Write `v` at key `k`: the default is not listed, so equal tables are equal data. -/
def Tab.set {α : Type} [DecidableEq α] (d : Nat → α) (t : Tab α) (k : Nat) (v : α) : Tab α :=
  if v = d k then Tab.del t k else Tab.put t k v

/-- Keys strictly rising from `lo` on, and no entry equal to its default. -/
def Tab.wfFrom {α : Type} [DecidableEq α] (d : Nat → α) : Nat → Tab α → Bool
  | _, [] => true
  | lo, (i, v) :: t => decide (lo ≤ i) && decide (v ≠ d i) && Tab.wfFrom d (i + 1) t

/-- The canonical form of a table. -/
def Tab.wf {α : Type} [DecidableEq α] (d : Nat → α) (t : Tab α) : Bool := Tab.wfFrom d 0 t

/-- A memory is a table of bytes by address. -/
abbrev Memory := Tab Byte

/-- What an unlisted byte of a memory that the spec gives no contents reads as: 0 (log 11). -/
def Memory.zero : Nat → Byte := fun _ => 0

/-- The canonical form of a memory whose unlisted bytes read 0. -/
def Memory.wf (m : Memory) : Bool := Tab.wf Memory.zero m

/-- `n` bytes of a memory from address `a` on. -/
def Memory.bytes (d : Nat → Byte) (m : Memory) (a n : Nat) : List Nat :=
  (List.range n).map (fun i => (Tab.get d m (a + i)).toNat)

/-- The little-endian number in `n` bytes from address `a` on. -/
def Memory.le (d : Nat → Byte) (m : Memory) (a n : Nat) : Nat := ofLe (Memory.bytes d m a n)

/-- Write a list of bytes from address `a` on. -/
def Memory.put (d : Nat → Byte) (m : Memory) (a : Nat) (bs : List Nat) : Memory :=
  match bs with
  | [] => m
  | b :: bs => Memory.put d (Tab.set d m a (BitVec.ofNat 8 b)) (a + 1) bs

end Sys2Proof
end

