-- ==== Sys2Proof/Syntax.lean ====
section
/-! DEFINITION. The commands: one constructor for each row of spec/opcode_table.json, with its operands. -/

namespace Sys2Proof

/-! Operands of the Suesk instructions: the fields of the formats of 08_suesk_instructions.md R243. FUNC and OP are the row's own. -/

/-- A Suesk processor (07_suesk_programming_model.md, Processors and profiles). -/
inductive Proc where
  | lane (n : Fin 32)
  | core (n : Fin 4)
deriving DecidableEq, Repr

/-- Format R: D, A, B, KG. -/
structure FmtR where
  d : BitVec 5
  a : BitVec 5
  b : BitVec 5
  kg : BitVec 3
deriving DecidableEq, Repr

/-- Format I: D, A, IMM. -/
structure FmtI where
  d : BitVec 5
  a : BitVec 5
  imm : BitVec 16
deriving DecidableEq, Repr

/-- Format M: D, A, KG, OFS (signed). -/
structure FmtM where
  d : BitVec 5
  a : BitVec 5
  kg : BitVec 3
  ofs : BitVec 13
deriving DecidableEq, Repr

/-- Format B: KN, COND, OFS (signed, in words). -/
structure FmtB where
  kn : BitVec 3
  cond : BitVec 3
  ofs : BitVec 20
deriving DecidableEq, Repr

/-- Format P: KD, KA, KB, KG, IMM. -/
structure FmtP where
  kd : BitVec 3
  ka : BitVec 3
  kb : BitVec 3
  kg : BitVec 3
  imm : BitVec 8
deriving DecidableEq, Repr

/-- Format C: KD, the zero bits, A, B, KG. -/
structure FmtC where
  kd : BitVec 3
  z : BitVec 2
  a : BitVec 5
  b : BitVec 5
  kg : BitVec 3
deriving DecidableEq, Repr

/-- Format G: D, A, B, KG, DIST, MODE. -/
structure FmtG where
  d : BitVec 5
  a : BitVec 5
  b : BitVec 5
  kg : BitVec 3
  dist : BitVec 5
  mode : BitVec 3
deriving DecidableEq, Repr

/-- Format A: KN, EL, LINE, the zero bits. -/
structure FmtA where
  kn : BitVec 3
  el : BitVec 2
  line : BitVec 4
  z : BitVec 17
deriving DecidableEq, Repr

/-- Format X: the fields of format R and the extension word. -/
structure FmtX where
  d : BitVec 5
  a : BitVec 5
  b : BitVec 5
  kg : BitVec 3
  imm32 : BitVec 32
deriving DecidableEq, Repr

/-! Frames as the parsers decode them (log 6). -/

/-- One PMU block of a C37.118 data frame, its fields as raw bits (04_ingest_streams.md R113). -/
structure C37Block where
  stat : Nat
  ph : List (Nat × Nat)
  freq : Nat
  dfreq : Nat
  an : List Nat
  dg : List Nat
deriving DecidableEq, Repr

/-- A C37.118 frame: SYNC version and type (0 data, 1 header, 2 CFG-1, 3 CFG-2, 4 command, 5 CFG-3), and its fields. -/
structure C37Frame where
  version : Nat
  ftype : Nat
  size : Nat
  idcode : Nat
  soc : Nat
  fracsec : Nat
  chkOk : Bool
  cmd : Nat
  blocks : List C37Block
deriving DecidableEq, Repr

/-- One ASDU of an R-SV frame: refrTm (seconds and 24-bit fraction of UTC), smpSynch, and each member with its quality
(0 good, 1 questionable, 2 invalid, 3 test) (04_ingest_streams.md R114). -/
structure RsvAsdu where
  sec : Nat
  frac : Nat
  smpSynch : Nat
  ph : List (Nat × Nat × Nat)
  freq : Nat × Nat
  rocof : Nat × Nat
  an : List (Nat × Nat)
deriving DecidableEq, Repr

/-- An R-SV frame: does it decode within R114, its session identifier, APPID, simulation bit, and its signature (key identifier, tag). -/
structure RsvFrame where
  decodeOk : Bool
  sid : Nat
  svPayload : Bool
  encrypted : Bool
  sim : Bool
  appid : Nat
  sig : Option (Nat × Nat)
  iv : List Nat
  body : List Nat
  asdus : List RsvAsdu
deriving DecidableEq, Repr

/-- What an Ethernet frame carries. -/
inductive EthPayload where
  | c37 (f : C37Frame)
  | rsv (f : RsvFrame)
  | other
deriving DecidableEq, Repr

/-- The kinds of destination address that R109 tells apart. -/
inductive EthDst where
  | own
  | broadcast
  | multicast
  | foreign
deriving DecidableEq, Repr

/-- A received Ethernet frame (04_ingest_streams.md R109, R110): `rct` is the LAN of a valid redundancy control trailer. -/
structure EthFrame where
  len : Nat
  fcsOk : Bool
  dst : EthDst
  tags : Nat
  ipOk : Bool
  fragment : Bool
  ipv6 : Bool
  srcIp : Nat
  udpSrc : Nat
  udpDst : Nat
  rct : Option (Fin 2)
  payload : EthPayload
deriving DecidableEq, Repr

/-- A decoded IRIG-B frame (03_time_base.md R97): B124 or B004, whether its control functions are those of IEEE 1344, the parity check; whether it gives a
year; its time of day as seconds of its own scale from 1970, and within the year; of the extensions: a leap second pending and whether it is a deletion,
daylight saving, the local offset in half hours (local time less UTC), the time quality. -/
structure IrigFrame where
  b124 : Bool
  ext : Bool
  parityOk : Bool
  hasYear : Bool
  sec : Nat
  secOfYear : Nat
  leap : Option Bool
  dst : Bool
  offset : Int
  quality : Nat
deriving DecidableEq, Repr

/-- A descriptor as the host wrote it, with what the buffer holds for a ring from the host and, on ring 15, what host memory holds from the job
block's SRC_ADDR on (11, Rings, Host job block). -/
structure Desc where
  addr : Nat
  len : Nat
  tag : Nat
  irq : Bool
  data : List Nat
  src : List Nat
deriving DecidableEq, Repr

/-- What the RF front end's link brings in turn (15_line_sensor_mesh.md R428): K28.5 fill, a word with a code error, or a sample word. -/
inductive IqWord where
  | fill
  | bad
  | word (w : Word)
deriving DecidableEq, Repr

/-- A received mesh frame (15, Frames): its header, its body octets after the header, the receiver's signal level, and how long ago the word
with its last SFD bit arrived (R431). -/
structure MeshFrame where
  fcsOk : Bool
  ageNs : Nat
  ftype : Nat
  net : Nat
  addr : Nat
  ttl : Nat
  hop : Nat
  body : List Nat
  rssi : Nat
deriving DecidableEq, Repr

/-- A received link frame (16, The twin link). -/
structure LinkFrame where
  ftype : Nat
  lseq : Nat
  epoch : Nat
  role : Nat
  pri : Bool
  body : List Nat
  tag : Nat
deriving DecidableEq, Repr

/-- A received twin beacon (16, The twin beacon). -/
structure BeaconFrame where
  magicOk : Bool
  lan : Fin 2
  unitId : Nat
  epoch : Nat
  health : Nat
  copySeq : Nat
  tag : Nat
deriving DecidableEq, Repr

/-- A PTP message by its type and sequence number (03_time_base.md R95). -/
structure PtpMsg where
  msgType : Nat
  seqId : Nat
deriving DecidableEq, Repr

/-- An IP address with its version (10_output_sessions.md R320). -/
structure IpAddr where
  addr : Nat
  v6 : Bool
deriving DecidableEq, Repr

/-- What a PCIe configuration write sets of the function (11 R336, R337): Bus Master Enable, power state D3hot, and by their PCIe codes, which have 3
and 6 values, Max Payload Size and Max Read Request Size. -/
structure PcieCtl where
  bme : Bool
  d3hot : Bool
  mps : Fin 3
  mrrs : Fin 6
deriving DecidableEq, Repr

/-- What it sets of MSI-X (11 R336, R350): MSI-X Enable and Function Mask. -/
structure MsixCtl where
  enable : Bool
  maskAll : Bool
deriving DecidableEq, Repr

/-- A command of ring 14 (17, Signed commands): `payload` and the signature integers. -/
structure KeyCmd where
  magicOk : Bool
  ver : Nat
  code : Nat
  seq : Nat
  target : Nat
  kind : Nat
  payload : List Nat
  r : Nat
  s : Nat
deriving DecidableEq, Repr

/-- One error that the scrub finds (16 R459, 01 R18): memory 0 to 6 of item 0x0004, 7 for a key cell,
8 for a management core's memory, 9 for a kernel-table entry (parity); the ring slot, lane, key slot, core or entry; the address of its 64-bit word
(7: the cell); whether it can be corrected. -/
structure EccError where
  mem : Nat
  slot : Nat
  addr : Nat
  corrected : Bool
deriving DecidableEq, Repr

/-- A sample of a grid of the local front end before it is resampled (12_local_front_end.md R379, R381; log 6): the number of its newest input whose
instant is not after it, counted from the start of the channel's group, and the outputs of the filter chain that it takes, newest first, a list for each
MOD channel it rests on. -/
structure GridTaps where
  newest : Nat
  taps : List (List Int)
deriving DecidableEq, Repr

/-- The commands. -/
inductive Instr where
  | resetRelease (lowNs : Nat) (twinPri : Bool)
  | perstReset (lowNs : Nat)
  | ref25Loss (ns : Nat)
  | bootExit (romOk : Bool)
  | logScanComplete
  | entropyHealthFail
  | pwrFailFall
  | lastGaspEntry
  | lastGaspDomainOff
  | lastGaspReset
  | vholdLow (mV : Nat)
  | tamperAssert (lowNs : Nat)
  | watchdogExpiry (core : Fin 4)
  | registerWrite (off : Nat) (v : Word) (be : BitVec 4)
  | decodeErrorAccess (off : Nat) (write : Bool) (v : Word) (be : BitVec 4)
  | rcCounterRead (off : Nat) (be : BitVec 4)
  | wideLowRead (off : Nat) (be : BitVec 4)
  | timeNowRead (be : BitVec 4)
  | blankStateRead (be : BitVec 4)
  | windowRead (win : Nat) (v : Word)
  | windowWrite (win : Nat) (v : Word)
  | windowAincRead (win : Nat)
  | windowAincWrite (win : Nat) (v : Word)
  | windowOpComplete (win : Nat)
  | txnBegin (persist : Bool)
  | txnPrepare (persist : Bool)
  | txnAbort (persist : Bool)
  | txnValidationComplete
  | oosLaneWrite (v : Word)
  | oosUnitWrite (v : Word)
  | addendCommit (v : Word)
  | timeStep (v : Word)
  | timeForceStep (v : Word)
  | timeDeclareSync (v : Word)
  | timeEndHoldover (v : Word)
  | timeForceUnlockWrite (v : Word)
  | leapApply
  | holdoverEntry
  | ptpFrameReceive (port : Fin 4) (msg : PtpMsg) (within : Bool)
  | txtsPop (port : Fin 4)
  | irigFrame (f : IrigFrame)
  | ppsInEdge
  | ppsOutPulse
  | ref10mMeasure (edges : Nat)
  | ref10mLoss
  | cmpFireTime (slot : Fin 64)
  | cmpPhaseArm (slot : Fin 64)
  | cmpFirePhase (slot : Fin 64)
  | ethCfgWrite (port : Fin 4) (v : Word)
  | ethFrameReceive (port : Fin 4) (f : EthFrame)
  | internalFrameDeliver (f : C37Frame) (srcIp : Nat) (ipv6 : Bool) (ageNs : Nat)
  | resamplerOutput (stream : Nat) (epoch : Nat)
  | streamHealthClear (v : Word)
  | blankOpen
  | specFillStart (epoch : Nat)
  | specFillComplete (epoch : Nat)
  | sealAll (epoch : Nat)
  | sealWait (epoch : Nat)
  | sealEvaluationEnd (epoch : Nat)
  | amendmentApply (epoch : Nat)
  | amendmentEnd (epoch : Nat)
  | sessionFinalSend (session : Nat) (epoch : Nat)
  | ethFrameTransmit (port : Fin 4)
  | keyCellEpochLimit (session : Nat)
  | spcHistClr (v : Word)
  | spcChannelMissClear (v : Word)
  | spcFloorWrite (which : Fin 4) (v : Word)
  | workItemDispatch (lane : Fin 32)
  | cyclesLimit (lane : Fin 32)
  | budgetCut (inv : Nat)
  | gatherComplete (lane : Fin 32) (which : Nat)
  | sskVerify
  | sskVerifyComplete
  | sskErase
  | add (p : Proc) (f : FmtR)
  | sub (p : Proc) (f : FmtR)
  | mul (p : Proc) (f : FmtR)
  | mulhs (p : Proc) (f : FmtR)
  | divf (p : Proc) (f : FmtR)
  | divu (p : Proc) (f : FmtR)
  | modf (p : Proc) (f : FmtR)
  | modu (p : Proc) (f : FmtR)
  | andOp (p : Proc) (f : FmtR)
  | orOp (p : Proc) (f : FmtR)
  | xorOp (p : Proc) (f : FmtR)
  | shl (p : Proc) (f : FmtR)
  | shr (p : Proc) (f : FmtR)
  | sra (p : Proc) (f : FmtR)
  | minOp (p : Proc) (f : FmtR)
  | maxOp (p : Proc) (f : FmtR)
  | exts32 (p : Proc) (f : FmtR)
  | extz32 (p : Proc) (f : FmtR)
  | addi (p : Proc) (f : FmtI)
  | andi (p : Proc) (f : FmtI)
  | ori (p : Proc) (f : FmtI)
  | xori (p : Proc) (f : FmtI)
  | shi (p : Proc) (f : FmtI)
  | scmpEq (p : Proc) (f : FmtC)
  | scmpNe (p : Proc) (f : FmtC)
  | scmpLt (p : Proc) (f : FmtC)
  | scmpGe (p : Proc) (f : FmtC)
  | scmpLtu (p : Proc) (f : FmtC)
  | scmpGeu (p : Proc) (f : FmtC)
  | feq (p : Proc) (f : FmtC)
  | flt (p : Proc) (f : FmtC)
  | fle (p : Proc) (f : FmtC)
  | fadd (p : Proc) (f : FmtR)
  | fsub (p : Proc) (f : FmtR)
  | fmul (p : Proc) (f : FmtR)
  | fdiv (p : Proc) (f : FmtR)
  | fsqrt (p : Proc) (f : FmtR)
  | fmin (p : Proc) (f : FmtR)
  | fmax (p : Proc) (f : FmtR)
  | fcvtdl (p : Proc) (f : FmtR)
  | fcvtld (p : Proc) (f : FmtR)
  | fcvtds (p : Proc) (f : FmtR)
  | fcvtsd (p : Proc) (f : FmtR)
  | li (p : Proc) (f : FmtX)
  | lih (p : Proc) (f : FmtX)
  | ldb (p : Proc) (f : FmtM)
  | ldh (p : Proc) (f : FmtM)
  | ldw (p : Proc) (f : FmtM)
  | ldd (p : Proc) (f : FmtM)
  | stb (p : Proc) (f : FmtM)
  | sth (p : Proc) (f : FmtM)
  | stw (p : Proc) (f : FmtM)
  | std (p : Proc) (f : FmtM)
  | vld (p : Proc) (f : FmtM)
  | vst (p : Proc) (f : FmtM)
  | kld (p : Proc) (f : FmtM)
  | kst (p : Proc) (f : FmtM)
  | br (p : Proc) (f : FmtB)
  | call (p : Proc) (ofs : BitVec 26)
  | jmpr (p : Proc) (f : FmtR) (link : BitVec 8)
  | kand (p : Proc) (f : FmtP)
  | kor (p : Proc) (f : FmtP)
  | knot (p : Proc) (f : FmtP)
  | kandn (p : Proc) (f : FmtP)
  | kmov (p : Proc) (f : FmtP)
  | kset (p : Proc) (f : FmtP)
  | kall (p : Proc) (f : FmtP)
  | kany (p : Proc) (f : FmtP)
  | ksplat (p : Proc) (f : FmtP)
  | vadd (p : Proc) (f : FmtR)
  | vsub (p : Proc) (f : FmtR)
  | vmul (p : Proc) (f : FmtR)
  | vmulc (p : Proc) (f : FmtR)
  | vdiv (p : Proc) (f : FmtR)
  | vconj (p : Proc) (f : FmtR)
  | vneg (p : Proc) (f : FmtR)
  | vscl (p : Proc) (f : FmtR)
  | vrot (p : Proc) (f : FmtR)
  | vabs (p : Proc) (f : FmtR)
  | vsqr (p : Proc) (f : FmtR)
  | varg (p : Proc) (f : FmtR)
  | vargd (p : Proc) (f : FmtR)
  | vpolar (p : Proc) (f : FmtR)
  | vcplx (p : Proc) (f : FmtR)
  | vre (p : Proc) (f : FmtR)
  | vim (p : Proc) (f : FmtR)
  | vhull (p : Proc) (f : FmtR)
  | vwiden (p : Proc) (f : FmtR)
  | vradd (p : Proc) (f : FmtR)
  | vrsub (p : Proc) (f : FmtR)
  | vrmul (p : Proc) (f : FmtR)
  | vrdiv (p : Proc) (f : FmtR)
  | vrsqrt (p : Proc) (f : FmtR)
  | vrmin (p : Proc) (f : FmtR)
  | vrmax (p : Proc) (f : FmtR)
  | vrsin (p : Proc) (f : FmtR)
  | vrcos (p : Proc) (f : FmtR)
  | vrhull (p : Proc) (f : FmtR)
  | vrabs (p : Proc) (f : FmtR)
  | vcmpGt (p : Proc) (f : FmtC)
  | vcmpGe (p : Proc) (f : FmtC)
  | vcmpLt (p : Proc) (f : FmtC)
  | vcmpLe (p : Proc) (f : FmtC)
  | vcmpEq (p : Proc) (f : FmtC)
  | vcmpNe (p : Proc) (f : FmtC)
  | vmov (p : Proc) (f : FmtR)
  | vsplat (p : Proc) (f : FmtR)
  | vsel (p : Proc) (f : FmtR)
  | vsumc (p : Proc) (f : FmtR)
  | vrmaxr (p : Proc) (f : FmtR)
  | vrminr (p : Proc) (f : FmtR)
  | vfromi (p : Proc) (f : FmtR)
  | vfromf (p : Proc) (f : FmtR)
  | vtos (p : Proc) (f : FmtR)
  | vins (p : Proc) (f : FmtR)
  | vsplati (p : Proc) (f : FmtX)
  | gth (p : Proc) (f : FmtG)
  | gfl (p : Proc) (f : FmtG)
  | res (p : Proc) (f : FmtR)
  | chut (p : Proc) (f : FmtR)
  | alrm (p : Proc) (f : FmtA)
  | endOp (p : Proc) (f : FmtR)
  | trap (p : Proc) (f : FmtR)
  | drain (p : Proc) (f : FmtR)
  | ticks (p : Proc) (f : FmtR)
  | nop (p : Proc) (f : FmtR)
  | srget (p : Proc) (f : FmtR)
  | srput (p : Proc) (f : FmtR)
  | resume (p : Proc) (f : FmtR)
  | doze (p : Proc) (f : FmtR)
  | dozeWake (core : Fin 4)
  | oscEvaluation (unit : Fin 8) (epoch : Nat)
  | islEvaluation (epoch : Nat)
  | alarmAck (v : Word)
  | gooseRetransmit
  | c37DataOff (session : Nat) (src : IpAddr) (udp : Nat)
  | c37DataOn (session : Nat) (src : IpAddr) (udp : Nat)
  | c37SendHeader (session : Nat) (src : IpAddr) (udp : Nat)
  | c37SendCfg1 (session : Nat) (src : IpAddr) (udp : Nat)
  | c37SendCfg2 (session : Nat) (src : IpAddr) (udp : Nat)
  | c37SendCfg3 (session : Nat) (src : IpAddr) (udp : Nat)
  | functionLevelReset
  | dmaErrorCompletion (ring : Fin 16) (code : Fin 6)
  | ringEnable (ring : Fin 16) (v : Word)
  | ringDisable (ring : Fin 16) (v : Word)
  | descTailWrite (ring : Fin 16) (v : Word) (descs : List Desc)
  | cplHeadWrite (ring : Fin 16) (v : Word)
  | recordPlace (ring : Fin 16)
  | irqModTimeout (ring : Fin 16)
  | chutePop (ch : Fin 4) (be : BitVec 4)
  | chuteFlush (ch : Fin 4) (v : Word)
  | chPushSoi (ch : Fin 4) (v : Word)
  | chPushHi (ch : Fin 4) (v : Word)
  | cmpJobStart (engine : Fin 2)
  | cmpJobComplete (engine : Fin 2) (busErr : Fin 3)
  | mclkConfigWrite (v : Word)
  | groupRunWrite (v : Word)
  | groupImmStart (v : Word)
  | groupStart (g : Fin 8)
  | groupStop (g : Fin 8)
  | channelStuck (ch : Fin 24)
  | channelUnstuck (ch : Fin 24)
  | controlCycleApply (v : Word)
  | trackerCrossing (ch : Fin 24) (n : Nat) (samples : List GridTaps)
  | trackerTimeout (ch : Fin 24)
  | stream0RecordWrite (epoch : Nat) (samples : List (List GridTaps))
  | dinChangeAccept (input : Fin 32)
  | dinEventPop
  | meterCycleComplete (circuit : Fin 8) (tSec tTick : Nat) (v : List (List GridTaps)) (i : List (List GridTaps))
  | energySnapshot (v : Word)
  | energyPeriodicSave
  | pulseEdgeAccept (input : Fin 16) (rising : Bool)
  | xtrigEdge (line : Fin 4)
  | xtrigPulseEnd (line : Fin 4)
  | captureForce (v : Word)
  | captureEnable (v : Word)
  | thresholdCrossingLocal (unit : Fin 64) (n : Nat) (samples : List GridTaps)
  | sequencerTransition (seq : Fin 8)
  | sequencerTimerExpire (seq : Fin 8) (timer : Fin 4)
  | postSpanEnd
  | recordClose
  | captureRearm
  | recordCommit (ok : Bool)
  | recordCommitted (ok : Bool)
  | captureScanEnd
  | meshChannelEnable (v : Word)
  | meshChannelStart (ch : Fin 2)
  | meshSpiWrite (v : Word)
  | meshBeaconSend (ch : Fin 2)
  | meshFrameReceive (ch : Fin 2) (f : MeshFrame)
  | meshSuperframeEnd (ch : Fin 2)
  | meshCcaBackoffEnd (ch : Fin 2) (iq : List IqWord)
  | meshWakeSend (ch : Fin 2) (iq : List IqWord)
  | meshCapTransmit (ch : Fin 2) (iq : List IqWord)
  | meshCommandGo (v : Word)
  | twinLaneUp (lane : Fin 2)
  | twinLaneDown (lane : Fin 2) (inFlight : Bool)
  | twinLseqTimeout
  | twinHelloSend
  | twinHelloReceive (f : LinkFrame)
  | twinHealthSend
  | twinHealthReceive (f : LinkFrame)
  | twinCfgSend
  | twinCfgReceive (f : LinkFrame)
  | twinBeaconSend
  | twinBeaconReceive (f : BeaconFrame)
  | twinContactRecord
  | roleChange
  | twinCopySent
  | twinCopyBeginReceive (f : LinkFrame)
  | twinCopyDataReceive (f : LinkFrame)
  | twinCopyEndReceive (f : LinkFrame)
  | twinCopyTimeout
  | twnRelinquish (v : Word)
  | twnPartnerDown (v : Word)
  | twnLinkRestart (v : Word)
  | twnUnlockWrite (v : Word)
  | selftestLaneKat (lane : Fin 32) (pass : Bool)
  | selftestCryptoKat (pass : Bool)
  | memoryScrubPass (errors : List EccError)
  | monitorOutOfLimits
  | keyMaskRefresh (badCells : List (Fin 512 × Fin 2))
  | attest (c : KeyCmd)
  | installOwner (c : KeyCmd)
  | provisionDone (c : KeyCmd)
  | ownerRotate (c : KeyCmd)
  | secRaise (c : KeyCmd)
  | keyLoad (c : KeyCmd)
  | keyCommit (c : KeyCmd)
  | keyFlip (slot : Fin 512)
  | keyDerive (c : KeyCmd)
  | keyDelete (c : KeyCmd)
  | pair (c : KeyCmd)
  | enterDiag (c : KeyCmd)
  | zeroize (c : KeyCmd)
  | nrgClear (c : KeyCmd)
  | logClear (c : KeyCmd)
  | nvLineWriteComplete (ok : Bool)
  | logRecordWrite (ok : Bool)
  | logSlotLoad (v : Word)
  | logAutoAdvance (be : BitVec 4)
  | norRead (v : Word)
  | norProgram (v : Word)
  | norErase (v : Word)
  | norVerify (v : Word)
  | norOpComplete (dev : Fin 2) (ok : Bool)
  | norOpTimeout (dev : Fin 2)
  | govRampStart
  | govRampEnd
  | govSettleEnd (domain : Fin 40)
  | jtagBypass
  | jtagIdcode
  | jtagSamplePreload (boundary : Nat)
  | jtagExtest
  | jtagClamp
  | jtagHighz
  | jtagTrst (low : Bool)
  | pwrFailRise
  | ref25Return
  | vholdRestore
  | holdUpCollapse
  | vbatLowChange (low : Bool)
  | batteryLoss
  | ethPcsLockChange (port : Fin 4) (lock : Bool)
  | pcieLinkChange (up : Bool)
  | pcieConfigWrite (ctl : PcieCtl) (msix : MsixCtl)
  | filterStageClip (ch : Fin 24) (stage : Fin 4) (xs : List Int)
  | shavingStore (ch : Fin 256) (n : Nat) (sample : GridTaps)
  | thresholdUnitArm (unit : Fin 64) (n : Nat) (samples : List GridTaps)
  | meshTransmitEnd (ch : Fin 2)
  | meshSpiShiftEnd (miso : Word)
  | unknownCommandCode (c : KeyCmd)
deriving DecidableEq, Repr

end Sys2Proof
end

