-- ==== Sys2Proof/Decode.lean ====
section
/-! DEFINITION. Words to commands: the encoding of the Suesk instructions (08_suesk_instructions.md R242 to R245). The rows of
spec/opcode_table.json give a command no bits, so no word of the host's spells one. -/

namespace Sys2Proof

/-! Instruction formats (R243). -/

/-- A field of a word as a bit vector. -/
def fieldOf (n w hi lo : Nat) : BitVec n := BitVec.ofNat n (bits w hi lo)

/-- The major opcode, and FUNC of formats R, C and X. -/
def majorOf (w : Nat) : Nat := bits w 31 26
def funcOf (w : Nat) : Nat := bits w 7 0

def fmtR (w : Nat) : FmtR := ⟨fieldOf 5 w 25 21, fieldOf 5 w 20 16, fieldOf 5 w 15 11, fieldOf 3 w 10 8⟩
def fmtI (w : Nat) : FmtI := ⟨fieldOf 5 w 25 21, fieldOf 5 w 20 16, fieldOf 16 w 15 0⟩
def fmtM (w : Nat) : FmtM := ⟨fieldOf 5 w 25 21, fieldOf 5 w 20 16, fieldOf 3 w 15 13, fieldOf 13 w 12 0⟩
def fmtB (w : Nat) : FmtB := ⟨fieldOf 3 w 25 23, fieldOf 3 w 22 20, fieldOf 20 w 19 0⟩
def fmtP (w : Nat) : FmtP := ⟨fieldOf 3 w 25 23, fieldOf 3 w 22 20, fieldOf 3 w 19 17, fieldOf 3 w 16 14, fieldOf 8 w 13 6⟩
def fmtC (w : Nat) : FmtC := ⟨fieldOf 3 w 25 23, fieldOf 2 w 22 21, fieldOf 5 w 20 16, fieldOf 5 w 15 11, fieldOf 3 w 10 8⟩
def fmtG (w : Nat) : FmtG :=
  ⟨fieldOf 5 w 25 21, fieldOf 5 w 20 16, fieldOf 5 w 15 11, fieldOf 3 w 10 8, fieldOf 5 w 7 3, fieldOf 3 w 2 0⟩
def fmtA (w : Nat) : FmtA := ⟨fieldOf 3 w 25 23, fieldOf 2 w 22 21, fieldOf 4 w 20 17, fieldOf 17 w 16 0⟩
def fmtX (w ext : Nat) : FmtX := ⟨fieldOf 5 w 25 21, fieldOf 5 w 20 16, fieldOf 5 w 15 11, fieldOf 3 w 10 8, BitVec.ofNat 32 ext⟩

/-! The tables of FUNC. -/

/-- SALU functions (R250). -/
def saluOf (p : Proc) (f : FmtR) : Nat → Option Instr
  | 0x00 => some (.add p f)
  | 0x01 => some (.sub p f)
  | 0x02 => some (.mul p f)
  | 0x03 => some (.mulhs p f)
  | 0x04 => some (.divf p f)
  | 0x05 => some (.divu p f)
  | 0x06 => some (.modf p f)
  | 0x07 => some (.modu p f)
  | 0x08 => some (.andOp p f)
  | 0x09 => some (.orOp p f)
  | 0x0A => some (.xorOp p f)
  | 0x0B => some (.shl p f)
  | 0x0C => some (.shr p f)
  | 0x0D => some (.sra p f)
  | 0x0E => some (.minOp p f)
  | 0x0F => some (.maxOp p f)
  | 0x10 => some (.exts32 p f)
  | 0x11 => some (.extz32 p f)
  | _ => none

/-- SFPU functions (R253). -/
def sfpuOf (p : Proc) (f : FmtR) : Nat → Option Instr
  | 0x00 => some (.fadd p f)
  | 0x01 => some (.fsub p f)
  | 0x02 => some (.fmul p f)
  | 0x03 => some (.fdiv p f)
  | 0x04 => some (.fsqrt p f)
  | 0x05 => some (.fmin p f)
  | 0x06 => some (.fmax p f)
  | 0x08 => some (.fcvtdl p f)
  | 0x09 => some (.fcvtld p f)
  | 0x0A => some (.fcvtds p f)
  | 0x0B => some (.fcvtsd p f)
  | _ => none

/-- SCMP (R252). -/
def scmpOf (p : Proc) (f : FmtC) : Nat → Option Instr
  | 0x00 => some (.scmpEq p f)
  | 0x01 => some (.scmpNe p f)
  | 0x02 => some (.scmpLt p f)
  | 0x03 => some (.scmpGe p f)
  | 0x04 => some (.scmpLtu p f)
  | 0x05 => some (.scmpGeu p f)
  | _ => none

/-- SFCMP (R252). -/
def sfcmpOf (p : Proc) (f : FmtC) : Nat → Option Instr
  | 0x00 => some (.feq p f)
  | 0x01 => some (.flt p f)
  | 0x02 => some (.fle p f)
  | _ => none

/-- PLOG functions (R260). -/
def plogOf (p : Proc) (f : FmtP) : Nat → Option Instr
  | 0x00 => some (.kand p f)
  | 0x01 => some (.kor p f)
  | 0x02 => some (.knot p f)
  | 0x03 => some (.kandn p f)
  | 0x04 => some (.kmov p f)
  | 0x05 => some (.kset p f)
  | 0x06 => some (.kall p f)
  | 0x07 => some (.kany p f)
  | 0x08 => some (.ksplat p f)
  | _ => none

/-- VALU functions (R261). -/
def valuOf (p : Proc) (f : FmtR) : Nat → Option Instr
  | 0x00 => some (.vadd p f)
  | 0x01 => some (.vsub p f)
  | 0x02 => some (.vmul p f)
  | 0x03 => some (.vmulc p f)
  | 0x04 => some (.vdiv p f)
  | 0x05 => some (.vconj p f)
  | 0x06 => some (.vneg p f)
  | 0x07 => some (.vscl p f)
  | 0x08 => some (.vrot p f)
  | 0x09 => some (.vabs p f)
  | 0x0A => some (.vsqr p f)
  | 0x0B => some (.varg p f)
  | 0x0C => some (.vargd p f)
  | 0x0D => some (.vpolar p f)
  | 0x0E => some (.vcplx p f)
  | 0x0F => some (.vre p f)
  | 0x10 => some (.vim p f)
  | 0x11 => some (.vhull p f)
  | 0x12 => some (.vwiden p f)
  | 0x20 => some (.vradd p f)
  | 0x21 => some (.vrsub p f)
  | 0x22 => some (.vrmul p f)
  | 0x23 => some (.vrdiv p f)
  | 0x24 => some (.vrsqrt p f)
  | 0x25 => some (.vrmin p f)
  | 0x26 => some (.vrmax p f)
  | 0x27 => some (.vrsin p f)
  | 0x28 => some (.vrcos p f)
  | 0x29 => some (.vrhull p f)
  | 0x2A => some (.vrabs p f)
  | _ => none

/-- VCMP (R266). -/
def vcmpOf (p : Proc) (f : FmtC) : Nat → Option Instr
  | 0x00 => some (.vcmpGt p f)
  | 0x01 => some (.vcmpGe p f)
  | 0x02 => some (.vcmpLt p f)
  | 0x03 => some (.vcmpLe p f)
  | 0x04 => some (.vcmpEq p f)
  | 0x05 => some (.vcmpNe p f)
  | _ => none

/-- VMOVE functions (R264). -/
def vmoveOf (p : Proc) (f : FmtR) : Nat → Option Instr
  | 0x00 => some (.vmov p f)
  | 0x01 => some (.vsplat p f)
  | 0x02 => some (.vsel p f)
  | 0x03 => some (.vsumc p f)
  | 0x04 => some (.vrmaxr p f)
  | 0x05 => some (.vrminr p f)
  | 0x06 => some (.vfromi p f)
  | 0x07 => some (.vfromf p f)
  | 0x08 => some (.vtos p f)
  | 0x09 => some (.vins p f)
  | _ => none

/-- SYS functions (R275). -/
def sysOf (p : Proc) (f : FmtR) : Nat → Option Instr
  | 0x00 => some (.endOp p f)
  | 0x01 => some (.trap p f)
  | 0x02 => some (.drain p f)
  | 0x03 => some (.ticks p f)
  | 0x04 => some (.nop p f)
  | 0x10 => some (.srget p f)
  | 0x11 => some (.srput p f)
  | 0x12 => some (.resume p f)
  | 0x13 => some (.doze p f)
  | _ => none

/-- LI and LIH (R254). -/
def liOf (p : Proc) (f : FmtX) : Nat → Option Instr
  | 0 => some (.li p f)
  | 1 => some (.lih p f)
  | _ => none

/-- The instruction that a word and its extension word spell for a processor (R243, R244); none for a reserved major opcode, an all-zero word or a FUNC
that the group does not list. No table gives the FUNC of RES and CHUT, the EMIT group: its words spell neither (log 147). -/
def sueskWord (p : Proc) (w ext : Nat) : Option Instr :=
  let fn := funcOf w
  match majorOf w with
  | 0x01 => saluOf p (fmtR w) fn
  | 0x02 => some (.addi p (fmtI w))
  | 0x03 => some (.andi p (fmtI w))
  | 0x04 => some (.ori p (fmtI w))
  | 0x05 => some (.xori p (fmtI w))
  | 0x06 => some (.shi p (fmtI w))
  | 0x07 => scmpOf p (fmtC w) fn
  | 0x08 => sfpuOf p (fmtR w) fn
  | 0x09 => sfcmpOf p (fmtC w) fn
  | 0x0C => some (.ldb p (fmtM w))
  | 0x0D => some (.ldh p (fmtM w))
  | 0x0E => some (.ldw p (fmtM w))
  | 0x0F => some (.ldd p (fmtM w))
  | 0x10 => some (.stb p (fmtM w))
  | 0x11 => some (.sth p (fmtM w))
  | 0x12 => some (.stw p (fmtM w))
  | 0x13 => some (.std p (fmtM w))
  | 0x14 => some (.br p (fmtB w))
  | 0x15 => some (.call p (fieldOf 26 w 25 0))
  | 0x16 => some (.jmpr p (fmtR w) (fieldOf 8 w 7 0))
  | 0x18 => plogOf p (fmtP w) (bits w 5 0)
  | 0x1C => some (.vld p (fmtM w))
  | 0x1D => some (.vst p (fmtM w))
  | 0x1E => some (.kld p (fmtM w))
  | 0x1F => some (.kst p (fmtM w))
  | 0x20 => valuOf p (fmtR w) fn
  | 0x21 => vcmpOf p (fmtC w) fn
  | 0x22 => vmoveOf p (fmtR w) fn
  | 0x24 => some (.gth p (fmtG w))
  | 0x25 => some (.gfl p (fmtG w))
  | 0x29 => some (.alrm p (fmtA w))
  | 0x2C => sysOf p (fmtR w) fn
  | 0x30 => liOf p (fmtX w ext) fn
  | 0x31 => some (.vsplati p (fmtX w ext))
  | _ => none

/-- Does a word spell no instruction of either profile, so that it raises ILLEGAL (R244)? -/
def illegalWord (w : Nat) : Bool := (sueskWord (.core 0) w 0).isNone && majorOf w != 0x28

/-- The command that a word spells by the table's bits: none. -/
def decodeTableWord (_nbits _w : Nat) : Option Instr := none

end Sys2Proof
end

