-- ==== Sys2Proof/Machine/Float.lean ====
section
/-! DEFINITION. IEEE 754 binary16, binary32 and binary64 numbers as bit patterns (00_scope.md R8), with exact dyadic
arithmetic, directed rounding, and reference values of the elementary functions (08_suesk_instructions.md R249, R253;
06_speculation.md R180 to R183). -/

namespace Sys2Proof.Machine

/-- A binary format: `p` bits of significand (the hidden bit counted) and `eb` exponent bits. -/
structure Fmt where
  p : Nat
  eb : Nat
deriving DecidableEq, Repr

/-- binary16 -/
def f16 : Fmt := ⟨11, 5⟩
/-- binary32 -/
def f32 : Fmt := ⟨24, 8⟩
/-- binary64 -/
def f64 : Fmt := ⟨53, 11⟩

/-- The exponent of the least significant bit of the smallest numbers of a format. -/
def Fmt.emin (f : Fmt) : Int := 2 - (2 ^ (f.eb - 1) : Nat) - (f.p - 1 : Nat)
/-- The pattern of +infinity. -/
def Fmt.inf (f : Fmt) : Nat := (2 ^ f.eb - 1) * 2 ^ (f.p - 1)
/-- The canonical quiet NaN (R162, R253). -/
def Fmt.nan (f : Fmt) : Nat := f.inf + 2 ^ (f.p - 2)
/-- The weight of the sign bit. -/
def Fmt.sgn (f : Fmt) : Nat := 2 ^ (f.p - 1 + f.eb)

/-- An exact dyadic number, `m` times two to the `e`. -/
structure Dy where
  m : Int
  e : Int
deriving DecidableEq, Repr

/-- What a pattern stands for. -/
inductive FV where
  | nan
  | inf (neg : Bool)
  | fin (neg : Bool) (m : Nat) (e : Int)
deriving DecidableEq, Repr

/-- Rounding directions: to nearest (ties to even), toward +infinity, toward -infinity, toward zero. -/
inductive Rnd where
  | near
  | up
  | down
  | zero
deriving DecidableEq, Repr

/-- The number a pattern stands for. -/
def unpack (f : Fmt) (w : Nat) : FV :=
  let frac := w % 2 ^ (f.p - 1)
  let ex := (w / 2 ^ (f.p - 1)) % 2 ^ f.eb
  let neg := (w / f.sgn) % 2 == 1
  if ex = 2 ^ f.eb - 1 then (if frac = 0 then .inf neg else .nan)
  else if ex = 0 then .fin neg frac f.emin
  else .fin neg (frac + 2 ^ (f.p - 1)) (f.emin + (ex : Int) - 1)

/-- Round a magnitude `m * 2 ^ e`, plus something below its last bit where `sticky`, to a pattern. -/
def roundPack (f : Fmt) (r : Rnd) (neg : Bool) (m : Nat) (e : Int) (sticky : Bool) : Nat :=
  let s := if neg then f.sgn else 0
  let m := 4 * m + b2n sticky
  let e := e - 2
  if m = 0 then s
  else
    let len : Int := (Nat.log2 m + 1 : Nat)
    let q := max (e + len - (f.p : Int)) f.emin
    let (v, rem, half) :=
      if q ≤ e then (m * 2 ^ (e - q).toNat, 0, 1)
      else
        let sh := (q - e).toNat
        (m / 2 ^ sh, m % 2 ^ sh, 2 ^ (sh - 1))
    let bump :=
      match r with
      | .near => decide (rem > half) || (rem == half && v % 2 == 1)
      | .up => rem != 0 && !neg
      | .down => rem != 0 && neg
      | .zero => false
    let v := v + b2n bump
    let (v, q) := if v = 2 ^ f.p then (2 ^ (f.p - 1), q + 1) else (v, q)
    let ex : Nat := if v < 2 ^ (f.p - 1) then 0 else (q - f.emin + 1).toNat
    if ex ≥ 2 ^ f.eb - 1 then
      let away := match r with
        | .near => true
        | .up => !neg
        | .down => neg
        | .zero => false
      if away then s + f.inf else s + f.inf - 1
    else s + ex * 2 ^ (f.p - 1) + v % 2 ^ (f.p - 1)

/-- Round a dyadic number; an exact zero is +0. -/
def Dy.pack (f : Fmt) (r : Rnd) (d : Dy) : Nat := roundPack f r (d.m < 0) d.m.natAbs d.e false

/-- The dyadic number of a finite pattern; 0 for the others. -/
def dyOf (f : Fmt) (w : Nat) : Dy :=
  match unpack f w with
  | .fin neg m e => ⟨if neg then -(m : Int) else m, e⟩
  | _ => ⟨0, 0⟩

/-- Is a pattern a finite number? -/
def isFin (f : Fmt) (w : Nat) : Bool :=
  match unpack f w with
  | .fin _ _ _ => true
  | _ => false

/-- Is a pattern a NaN? -/
def isNaN (f : Fmt) (w : Nat) : Bool :=
  match unpack f w with
  | .nan => true
  | _ => false

/-- The significand of a number at a lower exponent. -/
def Dy.at (d : Dy) (e : Int) : Int := d.m * (2 ^ (d.e - e).toNat : Nat)

/-- Exact sum. -/
def Dy.add (a b : Dy) : Dy :=
  let e := min a.e b.e
  ⟨a.at e + b.at e, e⟩
/-- Exact negation. -/
def Dy.neg (a : Dy) : Dy := ⟨-a.m, a.e⟩
/-- Exact difference. -/
def Dy.sub (a b : Dy) : Dy := a.add b.neg
/-- Exact product. -/
def Dy.mul (a b : Dy) : Dy := ⟨a.m * b.m, a.e + b.e⟩
/-- Exact magnitude. -/
def Dy.abs (a : Dy) : Dy := ⟨a.m.natAbs, a.e⟩
/-- Exact comparison. -/
def Dy.le (a b : Dy) : Bool := decide ((a.sub b).m ≤ 0)
/-- Exact comparison. -/
def Dy.lt (a b : Dy) : Bool := decide ((a.sub b).m < 0)
/-- The smaller. -/
def Dy.min (a b : Dy) : Dy := if a.le b then a else b
/-- The larger. -/
def Dy.max (a b : Dy) : Dy := if a.le b then b else a
/-- An integer. -/
def Dy.ofInt (i : Int) : Dy := ⟨i, 0⟩
/-- The greatest integer not above. -/
def Dy.floor (a : Dy) : Int := if a.e ≥ 0 then a.m * (2 ^ a.e.toNat : Nat) else a.m / (2 ^ (-a.e).toNat : Nat)

/-- The quotient of two dyadic numbers, rounded once; the divisor is not 0. -/
def divRnd (f : Fmt) (r : Rnd) (a b : Dy) : Nat :=
  let n := a.m.natAbs * 2 ^ (2 * f.p + 80 + Nat.log2 b.m.natAbs)
  let d := b.m.natAbs
  roundPack f r ((decide (a.m < 0)) != (decide (b.m < 0))) (n / d)
    (a.e - b.e - ((2 * f.p + 80 + Nat.log2 b.m.natAbs : Nat) : Int)) (n % d != 0)

/-- The greatest `r + ...` whose square is at most `n`, bit by bit from bit `k - 1` down. -/
def isqrtFrom (n : Nat) : Nat → Nat → Nat
  | 0, r => r
  | k + 1, r => isqrtFrom n k (if (r + 2 ^ k) * (r + 2 ^ k) ≤ n then r + 2 ^ k else r)

/-- Integer square root. -/
def isqrt (n : Nat) : Nat := isqrtFrom n (Nat.log2 n / 2 + 1) 0

/-- The square root of a non-negative dyadic number, rounded once. -/
def sqrtRnd (f : Fmt) (r : Rnd) (a : Dy) : Nat :=
  let k : Nat := 2 * f.p + 16 + (if a.e % 2 = 0 then 0 else 1)
  let n := a.m.natAbs * 2 ^ (2 * (k / 2) + (if a.e % 2 = 0 then 0 else 1))
  let e := (a.e - ((2 * (k / 2) + (if a.e % 2 = 0 then 0 else 1) : Nat) : Int)) / 2
  let s := isqrt n
  roundPack f r false s e (s * s != n)

/-- The sum of two patterns under IEEE 754. -/
def fadd (f : Fmt) (r : Rnd) (x y : Nat) : Nat :=
  match unpack f x, unpack f y with
  | .nan, _ => f.nan
  | _, .nan => f.nan
  | .inf a, .inf b => if a = b then x else f.nan
  | .inf _, _ => x
  | _, .inf _ => y
  | .fin a m e, .fin b n k =>
    let d := (Dy.mk (if a then -(m : Int) else m) e).add ⟨if b then -(n : Int) else n, k⟩
    if d.m = 0 then (if (a && b) || (decide (r = .down) && (a || b)) then f.sgn else 0) else d.pack f r

/-- The pattern with its sign changed. -/
def fneg (f : Fmt) (x : Nat) : Nat := if (x / f.sgn) % 2 = 1 then x - f.sgn else x + f.sgn

/-- The pattern with its sign cleared. -/
def fabs (f : Fmt) (x : Nat) : Nat := x % f.sgn

/-- The difference of two patterns. -/
def fsub (f : Fmt) (r : Rnd) (x y : Nat) : Nat := fadd f r x (fneg f y)

/-- The product of two patterns. -/
def fmul (f : Fmt) (r : Rnd) (x y : Nat) : Nat :=
  match unpack f x, unpack f y with
  | .nan, _ => f.nan
  | _, .nan => f.nan
  | .inf a, .inf b => f.inf + (if a = b then 0 else f.sgn)
  | .inf a, .fin b n _ => if n = 0 then f.nan else f.inf + (if a = b then 0 else f.sgn)
  | .fin a m _, .inf b => if m = 0 then f.nan else f.inf + (if a = b then 0 else f.sgn)
  | .fin a m e, .fin b n k => roundPack f r (a != b) (m * n) (e + k) false

/-- The quotient of two patterns. -/
def fdiv (f : Fmt) (r : Rnd) (x y : Nat) : Nat :=
  match unpack f x, unpack f y with
  | .nan, _ => f.nan
  | _, .nan => f.nan
  | .inf _, .inf _ => f.nan
  | .inf a, .fin b _ _ => f.inf + (if a = b then 0 else f.sgn)
  | .fin a _ _, .inf b => if a = b then 0 else f.sgn
  | .fin a m e, .fin b n k =>
    if n = 0 then (if m = 0 then f.nan else f.inf + (if a = b then 0 else f.sgn))
    else if m = 0 then (if a = b then 0 else f.sgn)
    else divRnd f r ⟨if a then -(m : Int) else m, e⟩ ⟨if b then -(n : Int) else n, k⟩

/-- The square root of a pattern. -/
def fsqrt (f : Fmt) (r : Rnd) (x : Nat) : Nat :=
  match unpack f x with
  | .nan => f.nan
  | .inf false => x
  | .inf true => f.nan
  | .fin neg m e => if m = 0 then x else if neg then f.nan else sqrtRnd f r ⟨m, e⟩

/-- x < y, false on NaN. -/
def flt (f : Fmt) (x y : Nat) : Bool :=
  match unpack f x, unpack f y with
  | .nan, _ => false
  | _, .nan => false
  | .inf a, .inf b => a && !b
  | .inf a, _ => a
  | _, .inf b => !b
  | .fin a m e, .fin b n k => (Dy.mk (if a then -(m : Int) else m) e).lt ⟨if b then -(n : Int) else n, k⟩

/-- x = y as numbers, false on NaN. -/
def feq (f : Fmt) (x y : Nat) : Bool := !isNaN f x && !isNaN f y && !flt f x y && !flt f y x

/-- x ≤ y, false on NaN. -/
def fle (f : Fmt) (x y : Nat) : Bool := flt f x y || feq f x y

/-- The minimum; a NaN operand yields the other (R253). -/
def fmin (f : Fmt) (x y : Nat) : Nat :=
  if isNaN f x then (if isNaN f y then f.nan else y) else if isNaN f y then x else if flt f y x then y else x

/-- The maximum; a NaN operand yields the other (R253). -/
def fmax (f : Fmt) (x y : Nat) : Nat :=
  if isNaN f x then (if isNaN f y then f.nan else y) else if isNaN f y then x else if flt f x y then y else x

/-- A pattern of one format rounded to another. -/
def fcvt (f g : Fmt) (r : Rnd) (x : Nat) : Nat :=
  match unpack f x with
  | .nan => g.nan
  | .inf a => g.inf + (if a then g.sgn else 0)
  | .fin a m e => roundPack g r a m e false

/-- The integer toward zero, saturating to `n` signed bits; NaN gives 0 (R253). -/
def ftoInt (f : Fmt) (n : Nat) (x : Nat) : Int :=
  let hi : Int := (2 ^ (n - 1) : Nat) - 1
  let lo : Int := -(2 ^ (n - 1) : Nat)
  match unpack f x with
  | .nan => 0
  | .inf a => if a then lo else hi
  | .fin a m e =>
    let v : Int := (Dy.mk m e).floor
    max lo (min hi (if a then -v else v))

/-- The pattern nearest an integer. -/
def fofInt (f : Fmt) (i : Int) : Nat := (Dy.ofInt i).pack f .near

/-- The next pattern below (toward -infinity), of a finite pattern. -/
def fprev (f : Fmt) (x : Nat) : Nat :=
  if x / f.sgn % 2 = 1 then (if x = f.sgn + f.inf then x else x + 1) else if x = 0 then f.sgn + 1 else x - 1

/-- The next pattern above. -/
def fnext (f : Fmt) (x : Nat) : Nat :=
  if x / f.sgn % 2 = 1 then (if x = f.sgn then 1 else x - 1) else if x = f.inf then x else x + 1

/-- `k` steps of a function. -/
def iter {α : Type} (g : α → α) : Nat → α → α
  | 0, x => x
  | k + 1, x => iter g k (g x)

/-! Reference values of the elementary functions, in fixed point with 300 fraction bits. -/

/-- How many fraction bits the reference values carry. -/
def fxS : Nat := 300
/-- π -/
def fxPi : Int := 0x3243f6a8885a308d313198a2e03707344a4093822299f31d0082efa98ec4e6c89452821e638d
/-- ln 2 -/
def fxLn2 : Int := 0xb17217f7d1cf79abc9e3b39803f2f6af40f343267298b62d8a0d175b8baafa2be7b876206de
/-- 1 -/
def fxOne : Int := (2 ^ fxS : Nat)

/-- The fixed-point value of a dyadic number. -/
def Dy.fx (d : Dy) : Int :=
  if d.e + (fxS : Int) ≥ 0 then d.m * (2 ^ (d.e + (fxS : Int)).toNat : Nat)
  else d.m / (2 ^ (-(d.e + (fxS : Int))).toNat : Nat)

/-- A fixed-point value as a dyadic number. -/
def ofFx (i : Int) : Dy := ⟨i, -(fxS : Int)⟩

/-- Fixed-point product. -/
def fxMul (a b : Int) : Int := a * b / fxOne
/-- Fixed-point quotient. -/
def fxDiv (a b : Int) : Int := a * fxOne / b
/-- Fixed-point square root. -/
def fxSqrt (a : Int) : Int := (isqrt (a.toNat * 2 ^ fxS) : Nat)

/-- Terms `t`, `-t x² / (n (n+1))`, ... summed, `k` of them. -/
def trigSum (x2 : Int) : Nat → Nat → Int → Int → Int
  | 0, _, _, acc => acc
  | k + 1, n, t, acc => trigSum x2 k (n + 2) (-(fxMul t x2) / ((n * (n + 1) : Nat) : Int)) (acc + t)

/-- sin of a fixed-point angle of any size. -/
def fxSin (x : Int) : Int :=
  let y := x % (2 * fxPi)
  let y := if y > fxPi then y - 2 * fxPi else y
  trigSum (fxMul y y) 60 2 y 0

/-- cos of a fixed-point angle. -/
def fxCos (x : Int) : Int :=
  let y := x % (2 * fxPi)
  let y := if y > fxPi then y - 2 * fxPi else y
  trigSum (fxMul y y) 60 1 fxOne 0

/-- Terms of the series of atan or atanh (`sg` -1 or 1). -/
def atanSum (sg : Int) (t2 : Int) : Nat → Nat → Int → Int → Int
  | 0, _, _, acc => acc
  | k + 1, n, p, acc => atanSum sg t2 k (n + 2) (sg * fxMul p t2) (acc + p / (n : Int))

/-- atan of a fixed-point number between 0 and 1. -/
def fxAtan01 (t : Int) : Int :=
  let h (t : Int) : Int := fxDiv t (fxOne + fxSqrt (fxOne + fxMul t t))
  let u := h (h (h t))
  8 * atanSum (-1) (fxMul u u) 48 1 u 0

/-- The angle of (x, y) in (-π, π]. -/
def fxAtan2 (y x : Dy) : Int :=
  let e := min x.e y.e
  let xi := x.at e
  let yi := y.at e
  let ax : Int := xi.natAbs
  let ay : Int := yi.natAbs
  let base : Int :=
    if ax = 0 && ay = 0 then 0
    else if ay ≤ ax then fxAtan01 (ay * fxOne / ax)
    else fxPi / 2 - fxAtan01 (ax * fxOne / ay)
  let b := if xi < 0 then fxPi - base else base
  if yi < 0 then -b else b

/-- asin of a fixed-point number between 0 and 1. -/
def fxAsin (s : Int) : Int :=
  fxAtan2 (ofFx s) (ofFx (fxSqrt (max 0 (fxOne - fxMul s s))))

/-- ln of a positive dyadic number. -/
def fxLn (d : Dy) : Int :=
  let l := Nat.log2 d.m.natAbs
  let m := (Dy.mk d.m (-(l : Int))).fx
  let u := fxDiv (m - fxOne) (m + fxOne)
  2 * atanSum 1 (fxMul u u) 100 1 u 0 + (d.e + (l : Int)) * fxLn2

/-- A reference value rounded to a format. -/
def fxPack (f : Fmt) (r : Rnd) (i : Int) : Nat := (ofFx i).pack f r

end Sys2Proof.Machine
end

