-- ==== Sys2Proof/Config.lean ====
section
/-! DEFINITION. The free values: constants without a body, so that no proof can see what they are. Each stands where the
spec leaves a value open, or names an encoding without giving it (logs 4 to 10 and 15). -/

namespace Sys2Proof.Config

/-- Fresh free values, numbered by the counter State.freeCtr (log 4): random draws, outcomes the spec calls not defined. -/
opaque fresh : Nat → Nat
/-- The last-place error of an elementary function or a conversion, by kind and operands, reduced to the bound the rule gives (log 8). -/
opaque ulp : Nat → List Nat → Nat
/-- What lane-local memory holds where the work item has not written: by lane, invocation, work item and address (07 R211, log 10). -/
opaque scratch : Nat → Nat → Nat → Nat → Nat
/-- The bytes of the boot ROM, by offset (log 10). -/
opaque bootRom : Nat → Nat
/-- Approximations of all the roots of a polynomial (real, imaginary, binary32), from its coefficient intervals; the discs that enclose the
roots are built about them (log 9). -/
opaque roots : List (Nat × Nat) → List (Nat × Nat)
/-- Octets of an encoded R-SV or GOOSE APDU, by kind and content (log 6). -/
opaque encSize : Nat → List Nat → Nat
/-- The matches that a compressor finds in its input: (0, literal byte) or (length, distance) (log 15). -/
opaque lzTokens : List Nat → List (Nat × Nat)
/-- The initialisation vector of an R-SV frame, by its SPDU number (log 6). -/
opaque rsvIv : Nat → List Nat
/-- Octets of an R-SV frame, by its content: 0 those that a tag covers without encryption; 1 those left clear, and 2 those encrypted, with it (log 6). -/
opaque rsvOctets : Nat → List Nat → List Nat
/-- Does a float32 multiply-accumulate round once, after its addition, or the product too (log 136)? -/
opaque macFused : Bool
/-- The circuit that a pulse input belongs to, for NRG_CLEAR (log 27). -/
opaque pulseCircuit : Nat → Nat

/-- The SHA-384 of the Porvon key's encoding that the mask ROM holds (17 R491, log 10). -/
opaque romKeyHash : Nat
/-- Error of the captured device time of the MODCLK edge of a fabric cycle, reduced to ±2 ns (12 R366, log 154). -/
opaque edgeErr : Nat → Nat
/-- The KEY_ID of the key that PAIR writes, by the partner's UNIT_ID (log 30). -/
opaque pairKeyId : Nat → Nat

end Sys2Proof.Config
end

