-- ==== Sys2Proof/Machine/Regs.lean ====
section
/-! DEFINITION. The register map of BAR0: every register's offset, reset value and access masks, and every window,
from the register descriptions of the chapters (01_architecture.md R33 and the chapter of each block). -/

namespace Sys2Proof.Machine

/-- One register, or an array of registers at a fixed stride, with the bits of each access code of 00_scope.md R9:
`rw` (RW and RWL), `w1c`, `rc`. Every other bit is RO, WO or reserved and keeps its value under a write. -/
structure RegRow where
  base : Nat
  stride : Nat
  count : Nat
  reset : Nat
  rw : Nat
  w1c : Nat
  rc : Nat
deriving DecidableEq, Repr

/-- The kinds of window (01_architecture.md R38 to R41, R539). -/
inductive WinKind where
  /-- writes go to the pending copy (R539) -/
  | trans
  /-- writes go to the table itself -/
  | plain
  /-- a write is ignored and sets RANGE_ERR -/
  | readOnly
deriving DecidableEq, Repr

/-- One window: its index register, how many data registers follow it, its entries, its kind. -/
structure WinRow where
  idx : Nat
  ndata : Nat
  entries : Nat
  kind : WinKind
deriving DecidableEq, Repr

/-! 01_architecture.md R35 -/
abbrev Reg.SYS_BADADDR : Nat := 0x40
/-! 02_modes_startup.md R44 -/
abbrev Reg.SYS_ID : Nat := 0x0
abbrev Reg.SYS_STEP : Nat := 0x4
/-! 02_modes_startup.md R45 -/
abbrev Reg.SYS_MODE : Nat := 0x8
abbrev Reg.SYS_STATUS : Nat := 0xc
/-! 02_modes_startup.md R61 -/
abbrev Reg.SYS_HEALTH : Nat := 0x10
/-! 02_modes_startup.md R62 -/
abbrev Reg.TXN_CTRL : Nat := 0x100
abbrev Reg.TXN_TARGET_LO : Nat := 0x104
abbrev Reg.TXN_TARGET_HI : Nat := 0x108
abbrev Reg.TXN_STATUS : Nat := 0x10c
abbrev Reg.TXN_REJMASK : Nat := 0x110
/-! 02_modes_startup.md R74 -/
abbrev Reg.SYS_OOS_LANE : Nat := 0x200
abbrev Reg.SYS_OOS_UNIT : Nat := 0x204
abbrev Reg.SYS_OOS_ACK_LANE : Nat := 0x208
abbrev Reg.SYS_OOS_ACK_UNIT : Nat := 0x20c
/-! 19_electrical_package.md R525 -/
abbrev Reg.PWR_STATUS : Nat := 0x10000
/-! 19_electrical_package.md R532 -/
abbrev Reg.PWR_GOV_CFG : Nat := 0x10004
abbrev Reg.PWR_TEMP : Nat := 0x10008
abbrev Reg.PWR_RAMPS : Nat := 0x10040
abbrev Reg.PWR_PF_EVENTS : Nat := 0x10044
abbrev Reg.PWR_PF_GLITCH : Nat := 0x10048
abbrev Reg.PWR_HOLD_LOW : Nat := 0x1004c
/-! 03_time_base.md R83 -/
abbrev Reg.TIME_CTRL : Nat := 0x20000
abbrev Reg.TIME_STATUS : Nat := 0x20004
/-! 03_time_base.md R80 -/
abbrev Reg.TIME_NOW_SEC_LO : Nat := 0x20010
abbrev Reg.TIME_NOW_SEC_HI : Nat := 0x20014
abbrev Reg.TIME_NOW_NS : Nat := 0x20018
abbrev Reg.TIME_NOW_FRAC : Nat := 0x2001c
/-! 03_time_base.md R81 -/
abbrev Reg.TIME_ADDEND_LO : Nat := 0x20020
abbrev Reg.TIME_ADDEND_HI : Nat := 0x20024
/-! 03_time_base.md R82 -/
abbrev Reg.TIME_STEP_LO : Nat := 0x20028
abbrev Reg.TIME_STEP_HI : Nat := 0x2002c
abbrev Reg.TIME_JUMP_LIM : Nat := 0x20030
abbrev Reg.TIME_FORCE_UNLOCK : Nat := 0x20034
abbrev Reg.TIME_STEP_CNT : Nat := 0x20038
/-! 03_time_base.md R91 -/
abbrev Reg.TIME_LEAP : Nat := 0x20040
abbrev Reg.TIME_LEAP_AT_LO : Nat := 0x20044
abbrev Reg.TIME_LEAP_AT_HI : Nat := 0x20048
/-! 03_time_base.md R102 -/
abbrev Reg.TIME_LOSS_TMO : Nat := 0x20050
/-! 03_time_base.md R99 -/
abbrev Reg.TIME_REF_TS_SEC_LO : Nat := 0x20060
abbrev Reg.TIME_REF_TS_SEC_HI : Nat := 0x20064
abbrev Reg.TIME_REF_TS_NS : Nat := 0x20068
/-! 03_time_base.md R101 -/
abbrev Reg.TIME_REF10M_ERR : Nat := 0x20070
/-! 03_time_base.md R100 -/
abbrev Reg.TIME_PPS_CFG : Nat := 0x20080
/-! 03_time_base.md R92 -/
abbrev Reg.TIME_PLAT (n : Nat) : Nat := 0x20090 + 0x4 * n
/-! 03_time_base.md R103 -/
abbrev Reg.TIME_CMP_FIRED_LO : Nat := 0x20120
abbrev Reg.TIME_CMP_FIRED_HI : Nat := 0x20124
/-! 03_time_base.md R94 -/
abbrev Reg.TIME_TXTS_TAG (n : Nat) : Nat := 0x20200 + 0x20 * n
abbrev Reg.TIME_TXTS_SEC_LO (n : Nat) : Nat := 0x20204 + 0x20 * n
abbrev Reg.TIME_TXTS_SEC_HI (n : Nat) : Nat := 0x20208 + 0x20 * n
abbrev Reg.TIME_TXTS_NS (n : Nat) : Nat := 0x2020c + 0x20 * n
abbrev Reg.TIME_TXTS_FRAC (n : Nat) : Nat := 0x20210 + 0x20 * n
/-! 04_ingest_streams.md R108 -/
abbrev Reg.ETH0_CFG : Nat := 0x30000
abbrev Reg.ETH1_CFG : Nat := 0x34000
abbrev Reg.ETH2_CFG : Nat := 0x38000
abbrev Reg.ETH3_CFG : Nat := 0x3c000
/-! 04_ingest_streams.md R109 -/
abbrev Reg.ETH_UDP (n : Nat) : Nat := 0x30008 + 0x4000 * n
abbrev Reg.ETH_RX_FRAMES (n : Nat) : Nat := 0x30100 + 0x4000 * n
abbrev Reg.ETH_RX_FCS_ERR (n : Nat) : Nat := 0x30104 + 0x4000 * n
abbrev Reg.ETH_RX_FILTERED (n : Nat) : Nat := 0x30108 + 0x4000 * n
abbrev Reg.ETH_RX_OVF (n : Nat) : Nat := 0x3010c + 0x4000 * n
abbrev Reg.ETH_C37_CHK_ERR (n : Nat) : Nat := 0x30110 + 0x4000 * n
abbrev Reg.ETH_RSV_ERR (n : Nat) : Nat := 0x30114 + 0x4000 * n
abbrev Reg.ETH_UNKNOWN (n : Nat) : Nat := 0x30118 + 0x4000 * n
abbrev Reg.ETH_PRP_BAD_RCT (n : Nat) : Nat := 0x3011c + 0x4000 * n
/-! 04_ingest_streams.md R134 -/
abbrev Reg.ING_CTRL : Nat := 0x40000
abbrev Reg.ING_ALIGN_TOL : Nat := 0x40008
abbrev Reg.ING_TBASE0 : Nat := 0x40010
abbrev Reg.ING_TBASE1 : Nat := 0x40014
abbrev Reg.ING_TBASE2 : Nat := 0x40018
abbrev Reg.ING_TBASE3 : Nat := 0x4001c
abbrev Reg.ING_FW_DROP : Nat := 0x40020
/-! 04_ingest_streams.md R543 -/
abbrev Reg.ING_INT_FRAMES : Nat := 0x40024
abbrev Reg.ING_INT_CHK_ERR : Nat := 0x40028
abbrev Reg.ING_INT_UNKNOWN : Nat := 0x4002c
/-! 04_ingest_streams.md R133 -/
abbrev Reg.ING_SHCLR : Nat := 0x401a4
/-! 04_ingest_streams.md R130 -/
abbrev Reg.ING_RS_CTRL : Nat := 0x40200
abbrev Reg.ING_RS_STATUS : Nat := 0x40204
abbrev Reg.ING_RSSET (n : Nat) : Nat := 0x40210 + 0x4 * n
/-! 05_lathe_alignment.md R170 -/
abbrev Reg.ALN_CTRL : Nat := 0x60000
abbrev Reg.ALN_RATE : Nat := 0x60004
abbrev Reg.ALN_WAIT : Nat := 0x60008
abbrev Reg.ALN_WAIT_PEND : Nat := 0x6000c
abbrev Reg.ALN_AMEND_MAX : Nat := 0x60010
/-! 05_lathe_alignment.md R171 -/
abbrev Reg.ALN_NEWEST_LO : Nat := 0x60018
abbrev Reg.ALN_NEWEST_HI : Nat := 0x6001c
abbrev Reg.ALN_BLANK_STATE (n : Nat) : Nat := 0x60020 + 0x4 * n
/-! 05_lathe_alignment.md R143 -/
abbrev Reg.ALN_TOO_LATE : Nat := 0x60040
abbrev Reg.ALN_EARLY : Nat := 0x60044
abbrev Reg.ALN_EARLY_OVF : Nat := 0x60048
abbrev Reg.ALN_SEAL_ALL : Nat := 0x6004c
abbrev Reg.ALN_SEAL_WAIT : Nat := 0x60050
abbrev Reg.ALN_AMENDS : Nat := 0x60054
abbrev Reg.ALN_AMEND_LIMIT : Nat := 0x60058
abbrev Reg.ALN_AMEND_OVF : Nat := 0x6005c
abbrev Reg.ALN_EVAL_CUT : Nat := 0x60060
abbrev Reg.ALN_UNSEALED_RETIRE : Nat := 0x60064
abbrev Reg.ALN_SKIPPED : Nat := 0x60068
/-! 06_speculation.md R201 -/
abbrev Reg.SPC_CTRL : Nat := 0x70000
abbrev Reg.SPC_DEADLINE : Nat := 0x70004
abbrev Reg.SPC_DEADLINE_PEND : Nat := 0x70008
abbrev Reg.SPC_GAIN : Nat := 0x7000c
abbrev Reg.SPC_GAIN_PEND : Nat := 0x70010
abbrev Reg.SPC_STATUS : Nat := 0x70014
/-! 06_speculation.md R202 -/
abbrev Reg.SPC_FLOOR_PH : Nat := 0x70020
abbrev Reg.SPC_FLOOR_AN : Nat := 0x70024
abbrev Reg.SPC_FLOOR_FREQ : Nat := 0x70028
abbrev Reg.SPC_FLOOR_ROCOF : Nat := 0x7002c
abbrev Reg.SPC_FILLS : Nat := 0x70040
abbrev Reg.SPC_FILL_CUT : Nat := 0x70044
abbrev Reg.SPC_PRED_BOUNDED : Nat := 0x70048
abbrev Reg.SPC_PRED_UNBOUNDED : Nat := 0x7004c
abbrev Reg.SPC_JUDGED : Nat := 0x70050
abbrev Reg.SPC_MISSES : Nat := 0x70054
abbrev Reg.SPC_ALARM_MISS : Nat := 0x70058
abbrev Reg.SPC_FILL_DEFER : Nat := 0x7005c
abbrev Reg.SPC_NOTGOOD : Nat := 0x70060
abbrev Reg.SPC_CHCLR : Nat := 0x70120
/-! 07_suesk_programming_model.md R235 -/
abbrev Reg.SSK_CTRL : Nat := 0x80000
abbrev Reg.SSK_CHUCK_SEL : Nat := 0x80004
abbrev Reg.SSK_SWAP_AT_LO : Nat := 0x80008
abbrev Reg.SSK_SWAP_AT_HI : Nat := 0x8000c
abbrev Reg.SSK_SWAP_PEND_LO : Nat := 0x80010
abbrev Reg.SSK_SWAP_PEND_HI : Nat := 0x80014
abbrev Reg.SSK_VERIFY_STATUS : Nat := 0x80018
/-! 07_suesk_programming_model.md R226 -/
abbrev Reg.SSK_LOAD_CFG : Nat := 0x8001c
abbrev Reg.SSK_LOAD : Nat := 0x80020
abbrev Reg.SSK_RRCFG (n : Nat) : Nat := 0x80040 + 0x4 * n
abbrev Reg.SSK_INVOKES : Nat := 0x80080
abbrev Reg.SSK_BUDGET_CUT : Nat := 0x80084
abbrev Reg.SSK_EXC : Nat := 0x80088
abbrev Reg.SSK_RES_OVF : Nat := 0x8008c
abbrev Reg.SSK_ALARM_REQ : Nat := 0x80090
abbrev Reg.SSK_ALARM_DENIED : Nat := 0x80094
abbrev Reg.SSK_TIMED_REFUSED : Nat := 0x80098
abbrev Reg.SSK_KT_PARITY : Nat := 0x8009c
/-! 09_detectors_alarms.md R297 -/
abbrev Reg.DET_ISL_CFG : Nat := 0xa0200
abbrev Reg.DET_ISL_FTH : Nat := 0xa0204
abbrev Reg.DET_ISL_ATH : Nat := 0xa0208
abbrev Reg.DET_ISL_N : Nat := 0xa020c
/-! 09_detectors_alarms.md R299 -/
abbrev Reg.DET_ALM_CFG : Nat := 0xa0300
abbrev Reg.DET_ALM_STATE : Nat := 0xa0304
abbrev Reg.DET_ALM_ACK : Nat := 0xa0308
abbrev Reg.DET_ALM_SRC (n : Nat) : Nat := 0xa0340 + 0x8 * n
abbrev Reg.DET_ALM_EPOCH (n : Nat) : Nat := 0xa0344 + 0x8 * n
/-! 09_detectors_alarms.md R306 -/
abbrev Reg.DET_GS_CFG : Nat := 0xa0400
abbrev Reg.DET_GS_TIMING : Nat := 0xa0404
abbrev Reg.DET_GS_APPID : Nat := 0xa0408
abbrev Reg.DET_GS_CONFREV : Nat := 0xa040c
abbrev Reg.DET_GS_DST_LO : Nat := 0xa0410
abbrev Reg.DET_GS_DST_HI : Nat := 0xa0414
abbrev Reg.DET_GS_STNUM : Nat := 0xa0418
abbrev Reg.DET_GS_SQNUM : Nat := 0xa041c
/-! 09_detectors_alarms.md R309 -/
abbrev Reg.DET_OSC_EVALS : Nat := 0xa0500
abbrev Reg.DET_OSC_HELD : Nat := 0xa0504
abbrev Reg.DET_OSC_NF_FROZEN : Nat := 0xa0508
abbrev Reg.DET_ISL_EVALS : Nat := 0xa050c
abbrev Reg.DET_ISL_AMEND_SKIP : Nat := 0xa0510
abbrev Reg.DET_ALM_LATCHES : Nat := 0xa0514
abbrev Reg.DET_ALM_REPEAT : Nat := 0xa0518
abbrev Reg.DET_ALM_DISABLED : Nat := 0xa051c
abbrev Reg.DET_GS_SENT : Nat := 0xa0520
/-! 10_output_sessions.md R317 -/
abbrev Reg.OUT_TBASE : Nat := 0xb0004
abbrev Reg.OUT_FRAMES : Nat := 0xb0040
abbrev Reg.OUT_PROV_FRAMES : Nat := 0xb0044
abbrev Reg.OUT_AMEND_FRAMES : Nat := 0xb0048
abbrev Reg.OUT_AMEND_UNSENT : Nat := 0xb004c
abbrev Reg.OUT_TX_DROP : Nat := 0xb0050
abbrev Reg.OUT_KEY_DROP : Nat := 0xb0054
abbrev Reg.OUT_CMD_RX : Nat := 0xb0058
abbrev Reg.OUT_CMD_IGNORED : Nat := 0xb005c
/-! 11_host_dma_chutes_compression.md R336 -/
abbrev Reg.DMA_CTRL : Nat := 0xc0000
/-! 11_host_dma_chutes_compression.md R345 -/
abbrev Reg.RING_CTRL (n : Nat) : Nat := 0xc0100 + 0x40 * n
abbrev Reg.RING_STATUS (n : Nat) : Nat := 0xc0104 + 0x40 * n
abbrev Reg.RING_DESC_BASE_LO (n : Nat) : Nat := 0xc0108 + 0x40 * n
abbrev Reg.RING_DESC_BASE_HI (n : Nat) : Nat := 0xc010c + 0x40 * n
abbrev Reg.RING_CPL_BASE_LO (n : Nat) : Nat := 0xc0110 + 0x40 * n
abbrev Reg.RING_CPL_BASE_HI (n : Nat) : Nat := 0xc0114 + 0x40 * n
abbrev Reg.RING_DESC_TAIL (n : Nat) : Nat := 0xc0118 + 0x40 * n
abbrev Reg.RING_DESC_HEAD (n : Nat) : Nat := 0xc011c + 0x40 * n
abbrev Reg.RING_CPL_TAIL (n : Nat) : Nat := 0xc0120 + 0x40 * n
abbrev Reg.RING_CPL_HEAD (n : Nat) : Nat := 0xc0124 + 0x40 * n
abbrev Reg.RING_IRQ_MOD (n : Nat) : Nat := 0xc0128 + 0x40 * n
abbrev Reg.RING_NOBUF (n : Nat) : Nat := 0xc012c + 0x40 * n
abbrev Reg.RING_RECORDS (n : Nat) : Nat := 0xc0130 + 0x40 * n
/-! 11_host_dma_chutes_compression.md R354 -/
abbrev Reg.CH_CFG (n : Nat) : Nat := 0xc0800 + 0x40 * n
abbrev Reg.CH_STATUS (n : Nat) : Nat := 0xc0804 + 0x40 * n
abbrev Reg.CH_RD_LO (n : Nat) : Nat := 0xc0808 + 0x40 * n
abbrev Reg.CH_RD_HI (n : Nat) : Nat := 0xc080c + 0x40 * n
abbrev Reg.CH_PUSH_LO (n : Nat) : Nat := 0xc0810 + 0x40 * n
abbrev Reg.CH_PUSH_HI (n : Nat) : Nat := 0xc0814 + 0x40 * n
abbrev Reg.CH_PUSH_SOI (n : Nat) : Nat := 0xc0818 + 0x40 * n
abbrev Reg.CH_FLUSH_TRUNC (n : Nat) : Nat := 0xc081c + 0x40 * n
abbrev Reg.CH_PUSH_REFUSED (n : Nat) : Nat := 0xc0820 + 0x40 * n
abbrev Reg.CH_ITEMS (n : Nat) : Nat := 0xc0824 + 0x40 * n
/-! 12_local_front_end.md R365 -/
abbrev Reg.AFE_CTRL : Nat := 0xd0000
abbrev Reg.AFE_STATUS : Nat := 0xd0004
/-! 12_local_front_end.md R368 -/
abbrev Reg.AFE_GRP_CTRL : Nat := 0xd0010
abbrev Reg.AFE_GRP_STATUS : Nat := 0xd0014
/-! 12_local_front_end.md R380 -/
abbrev Reg.AFE_TRK : Nat := 0xd0020
abbrev Reg.AFE_TRK_FREQ : Nat := 0xd0024
abbrev Reg.AFE_TRK_MIN : Nat := 0xd0028
abbrev Reg.AFE_TRK_LOCK : Nat := 0xd002c
/-! 12_local_front_end.md R377 -/
abbrev Reg.AFE_CC_CMD : Nat := 0xd0030
abbrev Reg.AFE_CC_LAST : Nat := 0xd0034
abbrev Reg.AFE_RSLEAD : Nat := 0xd0038
/-! 12_local_front_end.md R386 -/
abbrev Reg.AFE_DIN_LEVEL : Nat := 0xd0040
abbrev Reg.AFE_DIN_CHUTE : Nat := 0xd0044
abbrev Reg.AFE_CLIP : Nat := 0xd0048
abbrev Reg.AFE_STUCK : Nat := 0xd004c
/-! 12_local_front_end.md R387 -/
abbrev Reg.AFE_DINEV_TAG : Nat := 0xd0050
abbrev Reg.AFE_DINEV_SEC_LO : Nat := 0xd0054
abbrev Reg.AFE_DINEV_SEC_HI : Nat := 0xd0058
abbrev Reg.AFE_DINEV_NS : Nat := 0xd005c
/-! 12_local_front_end.md R388 -/
abbrev Reg.AFE_FIRGD (n : Nat) : Nat := 0xd0060 + 0x4 * n
abbrev Reg.AFE_CLIP_CNT : Nat := 0xd0080
abbrev Reg.AFE_GRP_REFIRE : Nat := 0xd0084
abbrev Reg.AFE_CC_BADARG : Nat := 0xd0088
abbrev Reg.AFE_TRK_UNLOCKS : Nat := 0xd008c
abbrev Reg.AFE_S0_SKIPPED : Nat := 0xd0090
abbrev Reg.AFE_DIN_OVF : Nat := 0xd0094
/-! 13_energy_metering.md R397 -/
abbrev Reg.NRG_CTRL : Nat := 0xe0000
abbrev Reg.NRG_STATUS : Nat := 0xe0004
abbrev Reg.NRG_IR_HEAD : Nat := 0xe0008
abbrev Reg.NRG_SAVE_SEQ : Nat := 0xe000c
/-! 13_energy_metering.md R404 -/
abbrev Reg.NRG_GAP_SEC_LO : Nat := 0xe0010
abbrev Reg.NRG_GAP_SEC_HI : Nat := 0xe0014
abbrev Reg.NRG_GAP_LEN : Nat := 0xe0018
/-! 13_energy_metering.md R392 -/
abbrev Reg.NRG_CYCLES : Nat := 0xe0080
abbrev Reg.NRG_SHORT : Nat := 0xe0084
abbrev Reg.NRG_NAN : Nat := 0xe0088
abbrev Reg.NRG_SAVES : Nat := 0xe008c
abbrev Reg.NRG_SAVE_SKIP : Nat := 0xe0090
abbrev Reg.NRG_SHADOW_LOST : Nat := 0xe0094
/-! 14_capture.md R415 -/
abbrev Reg.CAP_CTRL : Nat := 0xf0000
abbrev Reg.CAP_STATUS : Nat := 0xf0004
abbrev Reg.CAP_WIN : Nat := 0xf0008
abbrev Reg.CAP_WIN2 : Nat := 0xf000c
abbrev Reg.CAP_STORE_BASE : Nat := 0xf0010
abbrev Reg.CAP_STORE_SIZE : Nat := 0xf0014
abbrev Reg.CAP_SQCUR : Nat := 0xf0020
abbrev Reg.CAP_RECORDS : Nat := 0xf0080
abbrev Reg.CAP_NOREC : Nat := 0xf0084
abbrev Reg.CAP_EXTENDS : Nat := 0xf0088
abbrev Reg.CAP_SHAVE_OVF : Nat := 0xf008c
abbrev Reg.CAP_STORE_FULL : Nat := 0xf0090
abbrev Reg.CAP_HOST_LOST : Nat := 0xf0094
abbrev Reg.CAP_RECLAIMED : Nat := 0xf0098
/-! 15_line_sensor_mesh.md R432 -/
abbrev Reg.MSH_CTRL : Nat := 0x100000
abbrev Reg.MSH_STATUS : Nat := 0x100004
/-! 15_line_sensor_mesh.md R449 -/
abbrev Reg.MSH_CMD : Nat := 0x100010
abbrev Reg.MSH_CMD_CFG : Nat := 0x100014
abbrev Reg.MSH_CMD_STATUS : Nat := 0x100018
abbrev Reg.MSH_CMD_EXP : Nat := 0x10001c
/-! 15_line_sensor_mesh.md R430 -/
abbrev Reg.MSH_SPI : Nat := 0x100020
/-! 15_line_sensor_mesh.md R449 -/
abbrev Reg.MSH_CMDBUF (n : Nat) : Nat := 0x100040 + 0x4 * n
abbrev Reg.MSH_ABM (n : Nat) : Nat := 0x100080 + 0x4 * n
/-! 15_line_sensor_mesh.md R451 -/
abbrev Reg.MSH_CH_CFG (n : Nat) : Nat := 0x100100 + 0x40 * n
abbrev Reg.MSH_CH_SF (n : Nat) : Nat := 0x100104 + 0x40 * n
abbrev Reg.MSH_CH_SLOT (n : Nat) : Nat := 0x100108 + 0x40 * n
abbrev Reg.MSH_CH_TIMING (n : Nat) : Nat := 0x10010c + 0x40 * n
abbrev Reg.MSH_CH_LBT (n : Nat) : Nat := 0x100110 + 0x40 * n
abbrev Reg.MSH_CH_DUTY (n : Nat) : Nat := 0x100114 + 0x40 * n
abbrev Reg.MSH_CH_RESERVE (n : Nat) : Nat := 0x100118 + 0x40 * n
abbrev Reg.MSH_CH_WAKE (n : Nat) : Nat := 0x10011c + 0x40 * n
abbrev Reg.MSH_CH_LOST (n : Nat) : Nat := 0x100120 + 0x40 * n
abbrev Reg.MSH_CH_LAT (n : Nat) : Nat := 0x100124 + 0x40 * n
abbrev Reg.MSH_CH_TOKENS (n : Nat) : Nat := 0x100128 + 0x40 * n
abbrev Reg.MSH_CH_SFNUM (n : Nat) : Nat := 0x10012c + 0x40 * n
/-! 15_line_sensor_mesh.md R435 -/
abbrev Reg.MSH_RX_BAD : Nat := 0x100300
abbrev Reg.MSH_RX_FOREIGN : Nat := 0x100304
abbrev Reg.MSH_ECHO : Nat := 0x100308
abbrev Reg.MSH_SEEN_DUP : Nat := 0x10030c
abbrev Reg.MSH_SEEN_EVICT : Nat := 0x100310
abbrev Reg.MSH_REPEAT : Nat := 0x100314
abbrev Reg.MSH_STALE : Nat := 0x100318
abbrev Reg.MSH_NOSTREAM : Nat := 0x10031c
abbrev Reg.MSH_ACK_DROP : Nat := 0x100320
abbrev Reg.MSH_LBT_DEFER : Nat := 0x100324
abbrev Reg.MSH_BCN_SKIP : Nat := 0x100328
abbrev Reg.MSH_WAKE_QFULL : Nat := 0x10032c
abbrev Reg.MSH_WAKES : Nat := 0x100330
abbrev Reg.MSH_RX_FRAMES : Nat := 0x100334
/-! 16_twin_redundancy.md R463 -/
abbrev Reg.TWN_CTRL : Nat := 0x110000
abbrev Reg.TWN_STATUS : Nat := 0x110004
abbrev Reg.TWN_CFG : Nat := 0x110008
abbrev Reg.TWN_CFG2 : Nat := 0x11000c
abbrev Reg.TWN_MAC_LO : Nat := 0x110010
abbrev Reg.TWN_MAC_HI : Nat := 0x110014
abbrev Reg.TWN_BCN_DST_LO : Nat := 0x110018
abbrev Reg.TWN_BCN_DST_HI : Nat := 0x11001c
abbrev Reg.TWN_BCN_CFG : Nat := 0x110020
abbrev Reg.TWN_HEALTH : Nat := 0x110024
abbrev Reg.TWN_PEER_HEALTH : Nat := 0x110028
abbrev Reg.TWN_COPY_SEQ_LO : Nat := 0x110030
abbrev Reg.TWN_COPY_SEQ_HI : Nat := 0x110034
abbrev Reg.TWN_COPY_EPOCH_LO : Nat := 0x110038
abbrev Reg.TWN_COPY_EPOCH_HI : Nat := 0x11003c
abbrev Reg.TWN_UNLOCK : Nat := 0x110040
abbrev Reg.TWN_KEY_SLOT : Nat := 0x110044
/-! 16_twin_redundancy.md R469 -/
abbrev Reg.TWN_COPIES_SENT : Nat := 0x110080
abbrev Reg.TWN_COPIES_APPLIED : Nat := 0x110084
abbrev Reg.TWN_COPY_FAIL : Nat := 0x110088
abbrev Reg.TWN_COPY_SKIP : Nat := 0x11008c
abbrev Reg.TWN_SECT_SKIP : Nat := 0x110090
abbrev Reg.TWN_REPLAY_LOST : Nat := 0x110094
abbrev Reg.TWN_LINK_RESTART : Nat := 0x110098
abbrev Reg.TWN_AUTH_FAIL : Nat := 0x11009c
abbrev Reg.TWN_BCN_BAD : Nat := 0x1100a0
abbrev Reg.TWN_HB_MISSED : Nat := 0x1100a4
abbrev Reg.TWN_ROLE_CHANGES : Nat := 0x1100a8
/-! 17_keys_security.md R492 -/
abbrev Reg.KEY_STATUS : Nat := 0x120000
abbrev Reg.KEY_TAMPER_RTC_LO : Nat := 0x120008
abbrev Reg.KEY_TAMPER_RTC_HI : Nat := 0x12000c
abbrev Reg.KEY_CMD_SEQ_LO : Nat := 0x120010
abbrev Reg.KEY_CMD_SEQ_HI : Nat := 0x120014
abbrev Reg.KEY_SEC_MIN : Nat := 0x120018
abbrev Reg.KEY_ZCOUNT : Nat := 0x12001c
/-! 17_keys_security.md R487 -/
abbrev Reg.KEY_CMD_OK : Nat := 0x120080
abbrev Reg.KEY_CMD_REJ : Nat := 0x120084
abbrev Reg.KEY_SIG_FAIL : Nat := 0x120088
abbrev Reg.KEY_REPEAT : Nat := 0x12008c
abbrev Reg.KEY_DRAINS : Nat := 0x120090
abbrev Reg.KEY_FAULTS : Nat := 0x120094
/-! 18_nonvolatile_drill_log.md R505 -/
abbrev Reg.NVS_STATUS : Nat := 0x130000
abbrev Reg.NVS_SEQ (n : Nat) : Nat := 0x130010 + 0x4 * n
abbrev Reg.NVS_LOG_COUNT : Nat := 0x130040
abbrev Reg.NVS_LOG_GEN : Nat := 0x130044
abbrev Reg.NVS_LOG_DROPPED : Nat := 0x130048
/-! 18_nonvolatile_drill_log.md R508 -/
abbrev Reg.NVS_LOG_CUR : Nat := 0x130050
abbrev Reg.NVS_LOG_RDSTAT : Nat := 0x130054
abbrev Reg.NVS_LOG_RD (n : Nat) : Nat := 0x130060 + 0x4 * n
abbrev Reg.NVS_BANK_WRITES : Nat := 0x1300c0
abbrev Reg.NVS_BANK_FAIL : Nat := 0x1300c4
abbrev Reg.NVS_LOG_RETRY : Nat := 0x1300c8
abbrev Reg.NVS_LOG_QDROP : Nat := 0x1300cc
abbrev Reg.NVS_NOR_HOSTWR : Nat := 0x1300d0
/-! 18_nonvolatile_drill_log.md R512 -/
abbrev Reg.NVS_NOR_OP : Nat := 0x130300
abbrev Reg.NVS_NOR_ADDR : Nat := 0x130304
abbrev Reg.NVS_NOR_LEN : Nat := 0x130308
abbrev Reg.NVS_NOR_BUF_LO : Nat := 0x13030c
abbrev Reg.NVS_NOR_BUF_HI : Nat := 0x130310
abbrev Reg.NVS_NOR_TMO : Nat := 0x130314
/-! 11_host_dma_chutes_compression.md R364 -/
abbrev Reg.CMP_CTRL : Nat := 0x140000
abbrev Reg.CMP_STATUS : Nat := 0x140004
abbrev Reg.CMP_JOBS : Nat := 0x140040
abbrev Reg.CMP_DSTFULL_CNT : Nat := 0x140044
abbrev Reg.CMP_NOGAIN_CNT : Nat := 0x140048
abbrev Reg.CMP_ERR_CNT : Nat := 0x14004c
abbrev Reg.CMP_IN_KIB : Nat := 0x140050
/-! Index registers of the windows. -/
/-- 03_time_base.md R103 -/
abbrev Win.TIME_CMP : Nat := 0x20100
/-- 04_ingest_streams.md R116 -/
abbrev Win.ING_ST : Nat := 0x40100
/-- 04_ingest_streams.md R119 -/
abbrev Win.ING_DIR : Nat := 0x40140
/-- 04_ingest_streams.md R132 -/
abbrev Win.ING_SH : Nat := 0x40180
/-- 04_ingest_streams.md R130 -/
abbrev Win.ING_RSC : Nat := 0x40240
/-- 06_speculation.md R173 -/
abbrev Win.SPC_CH : Nat := 0x70100
/-- 07_suesk_programming_model.md R235 -/
abbrev Win.SSK_CK : Nat := 0x80100
/-- 07_suesk_programming_model.md R218 -/
abbrev Win.SSK_KT : Nat := 0x80200
/-- 07_suesk_programming_model.md R232 -/
abbrev Win.SSK_KS : Nat := 0x80240
/-- 09_detectors_alarms.md R293 -/
abbrev Win.DET_OSC : Nat := 0xa0100
/-- 09_detectors_alarms.md R285 -/
abbrev Win.DET_SIG : Nat := 0xa0140
/-- 09_detectors_alarms.md R289 -/
abbrev Win.DET_BAND : Nat := 0xa0160
/-- 09_detectors_alarms.md R294 -/
abbrev Win.DET_MODE : Nat := 0xa0180
/-- 09_detectors_alarms.md R294 -/
abbrev Win.DET_SHP : Nat := 0xa01c0
/-- 09_detectors_alarms.md R295 -/
abbrev Win.DET_GRP : Nat := 0xa0220
/-- 09_detectors_alarms.md R295 -/
abbrev Win.DET_MEM : Nat := 0xa0230
/-- 09_detectors_alarms.md R304 -/
abbrev Win.DET_GS_STR : Nat := 0xa0420
/-- 10_output_sessions.md R310 -/
abbrev Win.OUT_SESS : Nat := 0xb0100
/-- 10_output_sessions.md R329 -/
abbrev Win.OUT_SX : Nat := 0xb0140
/-- 10_output_sessions.md R317 -/
abbrev Win.OUT_BLK : Nat := 0xb0180
/-- 10_output_sessions.md R321 -/
abbrev Win.OUT_NM : Nat := 0xb01c0
/-- 10_output_sessions.md R323 -/
abbrev Win.OUT_SV : Nat := 0xb0200
/-- 10_output_sessions.md R322 -/
abbrev Win.OUT_SS : Nat := 0xb0240
/-- 12_local_front_end.md R377 -/
abbrev Win.AFE_CH : Nat := 0xd0100
/-- 12_local_front_end.md R372 -/
abbrev Win.AFE_FIR : Nat := 0xd0140
/-- 12_local_front_end.md R388 -/
abbrev Win.AFE_RSC : Nat := 0xd0180
/-- 12_local_front_end.md R376 -/
abbrev Win.AFE_MX : Nat := 0xd01c0
/-- 12_local_front_end.md R382 -/
abbrev Win.AFE_PHS : Nat := 0xd0200
/-- 12_local_front_end.md R386 -/
abbrev Win.AFE_DIN : Nat := 0xd0220
/-- 13_energy_metering.md R389 -/
abbrev Win.NRG_CIR : Nat := 0xe0100
/-- 13_energy_metering.md R391 -/
abbrev Win.NRG_CAL : Nat := 0xe0140
/-- 13_energy_metering.md R396 -/
abbrev Win.NRG_ACC : Nat := 0xe0180
/-- 13_energy_metering.md R399 -/
abbrev Win.NRG_H : Nat := 0xe01c0
/-- 13_energy_metering.md R398 -/
abbrev Win.NRG_IR : Nat := 0xe0200
/-- 13_energy_metering.md R405 -/
abbrev Win.NRG_PLS : Nat := 0xe0240
/-- 14_capture.md R418 -/
abbrev Win.CAP_CH : Nat := 0xf0100
/-- 14_capture.md R408 -/
abbrev Win.CAP_TH : Nat := 0xf0140
/-- 14_capture.md R407 -/
abbrev Win.CAP_IN : Nat := 0xf0180
/-- 14_capture.md R410 -/
abbrev Win.CAP_TAP : Nat := 0xf01c0
/-- 14_capture.md R413 -/
abbrev Win.CAP_SQ : Nat := 0xf0200
/-- 14_capture.md R412 -/
abbrev Win.CAP_TR : Nat := 0xf0240
/-- 14_capture.md R423 -/
abbrev Win.CAP_RD : Nat := 0xf0280
/-- 15_line_sensor_mesh.md R452 -/
abbrev Win.MSH_NODE : Nat := 0x100200
/-- 15_line_sensor_mesh.md R437 -/
abbrev Win.MSH_NS : Nat := 0x100240
/-- 17_keys_security.md R477 -/
abbrev Win.KEY_PUB : Nat := 0x120100
/-- 17_keys_security.md R480 -/
abbrev Win.KEY_SLOT : Nat := 0x120140
/-- 18_nonvolatile_drill_log.md R475 -/
abbrev Win.NVS_BK : Nat := 0x130200
/-- 19_electrical_package.md R529 -/
abbrev Win.PWR_DOM : Nat := 0x10100
/-- ETH_CFG of port n (04_ingest_streams.md R108). -/
abbrev Reg.ETH_CFG (n : Nat) : Nat := 0x30000 + 0x4000 * n
/-- The registers of region 0x0 of BAR0. -/
def rowsSys : List RegRow := [
  ⟨0x40, 4, 1, 0x0, 0x0, 0x0, 0x0⟩,
  ⟨0x0, 4, 1, 0x7a192001, 0x0, 0x0, 0x0⟩,
  ⟨0x4, 4, 1, 0x1, 0x0, 0x0, 0x0⟩,
  ⟨0x8, 4, 1, 0x100, 0x0, 0x0, 0x0⟩,
  ⟨0xc, 4, 1, 0x0, 0x0, 0x0, 0x0⟩,
  ⟨0x10, 4, 1, 0x0, 0x0, 0xf1d, 0x0⟩,
  ⟨0x100, 4, 1, 0x0, 0x100, 0x0, 0x0⟩,
  ⟨0x104, 4, 1, 0x0, 0xffffffff, 0x0, 0x0⟩,
  ⟨0x108, 4, 1, 0x0, 0xffffffff, 0x0, 0x0⟩,
  ⟨0x10c, 4, 1, 0x0, 0x0, 0x300, 0x0⟩,
  ⟨0x110, 4, 1, 0x0, 0x0, 0x0, 0x0⟩,
  ⟨0x200, 4, 1, 0x0, 0xffffffff, 0x0, 0x0⟩,
  ⟨0x204, 4, 1, 0x0, 0x1ff, 0x0, 0x0⟩,
  ⟨0x208, 4, 1, 0x0, 0x0, 0x0, 0x0⟩,
  ⟨0x20c, 4, 1, 0x0, 0x0, 0x80000000, 0x0⟩]

/-- The registers of region 0x1 of BAR0. -/
def rowsPwr : List RegRow := [
  ⟨0x10000, 4, 1, 0x0, 0x0, 0x800, 0x0⟩,
  ⟨0x10004, 4, 1, 0x28, 0x3f, 0x0, 0x0⟩,
  ⟨0x10008, 4, 1, 0x0, 0x0, 0x0, 0x0⟩,
  ⟨0x10040, 4, 1, 0x0, 0x0, 0x0, 0xffffffff⟩,
  ⟨0x10044, 4, 1, 0x0, 0x0, 0x0, 0xffffffff⟩,
  ⟨0x10048, 4, 1, 0x0, 0x0, 0x0, 0xffffffff⟩,
  ⟨0x1004c, 4, 1, 0x0, 0x0, 0x0, 0xffffffff⟩]

/-- The registers of region 0x2 of BAR0. -/
def rowsTime : List RegRow := [
  ⟨0x20000, 4, 1, 0x0, 0xf0000c8f, 0x0, 0x0⟩,
  ⟨0x20004, 4, 1, 0x0, 0x0, 0x107, 0x0⟩,
  ⟨0x20010, 4, 1, 0x0, 0x0, 0x0, 0x0⟩,
  ⟨0x20014, 4, 1, 0x0, 0x0, 0x0, 0x0⟩,
  ⟨0x20018, 4, 1, 0x0, 0x0, 0x0, 0x0⟩,
  ⟨0x2001c, 4, 1, 0x0, 0x0, 0x0, 0x0⟩,
  ⟨0x20020, 4, 1, 0x0, 0xffffffff, 0x0, 0x0⟩,
  ⟨0x20024, 4, 1, 0x20000, 0xffffff, 0x0, 0x0⟩,
  ⟨0x20028, 4, 1, 0x0, 0xffffffff, 0x0, 0x0⟩,
  ⟨0x2002c, 4, 1, 0x0, 0xffffffff, 0x0, 0x0⟩,
  ⟨0x20030, 4, 1, 0x2710, 0xffffffff, 0x0, 0x0⟩,
  ⟨0x20034, 4, 1, 0x0, 0x0, 0x0, 0x0⟩,
  ⟨0x20038, 4, 1, 0x0, 0x0, 0x0, 0xffffffff⟩,
  ⟨0x20040, 4, 1, 0x0, 0x3ffff, 0x0, 0x0⟩,
  ⟨0x20044, 4, 1, 0x0, 0xffffffff, 0x0, 0x0⟩,
  ⟨0x20048, 4, 1, 0x0, 0xffffffff, 0x0, 0x0⟩,
  ⟨0x20050, 4, 1, 0xbb8, 0xffffffff, 0x0, 0x0⟩,
  ⟨0x20060, 4, 1, 0x0, 0x0, 0x0, 0x0⟩,
  ⟨0x20064, 4, 1, 0x0, 0x0, 0x0, 0x0⟩,
  ⟨0x20068, 4, 1, 0x0, 0x0, 0x0, 0x0⟩,
  ⟨0x20070, 4, 1, 0x0, 0x0, 0x0, 0x0⟩,
  ⟨0x20080, 4, 1, 0x64, 0x8fff03ff, 0x0, 0x0⟩,
  ⟨0x20090, 4, 4, 0x0, 0xffffffff, 0x0, 0x0⟩,
  ⟨0x20120, 4, 1, 0x0, 0x0, 0xffffffff, 0x0⟩,
  ⟨0x20124, 4, 1, 0x0, 0x0, 0xffffffff, 0x0⟩,
  ⟨0x20200, 32, 4, 0x0, 0x0, 0x40000000, 0x0⟩,
  ⟨0x20204, 32, 4, 0x0, 0x0, 0x0, 0x0⟩,
  ⟨0x20208, 32, 4, 0x0, 0x0, 0x0, 0x0⟩,
  ⟨0x2020c, 32, 4, 0x0, 0x0, 0x0, 0x0⟩,
  ⟨0x20210, 32, 4, 0x0, 0x0, 0x0, 0x0⟩]

/-- The registers of region 0x3 of BAR0. -/
def rowsEth : List RegRow := [
  ⟨0x30000, 4, 1, 0x8002400, 0xfe003fff, 0x0, 0x0⟩,
  ⟨0x34000, 4, 1, 0x8002400, 0xf6003fff, 0x0, 0x0⟩,
  ⟨0x38000, 4, 1, 0x2400, 0xf6003fff, 0x0, 0x0⟩,
  ⟨0x3c000, 4, 1, 0x2400, 0xf6003fff, 0x0, 0x0⟩,
  ⟨0x30008, 16384, 4, 0x661269, 0xffffffff, 0x0, 0x0⟩,
  ⟨0x30100, 16384, 4, 0x0, 0x0, 0x0, 0xffffffff⟩,
  ⟨0x30104, 16384, 4, 0x0, 0x0, 0x0, 0xffffffff⟩,
  ⟨0x30108, 16384, 4, 0x0, 0x0, 0x0, 0xffffffff⟩,
  ⟨0x3010c, 16384, 4, 0x0, 0x0, 0x0, 0xffffffff⟩,
  ⟨0x30110, 16384, 4, 0x0, 0x0, 0x0, 0xffffffff⟩,
  ⟨0x30114, 16384, 4, 0x0, 0x0, 0x0, 0xffffffff⟩,
  ⟨0x30118, 16384, 4, 0x0, 0x0, 0x0, 0xffffffff⟩,
  ⟨0x3011c, 16384, 4, 0x0, 0x0, 0x0, 0xffffffff⟩]

/-- The registers of region 0x4 of BAR0. -/
def rowsIng : List RegRow := [
  ⟨0x40000, 4, 1, 0x0, 0x1, 0x0, 0x0⟩,
  ⟨0x40008, 4, 1, 0xa, 0xffffffff, 0x0, 0x0⟩,
  ⟨0x40010, 4, 1, 0xf4240, 0xffffff, 0x0, 0x0⟩,
  ⟨0x40014, 4, 1, 0x989680, 0xffffff, 0x0, 0x0⟩,
  ⟨0x40018, 4, 1, 0xffffff, 0xffffff, 0x0, 0x0⟩,
  ⟨0x4001c, 4, 1, 0x186a0, 0xffffff, 0x0, 0x0⟩,
  ⟨0x40020, 4, 1, 0x0, 0x0, 0x0, 0xffffffff⟩,
  ⟨0x40024, 4, 1, 0x0, 0x0, 0x0, 0xffffffff⟩,
  ⟨0x40028, 4, 1, 0x0, 0x0, 0x0, 0xffffffff⟩,
  ⟨0x4002c, 4, 1, 0x0, 0x0, 0x0, 0xffffffff⟩,
  ⟨0x401a4, 4, 1, 0x0, 0x0, 0x0, 0x0⟩,
  ⟨0x40200, 4, 1, 0x0, 0x1, 0x0, 0x0⟩,
  ⟨0x40204, 4, 1, 0x1, 0x0, 0x2, 0x0⟩,
  ⟨0x40210, 4, 8, 0x0, 0xf, 0x0, 0x0⟩]

/-- The registers of region 0x6 of BAR0. -/
def rowsAln : List RegRow := [
  ⟨0x60000, 4, 1, 0x0, 0x3, 0x0, 0x0⟩,
  ⟨0x60004, 4, 1, 0x6, 0xf, 0x0, 0x0⟩,
  ⟨0x60008, 4, 1, 0x61a80, 0x3fffff, 0x0, 0x0⟩,
  ⟨0x6000c, 4, 1, 0x61a80, 0x0, 0x0, 0x0⟩,
  ⟨0x60010, 4, 1, 0xf, 0xff, 0x0, 0x0⟩,
  ⟨0x60018, 4, 1, 0x0, 0x0, 0x0, 0x0⟩,
  ⟨0x6001c, 4, 1, 0x0, 0x0, 0x0, 0x0⟩,
  ⟨0x60020, 4, 4, 0x0, 0x0, 0x0, 0x0⟩,
  ⟨0x60040, 4, 1, 0x0, 0x0, 0x0, 0xffffffff⟩,
  ⟨0x60044, 4, 1, 0x0, 0x0, 0x0, 0xffffffff⟩,
  ⟨0x60048, 4, 1, 0x0, 0x0, 0x0, 0xffffffff⟩,
  ⟨0x6004c, 4, 1, 0x0, 0x0, 0x0, 0xffffffff⟩,
  ⟨0x60050, 4, 1, 0x0, 0x0, 0x0, 0xffffffff⟩,
  ⟨0x60054, 4, 1, 0x0, 0x0, 0x0, 0xffffffff⟩,
  ⟨0x60058, 4, 1, 0x0, 0x0, 0x0, 0xffffffff⟩,
  ⟨0x6005c, 4, 1, 0x0, 0x0, 0x0, 0xffffffff⟩,
  ⟨0x60060, 4, 1, 0x0, 0x0, 0x0, 0xffffffff⟩,
  ⟨0x60064, 4, 1, 0x0, 0x0, 0x0, 0xffffffff⟩,
  ⟨0x60068, 4, 1, 0x0, 0x0, 0x0, 0xffffffff⟩]

/-- The registers of region 0x7 of BAR0. -/
def rowsSpc : List RegRow := [
  ⟨0x70000, 4, 1, 0x3c00, 0xff00, 0x0, 0x0⟩,
  ⟨0x70004, 4, 1, 0xea60, 0x3fffff, 0x0, 0x0⟩,
  ⟨0x70008, 4, 1, 0xea60, 0x0, 0x0, 0x0⟩,
  ⟨0x7000c, 4, 1, 0x400, 0xffff, 0x0, 0x0⟩,
  ⟨0x70010, 4, 1, 0x400, 0x0, 0x0, 0x0⟩,
  ⟨0x70014, 4, 1, 0x0, 0x0, 0x1, 0x0⟩,
  ⟨0x70020, 4, 1, 0x3a83126f, 0xffffffff, 0x0, 0x0⟩,
  ⟨0x70024, 4, 1, 0x3ba3d70a, 0xffffffff, 0x0, 0x0⟩,
  ⟨0x70028, 4, 1, 0x3b03126f, 0xffffffff, 0x0, 0x0⟩,
  ⟨0x7002c, 4, 1, 0x3d4ccccd, 0xffffffff, 0x0, 0x0⟩,
  ⟨0x70040, 4, 1, 0x0, 0x0, 0x0, 0xffffffff⟩,
  ⟨0x70044, 4, 1, 0x0, 0x0, 0x0, 0xffffffff⟩,
  ⟨0x70048, 4, 1, 0x0, 0x0, 0x0, 0xffffffff⟩,
  ⟨0x7004c, 4, 1, 0x0, 0x0, 0x0, 0xffffffff⟩,
  ⟨0x70050, 4, 1, 0x0, 0x0, 0x0, 0xffffffff⟩,
  ⟨0x70054, 4, 1, 0x0, 0x0, 0x0, 0xffffffff⟩,
  ⟨0x70058, 4, 1, 0x0, 0x0, 0x0, 0xffffffff⟩,
  ⟨0x7005c, 4, 1, 0x0, 0x0, 0x0, 0xffffffff⟩,
  ⟨0x70060, 4, 1, 0x0, 0x0, 0x0, 0xffffffff⟩,
  ⟨0x70120, 4, 1, 0x0, 0x0, 0x0, 0x0⟩]

/-- The registers of region 0x8 of BAR0. -/
def rowsSsk : List RegRow := [
  ⟨0x80000, 4, 1, 0x0, 0x0, 0x0, 0x0⟩,
  ⟨0x80004, 4, 1, 0x2, 0x0, 0x8, 0x0⟩,
  ⟨0x80008, 4, 1, 0x0, 0xffffffff, 0x0, 0x0⟩,
  ⟨0x8000c, 4, 1, 0x0, 0xffffffff, 0x0, 0x0⟩,
  ⟨0x80010, 4, 1, 0x0, 0x0, 0x0, 0x0⟩,
  ⟨0x80014, 4, 1, 0x0, 0x0, 0x0, 0x0⟩,
  ⟨0x80018, 4, 1, 0x0, 0x0, 0x0, 0x0⟩,
  ⟨0x8001c, 4, 1, 0x132, 0xf7f, 0x0, 0x0⟩,
  ⟨0x80020, 4, 1, 0x0, 0x0, 0x0, 0x0⟩,
  ⟨0x80040, 4, 8, 0x0, 0xfff0fff, 0x0, 0x0⟩,
  ⟨0x80080, 4, 1, 0x0, 0x0, 0x0, 0xffffffff⟩,
  ⟨0x80084, 4, 1, 0x0, 0x0, 0x0, 0xffffffff⟩,
  ⟨0x80088, 4, 1, 0x0, 0x0, 0x0, 0xffffffff⟩,
  ⟨0x8008c, 4, 1, 0x0, 0x0, 0x0, 0xffffffff⟩,
  ⟨0x80090, 4, 1, 0x0, 0x0, 0x0, 0xffffffff⟩,
  ⟨0x80094, 4, 1, 0x0, 0x0, 0x0, 0xffffffff⟩,
  ⟨0x80098, 4, 1, 0x0, 0x0, 0x0, 0xffffffff⟩,
  ⟨0x8009c, 4, 1, 0x0, 0x0, 0x0, 0xffffffff⟩]

/-- The registers of region 0xa of BAR0. -/
def rowsDet : List RegRow := [
  ⟨0xa0200, 4, 1, 0x0, 0xffc3ffff, 0x0, 0x0⟩,
  ⟨0xa0204, 4, 1, 0x3e4ccccd, 0xffffffff, 0x0, 0x0⟩,
  ⟨0xa0208, 4, 1, 0x3f860a92, 0xffffffff, 0x0, 0x0⟩,
  ⟨0xa020c, 4, 1, 0x3, 0xff, 0x0, 0x0⟩,
  ⟨0xa0300, 4, 1, 0x0, 0xffffffff, 0x0, 0x0⟩,
  ⟨0xa0304, 4, 1, 0x0, 0x0, 0x0, 0x0⟩,
  ⟨0xa0308, 4, 1, 0x0, 0x0, 0x0, 0x0⟩,
  ⟨0xa0340, 8, 16, 0x0, 0x0, 0x0, 0x0⟩,
  ⟨0xa0344, 8, 16, 0x0, 0x0, 0x0, 0x0⟩,
  ⟨0xa0400, 4, 1, 0x0, 0xffc00fff, 0x0, 0x0⟩,
  ⟨0xa0404, 4, 1, 0x3e80002, 0xffffffff, 0x0, 0x0⟩,
  ⟨0xa0408, 4, 1, 0x0, 0xffff, 0x0, 0x0⟩,
  ⟨0xa040c, 4, 1, 0x1, 0xffffffff, 0x0, 0x0⟩,
  ⟨0xa0410, 4, 1, 0x0, 0xffffffff, 0x0, 0x0⟩,
  ⟨0xa0414, 4, 1, 0x0, 0xffff, 0x0, 0x0⟩,
  ⟨0xa0418, 4, 1, 0x0, 0x0, 0x0, 0x0⟩,
  ⟨0xa041c, 4, 1, 0x0, 0x0, 0x0, 0x0⟩,
  ⟨0xa0500, 4, 1, 0x0, 0x0, 0x0, 0xffffffff⟩,
  ⟨0xa0504, 4, 1, 0x0, 0x0, 0x0, 0xffffffff⟩,
  ⟨0xa0508, 4, 1, 0x0, 0x0, 0x0, 0xffffffff⟩,
  ⟨0xa050c, 4, 1, 0x0, 0x0, 0x0, 0xffffffff⟩,
  ⟨0xa0510, 4, 1, 0x0, 0x0, 0x0, 0xffffffff⟩,
  ⟨0xa0514, 4, 1, 0x0, 0x0, 0x0, 0xffffffff⟩,
  ⟨0xa0518, 4, 1, 0x0, 0x0, 0x0, 0xffffffff⟩,
  ⟨0xa051c, 4, 1, 0x0, 0x0, 0x0, 0xffffffff⟩,
  ⟨0xa0520, 4, 1, 0x0, 0x0, 0x0, 0xffffffff⟩]

/-- The registers of region 0xb of BAR0. -/
def rowsOut : List RegRow := [
  ⟨0xb0004, 4, 1, 0xf4240, 0xffffff, 0x0, 0x0⟩,
  ⟨0xb0040, 4, 1, 0x0, 0x0, 0x0, 0xffffffff⟩,
  ⟨0xb0044, 4, 1, 0x0, 0x0, 0x0, 0xffffffff⟩,
  ⟨0xb0048, 4, 1, 0x0, 0x0, 0x0, 0xffffffff⟩,
  ⟨0xb004c, 4, 1, 0x0, 0x0, 0x0, 0xffffffff⟩,
  ⟨0xb0050, 4, 1, 0x0, 0x0, 0x0, 0xffffffff⟩,
  ⟨0xb0054, 4, 1, 0x0, 0x0, 0x0, 0xffffffff⟩,
  ⟨0xb0058, 4, 1, 0x0, 0x0, 0x0, 0xffffffff⟩,
  ⟨0xb005c, 4, 1, 0x0, 0x0, 0x0, 0xffffffff⟩]

/-- The registers of region 0xc of BAR0. -/
def rowsDma : List RegRow := [
  ⟨0xc0000, 4, 1, 0x0, 0x1, 0x0, 0x0⟩,
  ⟨0xc0100, 64, 16, 0x40000, 0x83ff0000, 0x0, 0x0⟩,
  ⟨0xc0104, 64, 16, 0x80000000, 0x0, 0x20000000, 0x0⟩,
  ⟨0xc0108, 64, 16, 0x0, 0xffffffff, 0x0, 0x0⟩,
  ⟨0xc010c, 64, 16, 0x0, 0xffffffff, 0x0, 0x0⟩,
  ⟨0xc0110, 64, 16, 0x0, 0xffffffff, 0x0, 0x0⟩,
  ⟨0xc0114, 64, 16, 0x0, 0xffffffff, 0x0, 0x0⟩,
  ⟨0xc0118, 64, 16, 0x0, 0xffff, 0x0, 0x0⟩,
  ⟨0xc011c, 64, 16, 0x0, 0x0, 0x0, 0x0⟩,
  ⟨0xc0120, 64, 16, 0x0, 0x0, 0x0, 0x0⟩,
  ⟨0xc0124, 64, 16, 0x0, 0xffff, 0x0, 0x0⟩,
  ⟨0xc0128, 64, 16, 0x1, 0xffffffff, 0x0, 0x0⟩,
  ⟨0xc012c, 64, 16, 0x0, 0x0, 0x0, 0xffffffff⟩,
  ⟨0xc0130, 64, 16, 0x0, 0x0, 0x0, 0xffffffff⟩,
  ⟨0xc0800, 64, 4, 0x0, 0x3f1, 0x0, 0x0⟩,
  ⟨0xc0804, 64, 4, 0x0, 0x0, 0xe0000000, 0x0⟩,
  ⟨0xc0808, 64, 4, 0x0, 0x0, 0x0, 0x0⟩,
  ⟨0xc080c, 64, 4, 0x0, 0x0, 0x0, 0x0⟩,
  ⟨0xc0810, 64, 4, 0x0, 0xffffffff, 0x0, 0x0⟩,
  ⟨0xc0814, 64, 4, 0x0, 0x0, 0x0, 0x0⟩,
  ⟨0xc0818, 64, 4, 0x0, 0x0, 0x0, 0x0⟩,
  ⟨0xc081c, 64, 4, 0x0, 0x0, 0x0, 0xffffffff⟩,
  ⟨0xc0820, 64, 4, 0x0, 0x0, 0x0, 0xffffffff⟩,
  ⟨0xc0824, 64, 4, 0x0, 0x0, 0x0, 0xffffffff⟩]

/-- The registers of region 0xd of BAR0. -/
def rowsAfe : List RegRow := [
  ⟨0xd0000, 4, 1, 0xa, 0x8000003f, 0x0, 0x0⟩,
  ⟨0xd0004, 4, 1, 0x0, 0x0, 0x1, 0x0⟩,
  ⟨0xd0010, 4, 1, 0x0, 0xff, 0x0, 0x0⟩,
  ⟨0xd0014, 4, 1, 0x0, 0x0, 0xff0000, 0x0⟩,
  ⟨0xd0020, 4, 1, 0x0, 0x11f, 0x0, 0x0⟩,
  ⟨0xd0024, 4, 1, 0x0, 0x0, 0x0, 0x0⟩,
  ⟨0xd0028, 4, 1, 0x0, 0xffffffff, 0x0, 0x0⟩,
  ⟨0xd002c, 4, 1, 0x0, 0x0, 0x0, 0x0⟩,
  ⟨0xd0030, 4, 1, 0x0, 0x0, 0x0, 0x0⟩,
  ⟨0xd0034, 4, 1, 0x0, 0x0, 0x0, 0x0⟩,
  ⟨0xd0038, 4, 1, 0x202, 0xf0f, 0x0, 0x0⟩,
  ⟨0xd0040, 4, 1, 0x0, 0x0, 0x0, 0x0⟩,
  ⟨0xd0044, 4, 1, 0x0, 0x3, 0x0, 0x0⟩,
  ⟨0xd0048, 4, 1, 0x0, 0x0, 0xffffff, 0x0⟩,
  ⟨0xd004c, 4, 1, 0x0, 0x0, 0x0, 0x0⟩,
  ⟨0xd0050, 4, 1, 0x0, 0x0, 0x40000000, 0x0⟩,
  ⟨0xd0054, 4, 1, 0x0, 0x0, 0x0, 0x0⟩,
  ⟨0xd0058, 4, 1, 0x0, 0x0, 0x0, 0x0⟩,
  ⟨0xd005c, 4, 1, 0x0, 0x0, 0x0, 0x0⟩,
  ⟨0xd0060, 4, 8, 0x7f, 0xff, 0x0, 0x0⟩,
  ⟨0xd0080, 4, 1, 0x0, 0x0, 0x0, 0xffffffff⟩,
  ⟨0xd0084, 4, 1, 0x0, 0x0, 0x0, 0xffffffff⟩,
  ⟨0xd0088, 4, 1, 0x0, 0x0, 0x0, 0xffffffff⟩,
  ⟨0xd008c, 4, 1, 0x0, 0x0, 0x0, 0xffffffff⟩,
  ⟨0xd0090, 4, 1, 0x0, 0x0, 0x0, 0xffffffff⟩,
  ⟨0xd0094, 4, 1, 0x0, 0x0, 0x0, 0xffffffff⟩]

/-- The registers of region 0xe of BAR0. -/
def rowsNrg : List RegRow := [
  ⟨0xe0000, 4, 1, 0x38400400, 0xfff0ff00, 0x0, 0x0⟩,
  ⟨0xe0004, 4, 1, 0x0, 0x0, 0x1, 0x0⟩,
  ⟨0xe0008, 4, 1, 0x0, 0x0, 0x0, 0x0⟩,
  ⟨0xe000c, 4, 1, 0x0, 0x0, 0x0, 0x0⟩,
  ⟨0xe0010, 4, 1, 0x0, 0x0, 0x0, 0x0⟩,
  ⟨0xe0014, 4, 1, 0x0, 0x0, 0x0, 0x0⟩,
  ⟨0xe0018, 4, 1, 0x0, 0x0, 0x0, 0x0⟩,
  ⟨0xe0080, 4, 1, 0x0, 0x0, 0x0, 0xffffffff⟩,
  ⟨0xe0084, 4, 1, 0x0, 0x0, 0x0, 0xffffffff⟩,
  ⟨0xe0088, 4, 1, 0x0, 0x0, 0x0, 0xffffffff⟩,
  ⟨0xe008c, 4, 1, 0x0, 0x0, 0x0, 0xffffffff⟩,
  ⟨0xe0090, 4, 1, 0x0, 0x0, 0x0, 0xffffffff⟩,
  ⟨0xe0094, 4, 1, 0x0, 0x0, 0x0, 0xffffffff⟩]

/-- The registers of region 0xf of BAR0. -/
def rowsCap : List RegRow := [
  ⟨0xf0000, 4, 1, 0x0, 0xe00f0000, 0x0, 0x0⟩,
  ⟨0xf0004, 4, 1, 0x0, 0x0, 0x100, 0x0⟩,
  ⟨0xf0008, 4, 1, 0x3e803e8, 0xffffffff, 0x0, 0x0⟩,
  ⟨0xf000c, 4, 1, 0x271003e8, 0xffffffff, 0x0, 0x0⟩,
  ⟨0xf0010, 4, 1, 0x0, 0x8000ffff, 0x0, 0x0⟩,
  ⟨0xf0014, 4, 1, 0x0, 0xffff, 0x0, 0x0⟩,
  ⟨0xf0020, 4, 1, 0x0, 0x0, 0x0, 0x0⟩,
  ⟨0xf0080, 4, 1, 0x0, 0x0, 0x0, 0xffffffff⟩,
  ⟨0xf0084, 4, 1, 0x0, 0x0, 0x0, 0xffffffff⟩,
  ⟨0xf0088, 4, 1, 0x0, 0x0, 0x0, 0xffffffff⟩,
  ⟨0xf008c, 4, 1, 0x0, 0x0, 0x0, 0xffffffff⟩,
  ⟨0xf0090, 4, 1, 0x0, 0x0, 0x0, 0xffffffff⟩,
  ⟨0xf0094, 4, 1, 0x0, 0x0, 0x0, 0xffffffff⟩,
  ⟨0xf0098, 4, 1, 0x0, 0x0, 0x0, 0xffffffff⟩]

/-- The registers of region 0x10 of BAR0. -/
def rowsMsh : List RegRow := [
  ⟨0x100000, 4, 1, 0x0, 0x3, 0x0, 0x0⟩,
  ⟨0x100004, 4, 1, 0x0, 0x0, 0x3c, 0x0⟩,
  ⟨0x100010, 4, 1, 0x0, 0x7fffffff, 0x0, 0x0⟩,
  ⟨0x100014, 4, 1, 0x802, 0xff0f, 0x0, 0x0⟩,
  ⟨0x100018, 4, 1, 0x0, 0x0, 0x0, 0x0⟩,
  ⟨0x10001c, 4, 1, 0x0, 0x0, 0x0, 0x0⟩,
  ⟨0x100020, 4, 1, 0x0, 0xffffffff, 0x0, 0x0⟩,
  ⟨0x100040, 4, 16, 0x0, 0xffffffff, 0x0, 0x0⟩,
  ⟨0x100080, 4, 32, 0x0, 0x0, 0x0, 0x0⟩,
  ⟨0x100100, 64, 2, 0x48300004, 0xfff0ffff, 0x0, 0x0⟩,
  ⟨0x100104, 64, 2, 0x3e82710, 0xffffffff, 0x0, 0x0⟩,
  ⟨0x100108, 64, 2, 0x1388, 0xffc0ffff, 0x0, 0x0⟩,
  ⟨0x10010c, 64, 2, 0x1f40000, 0xffffffff, 0x0, 0x0⟩,
  ⟨0x100110, 64, 2, 0xba0503b0, 0xfffffffc, 0x0, 0x0⟩,
  ⟨0x100114, 64, 2, 0x2b84000, 0xfffffc00, 0x0, 0x0⟩,
  ⟨0x100118, 64, 2, 0x30d40, 0xffffffff, 0x0, 0x0⟩,
  ⟨0x10011c, 64, 2, 0xb38d5832, 0xffffffff, 0x0, 0x0⟩,
  ⟨0x100120, 64, 2, 0xe10, 0xffff, 0x0, 0x0⟩,
  ⟨0x100124, 64, 2, 0x0, 0xffffffff, 0x0, 0x0⟩,
  ⟨0x100128, 64, 2, 0x0, 0x0, 0x0, 0x0⟩,
  ⟨0x10012c, 64, 2, 0x0, 0x0, 0x0, 0x0⟩,
  ⟨0x100300, 4, 1, 0x0, 0x0, 0x0, 0xffffffff⟩,
  ⟨0x100304, 4, 1, 0x0, 0x0, 0x0, 0xffffffff⟩,
  ⟨0x100308, 4, 1, 0x0, 0x0, 0x0, 0xffffffff⟩,
  ⟨0x10030c, 4, 1, 0x0, 0x0, 0x0, 0xffffffff⟩,
  ⟨0x100310, 4, 1, 0x0, 0x0, 0x0, 0xffffffff⟩,
  ⟨0x100314, 4, 1, 0x0, 0x0, 0x0, 0xffffffff⟩,
  ⟨0x100318, 4, 1, 0x0, 0x0, 0x0, 0xffffffff⟩,
  ⟨0x10031c, 4, 1, 0x0, 0x0, 0x0, 0xffffffff⟩,
  ⟨0x100320, 4, 1, 0x0, 0x0, 0x0, 0xffffffff⟩,
  ⟨0x100324, 4, 1, 0x0, 0x0, 0x0, 0xffffffff⟩,
  ⟨0x100328, 4, 1, 0x0, 0x0, 0x0, 0xffffffff⟩,
  ⟨0x10032c, 4, 1, 0x0, 0x0, 0x0, 0xffffffff⟩,
  ⟨0x100330, 4, 1, 0x0, 0x0, 0x0, 0xffffffff⟩,
  ⟨0x100334, 4, 1, 0x0, 0x0, 0x0, 0xffffffff⟩]

/-- The registers of region 0x11 of BAR0. -/
def rowsTwn : List RegRow := [
  ⟨0x110000, 4, 1, 0x0, 0xe0000000, 0x0, 0x0⟩,
  ⟨0x110004, 4, 1, 0x0, 0x0, 0x0, 0x0⟩,
  ⟨0x110008, 4, 1, 0x305003c, 0xffffffff, 0x0, 0x0⟩,
  ⟨0x11000c, 4, 1, 0x32, 0xffff, 0x0, 0x0⟩,
  ⟨0x110010, 4, 1, 0x0, 0xffffffff, 0x0, 0x0⟩,
  ⟨0x110014, 4, 1, 0x0, 0xffff, 0x0, 0x0⟩,
  ⟨0x110018, 4, 1, 0x0, 0xffffffff, 0x0, 0x0⟩,
  ⟨0x11001c, 4, 1, 0x0, 0xffff, 0x0, 0x0⟩,
  ⟨0x110020, 4, 1, 0x3000000, 0xff000fff, 0x0, 0x0⟩,
  ⟨0x110024, 4, 1, 0x0, 0x0, 0x0, 0x0⟩,
  ⟨0x110028, 4, 1, 0x0, 0x0, 0x0, 0x0⟩,
  ⟨0x110030, 4, 1, 0x0, 0x0, 0x0, 0x0⟩,
  ⟨0x110034, 4, 1, 0x0, 0x0, 0x0, 0x0⟩,
  ⟨0x110038, 4, 1, 0x0, 0x0, 0x0, 0x0⟩,
  ⟨0x11003c, 4, 1, 0x0, 0x0, 0x0, 0x0⟩,
  ⟨0x110040, 4, 1, 0x0, 0x0, 0x0, 0x0⟩,
  ⟨0x110044, 4, 1, 0x0, 0x1ff, 0x0, 0x0⟩,
  ⟨0x110080, 4, 1, 0x0, 0x0, 0x0, 0xffffffff⟩,
  ⟨0x110084, 4, 1, 0x0, 0x0, 0x0, 0xffffffff⟩,
  ⟨0x110088, 4, 1, 0x0, 0x0, 0x0, 0xffffffff⟩,
  ⟨0x11008c, 4, 1, 0x0, 0x0, 0x0, 0xffffffff⟩,
  ⟨0x110090, 4, 1, 0x0, 0x0, 0x0, 0xffffffff⟩,
  ⟨0x110094, 4, 1, 0x0, 0x0, 0x0, 0xffffffff⟩,
  ⟨0x110098, 4, 1, 0x0, 0x0, 0x0, 0xffffffff⟩,
  ⟨0x11009c, 4, 1, 0x0, 0x0, 0x0, 0xffffffff⟩,
  ⟨0x1100a0, 4, 1, 0x0, 0x0, 0x0, 0xffffffff⟩,
  ⟨0x1100a4, 4, 1, 0x0, 0x0, 0x0, 0xffffffff⟩,
  ⟨0x1100a8, 4, 1, 0x0, 0x0, 0x0, 0xffffffff⟩]

/-- The registers of region 0x12 of BAR0. -/
def rowsKey : List RegRow := [
  ⟨0x120000, 4, 1, 0x0, 0x0, 0xc, 0x0⟩,
  ⟨0x120008, 4, 1, 0x0, 0x0, 0x0, 0x0⟩,
  ⟨0x12000c, 4, 1, 0x0, 0x0, 0x0, 0x0⟩,
  ⟨0x120010, 4, 1, 0x0, 0x0, 0x0, 0x0⟩,
  ⟨0x120014, 4, 1, 0x0, 0x0, 0x0, 0x0⟩,
  ⟨0x120018, 4, 1, 0x0, 0x0, 0x0, 0x0⟩,
  ⟨0x12001c, 4, 1, 0x0, 0x0, 0x0, 0x0⟩,
  ⟨0x120080, 4, 1, 0x0, 0x0, 0x0, 0xffffffff⟩,
  ⟨0x120084, 4, 1, 0x0, 0x0, 0x0, 0xffffffff⟩,
  ⟨0x120088, 4, 1, 0x0, 0x0, 0x0, 0xffffffff⟩,
  ⟨0x12008c, 4, 1, 0x0, 0x0, 0x0, 0xffffffff⟩,
  ⟨0x120090, 4, 1, 0x0, 0x0, 0x0, 0xffffffff⟩,
  ⟨0x120094, 4, 1, 0x0, 0x0, 0x0, 0xffffffff⟩]

/-- The registers of region 0x13 of BAR0. -/
def rowsNvs : List RegRow := [
  ⟨0x130000, 4, 1, 0xc000, 0x0, 0x0, 0x0⟩,
  ⟨0x130010, 4, 6, 0x0, 0x0, 0x0, 0x0⟩,
  ⟨0x130040, 4, 1, 0x0, 0x0, 0x0, 0x0⟩,
  ⟨0x130044, 4, 1, 0x0, 0x0, 0x0, 0x0⟩,
  ⟨0x130048, 4, 1, 0x0, 0x0, 0x0, 0x0⟩,
  ⟨0x130050, 4, 1, 0x0, 0x80007fff, 0x0, 0x0⟩,
  ⟨0x130054, 4, 1, 0x0, 0x0, 0x0, 0x0⟩,
  ⟨0x130060, 4, 16, 0x0, 0x0, 0x0, 0x0⟩,
  ⟨0x1300c0, 4, 1, 0x0, 0x0, 0x0, 0xffffffff⟩,
  ⟨0x1300c4, 4, 1, 0x0, 0x0, 0x0, 0xffffffff⟩,
  ⟨0x1300c8, 4, 1, 0x0, 0x0, 0x0, 0xffffffff⟩,
  ⟨0x1300cc, 4, 1, 0x0, 0x0, 0x0, 0xffffffff⟩,
  ⟨0x1300d0, 4, 1, 0x0, 0x0, 0x0, 0xffffffff⟩,
  ⟨0x130300, 4, 1, 0x0, 0x100, 0x0, 0x0⟩,
  ⟨0x130304, 4, 1, 0x0, 0xffffffff, 0x0, 0x0⟩,
  ⟨0x130308, 4, 1, 0x0, 0xffffffff, 0x0, 0x0⟩,
  ⟨0x13030c, 4, 1, 0x0, 0xffffffff, 0x0, 0x0⟩,
  ⟨0x130310, 4, 1, 0x0, 0xffffffff, 0x0, 0x0⟩,
  ⟨0x130314, 4, 1, 0x7d0, 0xffffffff, 0x0, 0x0⟩]

/-- The registers of region 0x14 of BAR0. -/
def rowsCmp : List RegRow := [
  ⟨0x140000, 4, 1, 0x3, 0x7, 0x0, 0x0⟩,
  ⟨0x140004, 4, 1, 0x0, 0x0, 0x0, 0x0⟩,
  ⟨0x140040, 4, 1, 0x0, 0x0, 0x0, 0xffffffff⟩,
  ⟨0x140044, 4, 1, 0x0, 0x0, 0x0, 0xffffffff⟩,
  ⟨0x140048, 4, 1, 0x0, 0x0, 0x0, 0xffffffff⟩,
  ⟨0x14004c, 4, 1, 0x0, 0x0, 0x0, 0xffffffff⟩,
  ⟨0x140050, 4, 1, 0x0, 0x0, 0x0, 0xffffffff⟩]

/-- The registers of the 64 KiB region that an offset lies in. -/
def regionRows (region : Nat) : List RegRow :=
  match region with
  | 0 => rowsSys
  | 1 => rowsPwr
  | 2 => rowsTime
  | 3 => rowsEth
  | 4 => rowsIng
  | 6 => rowsAln
  | 7 => rowsSpc
  | 8 => rowsSsk
  | 10 => rowsDet
  | 11 => rowsOut
  | 12 => rowsDma
  | 13 => rowsAfe
  | 14 => rowsNrg
  | 15 => rowsCap
  | 16 => rowsMsh
  | 17 => rowsTwn
  | 18 => rowsKey
  | 19 => rowsNvs
  | 20 => rowsCmp
  | _ => []

/-- The windows of BAR0. -/
def winRows : List WinRow := [
  ⟨0x20100, 6, 64, .plain⟩,
  ⟨0x40100, 8, 8192, .trans⟩,
  ⟨0x40140, 2, 180224, .trans⟩,
  ⟨0x40180, 8, 8192, .readOnly⟩,
  ⟨0x40240, 8, 1024, .plain⟩,
  ⟨0x70100, 4, 180224, .readOnly⟩,
  ⟨0x80100, 8, 32768, .plain⟩,
  ⟨0x80200, 4, 128, .trans⟩,
  ⟨0x80240, 4, 128, .readOnly⟩,
  ⟨0xa0100, 8, 8, .trans⟩,
  ⟨0xa0140, 2, 4096, .trans⟩,
  ⟨0xa0160, 4, 128, .trans⟩,
  ⟨0xa0180, 8, 128, .readOnly⟩,
  ⟨0xa01c0, 2, 65536, .readOnly⟩,
  ⟨0xa0220, 1, 64, .trans⟩,
  ⟨0xa0230, 2, 16384, .trans⟩,
  ⟨0xa0420, 8, 6, .plain⟩,
  ⟨0xb0100, 8, 256, .trans⟩,
  ⟨0xb0140, 8, 256, .trans⟩,
  ⟨0xb0180, 3, 16384, .trans⟩,
  ⟨0xb01c0, 4, 65536, .trans⟩,
  ⟨0xb0200, 8, 1024, .trans⟩,
  ⟨0xb0240, 4, 256, .readOnly⟩,
  ⟨0xd0100, 4, 24, .plain⟩,
  ⟨0xd0140, 8, 128, .plain⟩,
  ⟨0xd0180, 8, 256, .plain⟩,
  ⟨0xd01c0, 8, 32, .plain⟩,
  ⟨0xd0200, 1, 56, .plain⟩,
  ⟨0xd0220, 1, 32, .plain⟩,
  ⟨0xe0100, 5, 8, .plain⟩,
  ⟨0xe0140, 5, 32, .plain⟩,
  ⟨0xe0180, 3, 128, .readOnly⟩,
  ⟨0xe01c0, 4, 2048, .readOnly⟩,
  ⟨0xe0200, 8, 32768, .readOnly⟩,
  ⟨0xe0240, 8, 16, .plain⟩,
  ⟨0xf0100, 4, 256, .trans⟩,
  ⟨0xf0140, 4, 64, .trans⟩,
  ⟨0xf0180, 1, 256, .trans⟩,
  ⟨0xf01c0, 2, 16, .trans⟩,
  ⟨0xf0200, 7, 8, .trans⟩,
  ⟨0xf0240, 2, 512, .trans⟩,
  ⟨0xf0280, 4, 256, .readOnly⟩,
  ⟨0x100200, 3, 1024, .plain⟩,
  ⟨0x100240, 4, 1024, .readOnly⟩,
  ⟨0x120100, 8, 10, .readOnly⟩,
  ⟨0x120140, 6, 512, .readOnly⟩,
  ⟨0x130200, 8, 24576, .readOnly⟩,
  ⟨0x10100, 2, 40, .plain⟩]

/-- The 64-bit quantities (01_architecture.md R37): offset of the low word, of the high word, stride and count. TIME_NOW has a rule
of its own (03_time_base.md R80), and so has CH_RD (11_host_dma_chutes_compression.md R354). -/
def wideRows : List (Nat × Nat × Nat × Nat) := [
  (0x104, 0x108, 4, 1),
  (0x20020, 0x20024, 4, 1),
  (0x20028, 0x2002c, 4, 1),
  (0x20044, 0x20048, 4, 1),
  (0x20060, 0x20064, 4, 1),
  (0x20120, 0x20124, 4, 1),
  (0x20204, 0x20208, 32, 4),
  (0x60018, 0x6001c, 4, 1),
  (0x80008, 0x8000c, 4, 1),
  (0x80010, 0x80014, 4, 1),
  (0xa0410, 0xa0414, 4, 1),
  (0xc0108, 0xc010c, 64, 16),
  (0xc0110, 0xc0114, 64, 16),
  (0xd0054, 0xd0058, 4, 1),
  (0xe0010, 0xe0014, 4, 1),
  (0x110010, 0x110014, 4, 1),
  (0x110018, 0x11001c, 4, 1),
  (0x110030, 0x110034, 4, 1),
  (0x110038, 0x11003c, 4, 1),
  (0x120008, 0x12000c, 4, 1),
  (0x120010, 0x120014, 4, 1),
  (0x13030c, 0x130310, 4, 1)]

/-- Does a row hold the offset? -/
def RegRow.holds (r : RegRow) (off : Nat) : Bool :=
  decide (r.base ≤ off) && decide ((off - r.base) % r.stride = 0) && decide ((off - r.base) / r.stride < r.count)

/-- The row of the register at an offset, if a plain register lies there. -/
def regRow? (off : Nat) : Option RegRow := (regionRows (off / 0x10000)).find? (fun r => r.holds off)

/-- The reset value of the word at an offset (the register descriptions; 0 for index registers of windows). -/
def resetWord (off : Nat) : Word :=
  match regRow? off with
  | some r => BitVec.ofNat 32 r.reset
  | none => 0

/-- The window whose index register lies at an offset. -/
def winAt? (off : Nat) : Option WinRow := winRows.find? (fun w => w.idx == off)

/-- The window one of whose data registers lies at an offset, and which one. -/
def winData? (off : Nat) : Option (WinRow × Nat) :=
  (winRows.find? (fun w => decide (w.idx < off) && decide (off ≤ w.idx + 4 * w.ndata) && (off - w.idx) % 4 == 0)).map
    (fun w => (w, (off - w.idx) / 4 - 1))

/-- The high word that a full read of a low word latches (R37). -/
def wideHi? (off : Nat) : Option Nat :=
  (wideRows.find? (fun (a, _, s, c) => decide (a ≤ off) && decide ((off - a) % s = 0) && decide ((off - a) / s < c))).map
    (fun (a, b, _, _) => off - a + b)

end Sys2Proof.Machine
end

