-- ==== Sys2Proof/Machine/State.lean ====
section
/-! DEFINITION. The state of the TY8192 as plain data, one structure per block, and the state after reset. A register's
fields, the status bits that hardware keeps among them, live in the register word itself (State.regs); every structure
holds what no register shows. INVENTORY.md lists each field with the rule that names it. -/

namespace Sys2Proof.Machine

/-- Why a run stops with a fault. -/
inductive Fault where
  /-- An access to an offset outside BAR0, or not a multiple of 4: the part has no such register and the host's bus carries no
  such access (01_architecture.md R32, R34). Raised by the register access commands. Safe: the model stops. -/
  | outsideBar
deriving DecidableEq, Repr

/-- Why a command has no meaning. -/
inductive Refusal where
  /-- The command has no meaning yet, by its mnemonic. Raised by Dispatch alone. Safe: the model stops. -/
  | notModelled (mnemonic : String)
deriving DecidableEq, Repr

/-- A window operation between its start and its completion (R38, R39): the window, whether it writes, the entry, the captured
staging words, the cycle in which it started. -/
structure WinOp where
  win : Nat
  write : Bool
  entry : Nat
  data : List Nat
  at_ : Nat
deriving DecidableEq, Repr

/-- Modes' and services' state that no register shows (02_modes_startup.md). -/
structure SysS where
  /-- lanes and units withdrawn, as in effect (R74, R75) -/
  oosLane : Nat
  oosUnit : Nat
  /-- lanes whose known-answer test failed (16 R459) -/
  laneFail : Nat
  /-- 0 NONE, 1 NATIVE, 2 LEGACY (R46) -/
  twinMode : Nat
  /-- ALN_RATE locked at the exit from BOOT (05 R170) -/
  rateLocked : Bool
  /-- cycles of the watchdog expiries of the last 60 s (08 R278) -/
  wdog : List Nat
  /-- health-test failures in this PROVISION (17 R477) -/
  entropyFails : Nat
  /-- cycles of the last self-test failure and the last ECC_UE (16 R459) -/
  selfFailAt : Option Nat
  eccUeAt : Option Nat
  /-- the step of BOOT that runs (R51) -/
  bootStep : Nat
  /-- 64-bit words found with an uncorrectable error and not written since: memory of item 0x0004 (1, 2, 5, 6), lane, word address (01 R18) -/
  ue : List (Nat × Nat × Nat)
deriving DecidableEq, Repr

/-- A compare slot (03_time_base.md R103 to R107): target or arming time (2^-48 ns), still to fire, carried into the past, the first cycle in
which its entry applies, armed on the wave, and the last passing that it fired at. -/
structure CmpSlot where
  tgt : Nat
  wait : Bool
  late : Bool
  since : Nat
  armed : Bool
  pass : Option Nat
deriving DecidableEq, Repr

/-- The time base's state that no register shows (03_time_base.md). -/
structure TimeS where
  /-- addend in use, 2^-48 ns per fabric cycle (R81) -/
  addend : Nat
  /-- cycle of the last unlock write with no TIME write since (R83) -/
  unlockAt : Option Nat
  /-- cycle of the last event of each reference, by SRC, and cycle at which SRC last changed (R102) -/
  refAt : List (Option Nat)
  srcAt : Nat
  /-- per port: transmit timestamps (message type, sequence, time) (R94) -/
  txts : List (List (Nat × Nat × Nat))
  cmp : List CmpSlot
  /-- first cycle in which a destination of compare actions is free again, by ACTION × 65,536 + ARG (R106) -/
  dest : Tab Nat
  /-- slots that another slot's command of the cycle has fired along, each with that cycle (R106, log 131) -/
  along : List (Nat × Nat)
  /-- previous IRIG frame's time (R98) -/
  irigPrev : Option Nat
  /-- leaps applied: the TAI second and whether inserted (R91) -/
  leaps : List (Nat × Bool)
  /-- last whole second pulsed on PPS_OUT, and the cycle at which the pulse ends (R100) -/
  ppsSec : Nat
  ppsEnd : Option Nat
  /-- the next blank to open is that of device time: 1 after a forward step (R89), 2 after R87 held the Lathe idle -/
  openNow : Nat
  /-- device time before and after the last forward step (R89) -/
  fwd : Option (Nat × Nat)
  /-- recent steps and changes of the addend, newest first: the cycle from which each acts, device time there without it, the addend before it (the
  model's own record of past device times, log 154) -/
  breaks : List (Nat × Nat × Nat)
  /-- the port that is PTP's time receiver (R95) -/
  ptpPort : Option Nat
  /-- the last accepted IRIG frame, and the device time of its on-time mark in ns (R97, R98) -/
  irig : Option (IrigFrame × Nat)
  /-- PTP messages that firmware has sent of its own, by port × 16 + messageType: the cycle of the last, how many (R95) -/
  ptpSent : Tab (Nat × Nat)
deriving DecidableEq, Repr

/-- An item of a chute (11_host_dma_chutes_compression.md R351): its words, header first, and its read priority. -/
structure Item where
  prio : Nat
  words : List Nat
deriving DecidableEq, Repr

/-- What a producer pushes: SRC_TYPE, SRC_ID, provisional blank, CODE, PRIO, the event's device time in ns, the payload. -/
structure ItemReq where
  srcType : Nat
  srcId : Nat
  prov : Option Nat
  code : Nat
  prio : Nat
  time : Nat
  payload : List Nat
deriving DecidableEq, Repr

/-- The lane, the work item (invocation and index) and the scalar register that a CHUT answers to. -/
structure ChutDest where
  lane : Nat
  item : Option (Nat × Nat)
  reg : Nat
deriving DecidableEq, Repr

/-- An admitted item on its way into a chute: the cycle of its start-of-item word, its place among the producers that wait (kind, cycle of the
request, SRC_ID, and CODE for a device item), and where a CHUT's answer stands (11 R351). -/
structure Coming where
  item : Item
  start : Nat
  kind : Nat
  asked : Nat
  id : Nat
  code : Nat
  dest : Option ChutDest
deriving DecidableEq, Repr

/-- A chute: complete items oldest first, the words left of the item being read, the register port's open item with the words it
still needs, writes the port still discards after a refusal, the last word popped (R351 to R359); items that hold the write port or wait for it, in
order, and those behind the register port's open item; the first cycle in which the port is free of a truncated item; the cycle in which the register
port's open item has the port; the cycle of the last flush. -/
structure Chute where
  items : List Item
  reading : List Nat
  port : Option (Item × Nat)
  portSkip : Nat
  last : Nat
  coming : List Coming
  behind : List Coming
  free : Nat
  portAt : Nat
  flushed : Option Nat
deriving DecidableEq, Repr

/-- An item refused in this cycle: its chute, what was asked, what REFUSED was, and whether the refusal sent the message of vector 31 (11 R352). -/
structure Refused where
  ch : Nat
  req : ItemReq
  dest : Option ChutDest
  was : Bool
  sent : Bool
deriving DecidableEq, Repr

/-- A record for a ring to the host: its RSEQ and its bytes (R342). -/
structure RingRec where
  rseq : Nat
  bytes : List Nat
deriving DecidableEq, Repr

/-- A descriptor ring's state that no register shows (R340 to R349). -/
structure RingS where
  /-- descriptors as posted, by index -/
  q : Tab Desc
  phase : Bool
  unsig : Nat
  firstUnsig : Nat
  armed : Bool
  /-- the record at the front has found no room -/
  tried : Bool
  /-- records ready for the ring -/
  waiting : List RingRec
  /-- a bus error has befallen the buffer of the next descriptor (R340) -/
  bufErr : Bool
deriving DecidableEq, Repr

/-- An answer in a ring's buffer that waits until the device can master the bus again (R337): ring, descriptor index, descriptor, bytes, CFLAGS above
PHASE, RESULT. -/
structure Owed where
  ring : Nat
  idx : Nat
  desc : Desc
  bytes : List Nat
  flags : Nat
  result : Nat
deriving DecidableEq, Repr

/-- The host interface (11). -/
structure DmaS where
  rings : List RingS
  msixMask : Nat
  msixPend : Nat
  /-- messages sent, by vector -/
  msixSent : Tab Nat
  /-- host memory as the device has written it (outside the part) -/
  hostMem : Memory
  linkUp : Bool
  bme : Bool
  d3hot : Bool
  /-- address and data words of the MSI-X table, at 4 × vector + word (01 R32) -/
  msixTab : Tab Nat
  /-- MSI-X Enable and Function Mask; Max Payload Size and Max Read Request Size, as PCIe codes them -/
  msixEn : Bool
  msixAll : Bool
  mps : Nat
  mrrs : Nat
  /-- first cycle in which configuration requests are accepted (R338) -/
  cfgAt : Nat
  owed : List Owed
deriving DecidableEq, Repr

/-- A compression job (R360, R361): queue (0 capture, 1 firmware, 2 host), input, destination length, destination (0 history
memory, 1 NOR, 2 host memory, 3 ring 4), destination address, LAST, JOB_TAG, ring-15 descriptor index and tag, parameters in range. -/
structure CmpJob where
  queue : Nat
  input : List Nat
  dstLen : Nat
  dst : Nat
  addr : Nat
  last : Bool
  tag : Nat
  desc : Nat × Nat
  paramOk : Bool
  irq : Bool
deriving DecidableEq, Repr

/-- What a host compression job ended with (R360, R364): outcome code, completion LEN, ORIG_CRC, COMP_LEN. -/
structure CmpOut where
  code : Nat
  len : Nat
  crc : Nat
  compLen : Nat
deriving DecidableEq, Repr

/-- A host compression job taken and not completed: descriptor index and tag, its IRQ flag, its outcome once known. -/
structure CmpTaken where
  desc : Nat × Nat
  irq : Bool
  out : Option CmpOut
deriving DecidableEq, Repr

/-- The compressors (11, Compression): queues of jobs, the job each engine runs, ring-15 results waiting for descriptor order. -/
structure CmpS where
  queues : List (List CmpJob)
  run : List (Option CmpJob)
  /-- host jobs taken and not completed, oldest first -/
  order : List CmpTaken
deriving DecidableEq, Repr

/-- A Drill Log record (18_nonvolatile_drill_log.md, Drill Log records). -/
structure LogRec where
  rseq : Nat
  sec : Nat
  ns : Nat
  gen : Nat
  code : Nat
  mode : Nat
  rflags : Nat
  payload : List Nat
deriving DecidableEq, Repr

/-- A bank write (R498): the kind, the bank, the sequence number, the payload, the next line (0 the zero header, then payload
lines, then the header), failures of that line, its class (0 LAST-GASP energy, 1 key-wrap, 2 configuration, 3 periodic energy), and a tag
naming who waits for it. -/
structure BankWr where
  kind : Nat
  bank : Nat
  seq : Nat
  payload : List Nat
  line : Nat
  fails : Nat
  cls : Nat
  who : Nat
deriving DecidableEq, Repr

/-- One NOR device (R510 to R512): contents and the operation that runs: OP, address, length, buffer address, start cycle. -/
structure NorS where
  present : Bool
  mem : Memory
  run : Option (Nat × Nat × Nat × Nat × Nat)
deriving DecidableEq, Repr

/-- The non-volatile store (18). -/
structure NvsS where
  /-- the 4 MiB store -/
  store : Memory
  /-- bank in use of each kind (R498) -/
  inUse : List Nat
  /-- bank writes, in order of request -/
  bw : List BankWr
  queue : List LogRec
  /-- failures of the line of the record at the head of the queue -/
  fails : Nat
  /-- FAULT_SLOT and time of the health block (R501) -/
  faultSlot : Nat
  faultSec : Nat
  faultNs : Nat
  nor : List NorS
deriving DecidableEq, Repr

/-- Level of a capture trigger input: 0 FALSE, 1 TRUE, 2 UNSURE; provisional blank; instant of the last change (14_capture.md R407). -/
structure CapLvl where
  lvl : Nat
  prov : Option Nat
  atT : Nat
deriving DecidableEq, Repr

/-- A capture event: cycle, input, instant in 2^-48 ns, the blank of its provisional flag. -/
structure CapEv where
  cyc : Nat
  input : Nat
  inst : Nat
  prov : Option Nat
deriving DecidableEq, Repr

/-- A threshold unit (R408, R409): armed, last value (instant, binary32), blank of the last fire, latest midpoint by epoch index. -/
structure ThrU where
  armed : Bool
  /-- armed below LEVEL -/
  low : Bool
  last : Option (Nat × Nat)
  fired : Option Nat
  mids : Tab Nat
deriving DecidableEq, Repr

/-- A sequencer (R412, R413): state, four counters, four timers as (0 IDLE, 1 RUNNING, 2 EXPIRED; end cycle). -/
structure SeqS where
  st : Nat
  cnt : List Nat
  tmr : List (Nat × Nat)
  /-- cycle of its last transition, and the event that FIRE makes in the next cycle -/
  lastCyc : Option Nat
deriving DecidableEq, Repr

/-- A shaving in the history (R418): device time in ns, channel, SFL, binary32 value. -/
structure Shaving where
  t : Nat
  chan : Nat
  sfl : Nat
  v : Nat
deriving DecidableEq, Repr

/-- A record of the capture engine, in progress or closed (R415 to R422). -/
structure CapRec where
  rseq : Nat
  trig : Nat
  input : Nat
  start : Nat
  preMs : Nat
  preUs : Nat
  spanEnd : Nat
  ext : Bool
  prov : Option Nat
  gap : Bool
  shortPre : Bool
  postCut : Bool
  trunc : Bool
  gen : Nat
  startCyc : Nat
  spanDone : Bool
  chans : List (Nat × List Nat)
  body : List Shaving
  /-- compressed blocks so far, by block number, of `nblk` -/
  blocks : Tab (List Nat)
  nblk : Nat
  host : Bool
deriving DecidableEq, Repr

/-- A record in the store (R423): RSEQ, first sector, sectors, trigger input, flags, body length. -/
structure CapDir where
  rseq : Nat
  first : Nat
  sectors : Nat
  input : Nat
  rflags : Nat
  bodyLen : Nat
deriving DecidableEq, Repr

/-- The capture engine (14). -/
structure CapS where
  lvl : Tab CapLvl
  evs : List CapEv
  thr : List ThrU
  seq : List SeqS
  cur : Option CapRec
  /-- device time at which REARM ends -/
  rearmAt : Nat
  hist : List Shaving
  histStart : Nat
  /-- last stored value of each channel: device time, value; and gap waiting to be marked -/
  lastV : Tab (Nat × Nat)
  gapCh : Nat
  gapAt : List Nat
  /-- value in force at the oldest entry -/
  base : Tab (Nat × Nat)
  staged : List CapRec
  /-- the record whose commit runs, with its first sector and sectors -/
  commit : Option (CapRec × Nat × Nat)
  dir : List CapDir
  /-- entries of R417 written and suppressed in this re-arm period -/
  suppN : Nat
  supp : Nat
  /-- entries of R417 waiting for the seal of a blank: blank, time, input, reason -/
  provLog : List (Nat × Nat × Nat × Nat)
  heldEn : Bool
  /-- shaving writer: the second and how many entries it has accepted in it -/
  rate : Nat × Nat
deriving DecidableEq, Repr

/-- Health of a stream (04_ingest_streams.md, Counters and stream health). -/
structure Health where
  frames : Nat
  repaired : Nat
  dup : Nat
  prpDup : Nat
  late : Nat
  future : Nat
  misalign : Nat
  authFail : Nat
  wrongPort : Nat
  fmtErr : Nat
  lastEpoch : Nat
  silent : Bool
  cfgchg : Bool
  dataErr : Bool
  syncErr : Bool
  lastOfs : Nat
deriving DecidableEq, Repr

/-- A block on its way into a blank (05_lathe_alignment.md R143): the stream, the epoch index its snapped time selects, the arrival
time and the judgement time (2^-48 ns), the STAT word, the phasors (real, imaginary, quality byte), frequency, ROCOF, analogs and digital
words as binary32 patterns and words, the LAN of a valid redundancy trailer, the parser (4 internal, 5 others), and what it is. -/
structure Block where
  stream : Nat
  epoch : Nat
  arrAt : Nat
  judge : Nat
  stat : Nat
  ph : List (Nat × Nat × Nat)
  freq : Nat
  rocof : Nat
  an : List Nat
  dg : List Nat
  lan : Option Nat
  port : Nat
  resampled : Bool
  held : Bool
  repaired : Bool
  early : Bool
deriving DecidableEq, Repr

/-- An input sample in a stream's tap history (R127, R129): its number n and the block. -/
structure Tap where
  n : Nat
  block : Block
deriving DecidableEq, Repr

/-- A resampled stream (R127 to R131): tap history, last computed output, blanks whose output has been produced, blanks whose output is
to be computed, each with the cycle for it. -/
structure Rsm where
  taps : List Tap
  last : Option Block
  done : List Nat
  due : List (Nat × Nat)
deriving DecidableEq, Repr

/-- What a frame in firmware's receive queue is: a PTP message by type and sequence number, or the content that a parser passed on. -/
inductive FwWhat where
  | ptp (msgType seqId : Nat)
  | frame (p : EthPayload)
deriving DecidableEq, Repr

/-- A frame in firmware's receive queue (R134; 03 R92): its bytes, port (4 the internal path), arrival time, and what it is. -/
structure FwFrame where
  len : Nat
  port : Nat
  arrAt : Nat
  what : FwWhat
deriving DecidableEq, Repr

/-- Ingest (04). -/
structure IngS where
  /-- by port: frames in the receive FIFO ahead of the parser, oldest first: the cycle at which the parser has taken each, its bytes (R111) -/
  rxFifo : List (List (Nat × Nat))
  health : Tab Health
  /-- per stream: the newest sealed blanks (at most 9) under a configuration that enables it, newest first, with arrived marks -/
  silWin : Tab (List (Nat × Bool))
  /-- the firmware receive queue, oldest first (R134) -/
  fwq : List FwFrame
  /-- cycles of the unknown-source offers of the last second, by port (R134) -/
  unk : List (List Nat)
  rs : Tab Rsm
  /-- RUN in effect (R130) -/
  rsRun : Bool
deriving DecidableEq, Repr

/-- A phasor slot (05_lathe_alignment.md R162). -/
structure PhSlot where
  re : Nat
  im : Nat
  ofs : Nat
  qual : Nat
  env : Nat
  flags : Nat
deriving DecidableEq, Repr

/-- A stream header entry (05 R166). -/
structure Hdr where
  stat : Nat
  ofs : Nat
  sflags : Nat
  seq : Nat
deriving DecidableEq, Repr

/-- A prediction of the fill (06_speculation.md R172, R173): class (0 SILENT, 1 COLD, 2 WARMING, 3 BOUNDED), value (real and
imaginary, or the scalar and 0), stored envelope, half-width, and whether the fill wrote it and nothing has replaced it. -/
structure Pred where
  cls : Nat
  re : Nat
  im : Nat
  env : Nat
  h : Nat
  written : Bool
deriving DecidableEq, Repr

/-- A blank in the ring (05). -/
structure Blank where
  epoch : Nat
  /-- 1 OPEN, 2 PROVISIONAL, 3 SEALED, 4 AMENDABLE -/
  state : Nat
  cause : Nat
  amendCount : Nat
  bflags : Nat
  timeGen : Nat
  provOfs : Nat
  sealOfs : Nat
  amendOfs : Nat
  expected : Nat
  arrExp : Nat
  arrAll : Nat
  lateArr : Nat
  predicted : Nat
  missing : Nat
  expectMap : Nat
  arrivedMap : Nat
  ph : Tab PhSlot
  hdr : Tab Hdr
  fr : Tab (Nat × Nat)
  an : Tab Nat
  dg : Tab Nat
  /-- scalar envelope area (06 R185): frequency of stream s at s, ROCOF at 8,192 + s, analog slot a at 16,384 + a -/
  env : Tab Nat
  /-- scalar entries lost to uncorrectable errors, by gather index, 1 each (01 R18) -/
  ecc : Tab Nat
  /-- first accepted block of each stream: data-error bits, LAN of its trailer or 2 for none, replaced already (04 R123) -/
  dup : Tab (Nat × Nat × Bool)
  specEn : Bool
  silentSkip : Bool
  amendMax : Nat
  preds : Tab Pred
  /-- start cycle of the fill in progress -/
  fillAt : Option Nat
  /-- entries that the fill has reached -/
  fillPos : Nat
  fillDone : Bool
  /-- channels that held a good value at the seal or have had one offered since (06 R175) -/
  offered : Tab Nat
  /-- misses not yet reported: count, first channel, largest excess (06 R198) -/
  missN : Nat
  missCh : Nat
  missX : Nat
  /-- a miss has been counted with an alarm asserted at its provisional point; such an alarm was asserted (06 R200) -/
  missed : Bool
  provAlarm : Bool
  /-- streams with a block that came too late for the blank's seal (04 R541) -/
  lateMap : Nat
  /-- detector evaluations due or running: unit (0 to 7, 8 the island unit), point (0 provisional, 1 seal, 2 amendment), cycle of the point -/
  dets : List (Nat × Nat × Nat)
  amendBusy : Bool
  /-- cycle of the latest evaluation point -/
  evalAt : Nat
  /-- cycle in which the last expected stream was written -/
  fullAt : Option Nat
  /-- sessions that have sent their frame of this blank, and those that send nothing for it (10 R320, R326) -/
  sent : List Nat
  mute : List Nat
deriving DecidableEq, Repr

/-- The Lathe (05). -/
structure AlnS where
  /-- 32 slots; none is FREE -/
  ring : List (Option Blank)
  newest : Option Nat
  earlyQ : List Block
  amendQ : List Block
deriving DecidableEq, Repr

/-- History of a channel (06, Channel history): LAST_SEEN, values (epoch, real, imaginary) older first, residuals oldest first, m, d,
misses, class at the last fill, seals until m is 1.0 again (06 R197). -/
structure Chan where
  lastSeen : Option Nat
  vals : List (Nat × Nat × Nat)
  res : List Nat
  m : Nat
  d : Nat
  miss : Nat
  cls : Nat
  left : Nat
deriving DecidableEq, Repr

/-- The speculation engine (06). -/
structure SpcS where
  chans : Tab Chan
  histClr : Bool
  /-- cycle at which the running history update or fill ends (R179) -/
  freeAt : Nat
  /-- it is a history update that runs -/
  updating : Bool
  /-- cycle of the last Drill Log miss record, and miss events suppressed since (R198) -/
  logAt : Option Nat
  suppressed : Nat
deriving DecidableEq, Repr

/-- An element of a vector register (07_suesk_programming_model.md R205): binary32 patterns. -/
structure VEl where
  re : Nat
  im : Nat
  env : Nat
deriving DecidableEq, Repr

/-- A gather outstanding (08_suesk_instructions.md R267 to R271): a flag gather or not, its destination, the blank it reads, and for each
destination element the governing predicate and the channel index. -/
structure Gath where
  isFlag : Bool
  dest : Nat
  epoch : Nat
  el : List (Nat × Nat)
deriving DecidableEq, Repr

/-- A Suesk processor: a lane or a management core (07 R204, 08 R277). -/
structure ProcS where
  /-- s1 to s31 -/
  s : Tab Nat
  /-- element e of v_r at 4 r + e -/
  v : Tab VEl
  /-- element e of k_r at 4 r + e: 0 FALSE, 1 TRUE, 2 UNSURE -/
  k : Tab Nat
  pc : Nat
  /-- work item: invocation and index (lanes) -/
  item : Option (Nat × Nat)
  /-- fabric cycle at which the work item started, or the core left reset -/
  start : Nat
  /-- gathers outstanding, oldest first -/
  gath : List Gath
  fault : Bool
  fltEntry : Nat
  fltPc : Nat
  fltCode : Nat
  fltAddr : Nat
  fltScratch : Nat
  wakeEn : Nat
  sig : Bool
  /-- cycle of the last watchdog restart -/
  wdogAt : Nat
  dozing : Bool
  /-- held in reset (cores, 02 BOOT) -/
  held : Bool
deriving DecidableEq, Repr

/-- An invocation of a kernel-table entry (07 R218, R219): entry, its words as in force, blank, point (0 ON_SPEC, 1 ON_SEAL, 2 ON_AMEND, 3
TIMED), amendment number, cycle of the evaluation point, chuck, items dispatched, items running, cut, an exception reported, and whether it is a
twin's re-run, which leaves only its STATE behind (16 R470). -/
structure Inv where
  id : Nat
  entry : Nat
  words : List Nat
  epoch : Nat
  point : Nat
  amend : Nat
  evalAt : Nat
  timeGen : Nat
  chuck : Nat
  sent : Nat
  running : Nat
  cut : Bool
  exc : Bool
  quiet : Bool
deriving DecidableEq, Repr

/-- Statistics of a kernel-table entry (07, SSK registers). -/
structure KStat where
  invokes : Nat
  cuts : Nat
  exc : Nat
  maxRun : Nat
  lastRun : Nat
  lastExc : Nat
deriving DecidableEq, Repr

/-- The Suesk processors, stores and kernel table (07, 08). -/
structure SskS where
  lanes : List ProcS
  cores : List ProcS
  /-- lane-local memories: what the lane's work item has written (07 R211, log 10) -/
  scratch : List Memory
  coreMem : List Memory
  chucks : List Memory
  /-- content states of chuck A and B: 0 EMPTY, 1 LOADING, 2 VERIFYING, 3 VERIFIED, 4 FAILED -/
  chuckSt : List Nat
  /-- invocations not ended, in the order of their making -/
  invs : List Inv
  nextInv : Nat
  stats : Tab KStat
  /-- result rings: records waiting for DMA, oldest first -/
  rings : List (List RingRec)
  /-- kernel-table entries with a parity error -/
  ktBad : List Nat
  /-- kernel-table entries that a commit has enabled (07 R220) -/
  ktSeen : List Nat
deriving DecidableEq, Repr


/-- A cell of a key slot (17_keys_security.md R480). -/
structure KeyCell where
  keyId : Nat
  kcv : Nat
  key : Nat
deriving DecidableEq, Repr

/-- A key slot (R480 to R484): state 0 EMPTY, 1 LIVE, 2 DRAINING; the live cell; usage bits; parent; GEN; the two cells; is the other cell
staged; the blank of a pending flip; an integrity failure. -/
structure KeySlot where
  st : Nat
  live : Nat
  usage : Nat
  parent : Option Nat
  gen : Nat
  cell0 : Option KeyCell
  cell1 : Option KeyCell
  staged : Bool
  flip : Option Nat
  fault : Bool
deriving DecidableEq, Repr

/-- An entry of the result cache (R485, R488). -/
structure KeyRes where
  seq : Nat
  code : Nat
  status : Nat
  pend : Bool
deriving DecidableEq, Repr

/-- The PAIR record (R493). -/
structure KeyPair where
  slot : Nat
  partner : Nat
  pub : Nat
deriving DecidableEq, Repr

/-- A signed command between its acceptance and its answer (R482, R489): the command, its descriptor's index and descriptor (none once a
Function Level Reset has abandoned it), and how many bank writes it still waits for. -/
structure KeyBusy where
  cmd : KeyCmd
  desc : Option (Nat × Desc)
  left : Nat
deriving DecidableEq, Repr

/-- Keys (17): the battery key, the root with its DONE flag, the slots, the owner key (X then Y), the result cache oldest first, PEND_ARG,
the pairing, the command being handled, and where PROVISION's bank writes stand. -/
structure KeyS where
  bbk : Option Nat
  root : Option Nat
  rootDone : Bool
  slots : Tab KeySlot
  owner : Option Nat
  cache : List KeyRes
  pendArg : List Nat
  pair : Option KeyPair
  busy : Option KeyBusy
  /-- latched events of R492 not yet logged: kind (0 tamper, 1 command), RTC stamp -/
  zevents : List (Nat × Nat)
  /-- PROVISION entered with an existing root (R477) -/
  existing : Bool
deriving DecidableEq, Repr

/-- The headers of a frame sent (10 R329, Session transport entry; 09 R304): source and destination MAC addresses, 802.1Q tag (priority, VLAN
identifier), source IP address and UDP source port. None where no rule gives it. -/
structure EthHead where
  src : Option Nat
  dst : Option Nat
  tag : Option (Nat × Nat)
  ip : Option Nat
  port : Option Nat
deriving DecidableEq, Repr

/-- Headers of which no rule gives anything. -/
def EthHead.bare : EthHead := ⟨none, none, none, none, none⟩

/-- A frame in a transmit queue (10 R314, 09 R307, 16): kind 0 data, 1 amended, 2 configuration, 3 header, 4 GOOSE, 5 beacon, 6 PTP (its
source is the messageType, its epoch the sequenceId); session or 0;
epoch index; amendment; PRP LAN and sequence number; destination address and UDP port; bytes on the wire; content. -/
structure TxFrame where
  kind : Nat
  src : Nat
  epoch : Nat
  amend : Nat
  prp : Option (Nat × Nat)
  dst : Nat × Nat
  size : Nat
  body : List Nat
  eth : EthHead
deriving DecidableEq, Repr

/-- A session's run-time state (10 R320 to R327): statistics, data state and a pending change of it, suspension, CFGCNT, the key cells used
(slot, GEN and epoch of the first use, newest first). -/
structure SessS where
  frames : Nat
  prov : Nat
  amended : Nat
  txDrop : Nat
  keyDrop : Nat
  dataOn : Bool
  want : Option Bool
  keyWait : Bool
  cfgcnt : Nat
  cells : List (Nat × Nat × Nat)
deriving DecidableEq, Repr

/-- The output engine (10): four transmit queues, the last frame begun on each port and how many were begun, the sessions. -/
structure OutS where
  tx : List (List TxFrame)
  last : List (Option TxFrame)
  begun : List Nat
  sess : Tab SessS
deriving DecidableEq, Repr

/-- What a band shows of its last committed step (09 R294): frequency, damping, amplitude, noise floor (binary32), committed point, STALE. -/
structure OscMode where
  freq : Nat
  zeta : Nat
  amp : Nat
  nf : Nat
  epoch : Nat
  stale : Bool
deriving DecidableEq, Repr

/-- An oscillation unit (09 R282 to R294). Points are binary32 patterns. -/
structure OscU where
  a : List Nat
  pm : List Nat
  /-- detrend mean and last sealed midpoint of each signal -/
  mu : Tab Nat
  held : Tab Nat
  nf : Nat
  /-- committed driving samples, newest first -/
  ys : List Nat
  steps : Nat
  everyRun : Nat
  /-- committed point -/
  c : Option Nat
  /-- driving sample of each ring blank at its most recent evaluation -/
  samp : Tab VEl
  /-- signals of blanks that are sealed and not committed, by epoch -/
  seals : Tab (List VEl)
  /-- midpoints of each signal over the newest committed blanks, newest first -/
  hist : Tab (List Nat)
  /-- outcome records, band × 32 + slot: 0 NONE, 1 TRUE, 2 FALSE, 3 UNSURE -/
  outc : Tab Nat
  asserts : Tab Nat
  last : Tab Nat
  modes : Tab OscMode
  /-- mode shapes, band × 512 + signal -/
  shapes : Tab (Nat × Nat)
deriving DecidableEq, Repr

/-- Detectors and GOOSE (09): oscillation units; the island unit's outcome records, (a × 64 + b) × 32 + slot, and by pair the newest asserted
blank of each run that has made its item (R297); GOOSE: data set value, time of its last change, cycle of the last send, interval in ms. -/
structure DetS where
  osc : List OscU
  isl : Tab Nat
  islItem : Tab (List Nat)
  gsDs : Option Nat
  gsT : Nat
  gsAt : Nat
  gsIvl : Nat
  /-- epoch index of the evaluation that latched each line -/
  almEpoch : Tab Nat
deriving DecidableEq, Repr

/-- A frequency tracker (12_local_front_end.md R380): the last crossing (device time, 1/65,536 ns), the last cycle frequency (binary32), how
many good cycles have followed each other, the cycles of the newest blank windows, newest first: start, end, frequency; and its recent changes of
lock state, newest first: device time, locked after it. -/
structure Trk where
  last : Option Nat
  freq : Nat
  good : Nat
  cycs : List (Nat × Nat × Nat)
  locks : List (Nat × Bool)
deriving DecidableEq, Repr

/-- The local front end (12). Device times are in 2^-48 ns. -/
structure AfeS where
  /-- staged GAIN, OFFSET and matrix values, by configuration key (R377); the front-end cycle of the last staging write of each, with the value staged
  at the start of that cycle; the front-end cycle of the last application (R378) -/
  staged : Tab Nat
  stagedWas : Tab (Nat × Nat)
  ccAt : Option Nat
  /-- per group: the cycle of a start event waiting for its edge, of a stop waiting for its edge, since when it runs (device time and cycle), when it last stopped -/
  startAt : List (Option Nat)
  stopAt : List (Option Nat)
  runFrom : List (Option (Nat × Nat))
  lastStop : List (Option Nat)
  /-- recent changes of AFE_TRK.REF, newest first: device time, the channel before it (R383, R384) -/
  refAt : List (Nat × Nat)
  /-- values in use that were replaced lately, newest first: until when each was in use, the value (R377) -/
  old : Tab (List (Nat × Nat))
  /-- per channel: its recent clips, and the recent times for which it was stuck, newest first: start, and end once known (R367, R385) -/
  clipAt : Tab (List Nat)
  stuckAt : Tab (List (Nat × Option Nat))
  trk : List Trk
  /-- changes of debounced levels, newest first: device time, levels after it (R382) -/
  dinLog : List (Nat × Nat)
  /-- DIN events: time in ns, input, new level (R387) -/
  dinFifo : List (Nat × Nat × Nat)
  /-- the front-end cycle of the newest entry, and how many entries that cycle has brought (R387) -/
  dinNow : Nat × Nat
  /-- FREQ of the last stream 0 record: its epoch and value (R382) -/
  s0 : Option (Nat × Nat)
deriving DecidableEq, Repr

/-- An energy interval in progress (13_energy_metering.md R394 to R398): start second, length in s, T summed (2^-48 ns), flags, cycles, short and NaN
cycles, unmeasured T, reversals, time of the first, accumulators at its start. -/
structure Ival where
  start : Nat
  len : Nat
  dur : Nat
  flags : Nat
  cycles : Nat
  short : Nat
  nan : Nat
  unmeas : Nat
  revs : Nat
  firstRev : Option Nat
  base : List Nat
deriving DecidableEq, Repr

/-- A full cycle's results of one element (R390, R399), binary64: for each order |V_h|², |I_h|², P_h; then V_RMS and I_RMS. -/
structure HarmEl where
  v2 : List Nat
  i2 : List Nat
  p : List Nat
  vrms : Nat
  irms : Nat
deriving DecidableEq, Repr

/-- What a cycle of a circuit did (13_energy_metering.md R401, R402): its start and end, kind (0 full, 1 short, 2 NaN), increments in 2^-32 of their
unit, whether it was a reversal, the held directions after and before it (bit 0 total export, bit 1 fundamental export), the interval before it. -/
structure CycLog where
  t0 : Nat
  t1 : Nat
  kind : Nat
  incs : List Nat
  rev : Bool
  dirs : Nat
  dirsWas : Nat
  was : Option Ival
deriving DecidableEq, Repr

/-- A circuit (13): accumulators in 2^-32 of their unit, held directions (bit 0 total export, bit 1 fundamental export), the interval in
progress, per-element P_F, Q_F, Q_T of the last full cycle, end of the last cycle, start of the next if one stands before it, cycles of the harmonic block so far with the data of its full
cycles, the last 256 cycles, newest first, the flag that the next record carries, and whether the interval was restored. -/
structure Circ where
  acc : List Nat
  dirs : Nat
  ival : Option Ival
  lastFull : Option (List (Nat × Nat × Nat))
  lastEnd : Nat
  next : Option Nat
  hn : Nat
  hcyc : List (List HarmEl)
  log : List CycLog
  gone : List Nat
  mark : Nat
  restored : Bool
deriving DecidableEq, Repr

/-- Metering (13). -/
structure NrgS where
  circ : List Circ
  /-- snapshot, circuit × 16 + q -/
  snap : Tab Nat
  /-- pulse edges of late, newest first: device time, input, weight (R401) -/
  plog : List (Nat × Nat × Nat)
  /-- interval records by slot, as bytes -/
  irs : Tab (List Nat)
  /-- harmonic results, (circuit × 256 + element × 64 + h) × 4 + word -/
  harm : Tab Nat
  /-- device time at which the next periodic save is due -/
  saveDue : Nat
  /-- RTC ticks of the save found at BOOT, until the first cycle ends an outage's span -/
  outage : Option Nat
deriving DecidableEq, Repr

/-- A mesh node's run-time state (15_line_sensor_mesh.md, Node status): LAST_SEQ, STATE, WAKES, LAST_HEARD, REPEATS, STALE, RSSI, MISSES; device
time of the last accepted frame; superframe of the last wake or of LOST; a wake is to be requested. -/
structure MeshNode where
  lastSeq : Nat
  st : Nat
  wakes : Nat
  heard : Nat
  repeats : Nat
  stale : Nat
  rssi : Nat
  misses : Nat
  heardAt : Option Nat
  ref : Nat
  want : Bool
deriving DecidableEq, Repr

/-- A mesh channel (15): cycle at which its domain was admitted; current superframe and the first one judged; acknowledgements (address, SEQ,
device time queued, superframe queued); budget (2^-48 ns of airtime × 1,000) and the device time it stands for; queued wakes in order of
request; end of the transmission in progress; busy CCA results so far, the cycle at which a backoff ends and whether it is a wake's; this
superframe's beacon is done, or was skipped; the wake of this superframe (start, end); a flood is due (1) or announced (2); a wake or a CAP
transmission has had its turn in this superframe. -/
structure MeshCh where
  admitAt : Option Nat
  sf : Nat
  firstSf : Nat
  acks : List (Nat × Nat × Nat × Nat)
  budget : Nat
  budgetAt : Nat
  wakes : List Nat
  txEnd : Option Nat
  busy : Nat
  backoff : Option Nat
  tryWake : Bool
  bcnDone : Bool
  skipped : Bool
  wakeSpan : Option (Nat × Nat)
  flood : Nat
  woke : Bool
  capDone : Bool
deriving DecidableEq, Repr

/-- The running mesh command (R449): MSG_ID, destination, kind, payload, expected nodes, retries made by channel, the channel of the first
flood, superframe ends since it, channels that hold an expected node. -/
structure MeshCmd where
  id : Nat
  dest : Nat
  kind : Nat
  payload : List Nat
  expect : List Nat
  retry : List Nat
  first : Option Nat
  age : Nat
  chans : List Nat
deriving DecidableEq, Repr

/-- The mesh (15): channels, nodes, seen cache oldest first (key, superframe of insertion, channel), command, last MSG_ID, nodes with a unicast
ASSIGN to send, the SPI shift (end cycle, word sent), the last frame sent on each channel. -/
structure MeshS where
  ch : List MeshCh
  nodes : Tab MeshNode
  seen : List (List Nat × Nat × Nat)
  cmd : Option MeshCmd
  lastId : Nat
  assigns : List Nat
  spi : Option (Nat × Nat)
  sent : List (List Nat)
deriving DecidableEq, Repr

/-- The link session (16_twin_redundancy.md R456): the session key, is the unit preferred, next LSEQ to send and expected. -/
structure LinkSess where
  key : Nat
  pref : Bool
  txSeq : Nat
  rxSeq : Nat
deriving DecidableEq, Repr

/-- A copy being received (R469): number, length, cycle of COPY_BEGIN, bytes by offset, a byte came twice or out of range. -/
structure TwinRx where
  seq : Nat
  len : Nat
  at_ : Nat
  bytes : Tab Nat
  bad : Bool
deriving DecidableEq, Repr

/-- Twin operation (16). -/
structure TwnS where
  /-- cycle of the last unlock write with no other TWN write since (R464) -/
  unlockAt : Option Nat
  /-- link session (R455 to R457): nonce of the HELLO sent; UNIT_ID, PRI and nonce of the partner's HELLO once accepted; the session;
  frames held for a missing LSEQ, each with the cycle at which it came; the last frame sent -/
  nonce : Option Nat
  hello : Option (Nat × Bool × Nat)
  sess : Option LinkSess
  held : List (Nat × LinkFrame)
  sentF : Option LinkFrame
  /-- role rules: RELINQUISH, TAKE and WANT as offered, the host's RELINQUISH, epochs of a lower grade, cycle since which Revert's conditions hold -/
  relinq : Bool
  take : Bool
  want : Bool
  hostRelinq : Bool
  lower : Nat
  revertAt : Option Nat
  /-- device time of entry to the twin mode -/
  entryAt : Nat
  /-- epochs of the HEALTH frames and beacons (epoch, LAN) received lately; own and partner's words by epoch; newest first -/
  hbEp : List Nat
  bcnEp : List (Nat × Nat)
  ownWords : List (Nat × Nat)
  peerWords : List (Nat × Nat)
  peerId : Option Nat
  /-- epoch of the last contact record, HEALTH frame and beacon made -/
  recEp : Option Nat
  hEp : Option Nat
  bEp : Option Nat
  /-- contact records, newest first: HEALTH frame, beacon (R462) -/
  recs : List (Bool × Bool)
  /-- digest received from the partner -/
  peerCfg : Option (List Nat)
  /-- a decided role change: active or not, epoch, rule, epoch of X0 -/
  due : Option (Bool × Nat × Nat × Nat)
  /-- the copy waiting and the copy being sent: epoch, image; the last COPY_SEQ given (R466) -/
  seq : Nat
  waiting : Option (Nat × List Nat)
  sending : Option (Nat × List Nat)
  /-- copy being received -/
  rx : Option TwinRx
  /-- last applied: number, epoch; sealed blanks since; a failure since -/
  applied : Option (Nat × Nat)
  sealsSince : Nat
  failed : Bool
  /-- own assertions of the last 32 blanks: line, source, epoch -/
  asserts : List (Nat × Nat × Nat)
  /-- content of the two newest sealed blanks at their seals, newest first -/
  kept : List Blank
  /-- session frames that LEGACY-STANDBY has not sent: device time, epoch, session, kind, amendment (R472) -/
  skipped : List (Nat × Nat × Nat × Nat × Nat)
  /-- PCS lock of ETH0 to ETH3 -/
  pcs : Nat
  /-- cycle at which the last CFG frame of the session left, none where the session or a commit since calls for one (R473) -/
  cfgAt : Option Nat
deriving DecidableEq, Repr

/-- Power (19_electrical_package.md; 13 R403; 02 R49): the ramp that runs (domain, end cycle), the cycle at which the head of the queue last
changed with no ramp running, SETTLE ends by domain, PWR_FAIL_N's fall while it is low and its last rise, the power-fail stamp in RTC ticks,
the cycle at which the LAST-GASP save was complete, its energy payload due or written. -/
structure PwrS where
  ramp : Option (Nat × Nat)
  headAt : Nat
  settle : Tab Nat
  fallAt : Option Nat
  riseAt : Nat
  stamp : Option Nat
  saveDone : Option Nat
  lgFall : Nat
deriving DecidableEq, Repr

/-- The IEEE 1149.1 port (19 R536): instruction (0 Test-Logic-Reset, 1 BYPASS, 2 IDCODE, 3 SAMPLE/PRELOAD, 4 EXTEST, 5 CLAMP, 6 HIGHZ), the
selected data register's content, the preloaded boundary. -/
structure JtagS where
  ir : Nat
  dr : Nat
  boundary : Nat
deriving DecidableEq, Repr


/-- The running firmware and what BOOT took from the configuration bank beside the register tables (17 R494; 07 R239; 08 R278). -/
structure FwS where
  imageId : Nat
  sec : Nat
  hash : Nat
  /-- LOAD_ADDR of its first FW_CODE section -/
  entry : Nat
  /-- program set named: NOR device and offset -/
  prog : Option (Nat × Nat)
deriving DecidableEq, Repr

/-- Levels and drives at the balls (19_electrical_package.md; 03 R100; 14 R544; 15 R429). -/
structure PinsS where
  /-- ALARM0 to ALARM15: bit n is the level driven; driven at all (R518) -/
  alarm : Nat
  alarmDriven : Bool
  /-- XTRIG0 to XTRIG3: cycle at which the pull-down ends, and the end of the last pulse -/
  xtrigEnd : List (Option Nat)
  xtrigLast : List (Option Nat)
  /-- debounced levels of XTRIG0 to XTRIG3 as the board holds them -/
  xtrigLvl : Nat
  mshTxEn : Nat
  modclk : Bool
  twinPri : Bool
  ref25 : Bool
  trstLow : Bool
deriving DecidableEq, Repr

/-- A copy of the configuration held for the blanks before `target` (02_modes_startup.md R63, R64). -/
structure CfgRet where
  tab : Tab Word
  target : Nat
deriving DecidableEq, Repr

/-- GOOSE before the state change of the present cycle (09_detectors_alarms.md R306): data set, stNum, sqNum, time of the change, cycle and interval
of the last send; the copies sent for the change, and their content. -/
structure GsWas where
  ds : Option Nat
  stNum : Nat
  sqNum : Nat
  t : Nat
  at_ : Nat
  ivl : Nat
  sent : Nat
  body : List Nat
deriving DecidableEq, Repr

/-- What has happened in the present fabric cycle: the model's own record, which rules about two events of one cycle read, whichever command
comes first in the queue (log 126). It is empty in the first command of a cycle.
`regs`: by register, the word before the cycle's first hardware change, the bits that hardware has set, the events that a counter has counted
(00 R10, R11). `blanks`: by ring slot, its content before the cycle (01 R16). `refused`: chute items refused in the cycle (11 R352).
`mode`: SYS_MODE before the cycle, the rank of R47 and the cause of the transition made (02 R47). `lines`: by alarm line, the rank of the source
that has latched it (09 R300). `asserted`: by line, the assertions of the cycle that found it latched before, each a source and an epoch (09 R301). `almCfg`: DET_ALM_CFG before the
cycle's write (09 R303). `goose`: what GOOSE was before the cycle's state change, once that is made (09 R306). `vecs`: MSI-X vectors whose message has been sent
(11 R350). `rearm`: rings re-armed in the cycle (11 R349). `addend`: the addend before the cycle's commit (03 R86). `switched`: a transaction has
switched (02 R78). `health`: by stream, what the cycle's events have counted and set (04 R133). `took`: the blocks
that parsers have had accepted, each with its blank or sample number and the pair's first block before it (04 R124). `accs`: by circuit, the energy
accumulators before the cycle (13 R396). `slots`: by key slot, what it was before the cycle (17 R485). -/
structure CycS where
  regs : Tab (Nat × Nat × Nat)
  blanks : Tab (Option Blank)
  refused : List Refused
  mode : Option (Nat × Nat × Nat)
  lines : Tab Nat
  asserted : Tab (List (Nat × Nat))
  almCfg : Option Nat
  goose : Option GsWas
  vecs : Nat
  rearm : Nat
  addend : Option Nat
  switched : Bool
  health : Tab Health
  took : List (Nat × Block × Option (Nat × Nat × Bool))
  accs : Option (List (List Nat))
  slots : Tab KeySlot
deriving DecidableEq, Repr

/-- Nothing has happened in this cycle. -/
def CycS.none : CycS := ⟨[], [], [], Option.none, [], [], Option.none, Option.none, 0, 0, Option.none, false, [], [], Option.none, []⟩

/-- The state of the TY8192. -/
structure State where
  /-- commands waiting, first in first out (log 1) -/
  pending : List Instr
  /-- fabric cycles passed -/
  cycle : Nat
  /-- device time, 2^-48 ns (03_time_base.md R79) -/
  now : Nat
  /-- battery-domain RTC, ticks of 32.768 kHz at cycle 0 -/
  rtcBase : Nat
  /-- numbers the free values (the model's own, log 4) -/
  freeCtr : Nat
  /-- word returned by the last host read (the model's own) -/
  hostData : Word
  /-- every plain register, index register and window data register of BAR0, by offset -/
  regs : Tab Word
  /-- latched words, by offset (R37, R80, R171); at 2^21 + offset, what the last full read of a popping register returned (R34) -/
  shadow : Tab Word
  winOps : List WinOp
  /-- transactional tables and registers: in use, pending, retiring (R62, R63) -/
  cfg : Tab Word
  cfgPend : Tab Word
  cfgRet : Option CfgRet
  /-- tables of the windows that are not transactional -/
  ntab : Tab Word
  /-- device-wide record sequence number (07 R228) -/
  rseq : Nat
  /-- history memory (01 R22) -/
  hist : Memory
  /-- partition of history memory: size of each region of R22, in bytes, in the table's order -/
  histPart : List Nat
  /-- corrected errors by memory (01 R18) -/
  eccCorr : Tab Nat
  sys : SysS
  time : TimeS
  chutes : List Chute
  dma : DmaS
  cmp : CmpS
  nvs : NvsS
  cap : CapS
  ing : IngS
  aln : AlnS
  spc : SpcS
  ssk : SskS
  pins : PinsS
  key : KeyS
  out : OutS
  det : DetS
  afe : AfeS
  nrg : NrgS
  msh : MeshS
  twn : TwnS
  pwr : PwrS
  jtag : JtagS
  fw : FwS
  /-- what has happened in this fabric cycle (the model's own, log 126) -/
  cyc : CycS
deriving DecidableEq, Repr

/-- A processor at reset (log 2): every register 0, predicates UNSURE. -/
def ProcS.reset (held : Bool) : ProcS :=
  ⟨[], [], [], 0, none, 0, [], false, 0, 0, 0, 0, 0, 0, false, 0, false, held⟩

/-- A chute at reset: empty. -/
def Chute.reset : Chute := ⟨[], [], none, 0, 0, [], [], 0, 0, none⟩

/-- A ring at reset. -/
def RingS.reset : RingS := ⟨[], true, 0, 0, true, false, [], false⟩

/-- A sequencer at reset. -/
def SeqS.reset : SeqS := ⟨0, [0, 0, 0, 0], [(0, 0), (0, 0), (0, 0), (0, 0)], none⟩

/-- A threshold unit at reset. -/
def ThrU.reset : ThrU := ⟨false, false, none, none, []⟩

/-- An oscillation unit that has never been configured. -/
def OscU.reset : OscU := ⟨[], [], [], [], 0, [], 0, 0, none, [], [], [], [], [], [], [], []⟩

/-- A circuit never metered: 14 accumulators, directions import. -/
def Circ.reset : Circ := ⟨List.replicate 14 0, 0, none, none, 0, none, 0, [], [], [], 0, false⟩

/-- A mesh channel that has not run. -/
def MeshCh.reset : MeshCh := ⟨none, 0, 0, [], 0, 0, [], none, 0, none, false, false, false, none, 0, false, false⟩

/-- The default partition of history memory, in bytes (01 R22). -/
def histDefault : List Nat := [64, 256, 256, 64, 192, 64, 64, 64].map (fun m => m * 0x100000)

/-- The part right after reset, before BOOT leaves (02 R45, R51): every register at its reset value, every store empty. Where the
spec states no reset value the field holds the value that log 2 names. -/
def State.reset : State where
  pending := []
  cycle := 0
  now := 0
  rtcBase := 0
  freeCtr := 0
  hostData := 0
  regs := []
  shadow := []
  winOps := []
  cfg := []
  cfgPend := []
  cfgRet := none
  ntab := []
  rseq := 0
  hist := []
  histPart := histDefault
  eccCorr := []
  sys := ⟨0, 0, 0, 0, false, [], 0, none, none, 1, []⟩
  time := ⟨2 * 2 ^ 48, none, [none, none, none, none, none], 0, [[], [], [], []], List.replicate 64 ⟨0, false, false, 0, false, none⟩, [], [], none, [], 0, none, 0, none, [], none, none, []⟩
  chutes := List.replicate 4 Chute.reset
  dma := ⟨List.replicate 16 RingS.reset, 2 ^ 32 - 1, 0, [], [], false, false, false, [], false, false, 0, 2, 0, []⟩
  cmp := ⟨[[], [], []], [none, none], []⟩
  nvs := ⟨[], [1, 1, 1], [], [], 0, 0, 0, 0, [⟨true, [], none⟩, ⟨true, [], none⟩]⟩
  cap := ⟨[], [], List.replicate 64 ThrU.reset, List.replicate 8 SeqS.reset, none, 0, [], 0, [], 0, [], [], [], none, [], 0, 0, [], false, (0, 0)⟩
  ing := ⟨[[], [], [], []], [], [], [], [[], [], [], []], [], false⟩
  aln := ⟨List.replicate 32 none, none, [], []⟩
  spc := ⟨[], false, 0, false, none, 0⟩
  ssk := ⟨List.replicate 32 (ProcS.reset false), ProcS.reset false :: List.replicate 3 (ProcS.reset true), List.replicate 32 [],
    List.replicate 4 [], [[], []], [0, 0], [], 0, [], List.replicate 8 [], [], []⟩
  pins := ⟨0, false, [none, none, none, none], [none, none, none, none], 15, 0, false, false, true, false⟩
  key := ⟨none, none, false, [], none, [], [], none, none, [], false⟩
  out := ⟨[[], [], [], []], [none, none, none, none], [0, 0, 0, 0], []⟩
  det := ⟨List.replicate 8 OscU.reset, [], [], none, 0, 0, 0, []⟩
  afe := ⟨[], [], none, List.replicate 8 none, List.replicate 8 none, List.replicate 8 none, List.replicate 8 none, [], [], [], [],
    List.replicate 24 ⟨none, 0, 0, [], []⟩, [], [], (0, 0), none⟩
  nrg := ⟨List.replicate 8 Circ.reset, [], [], [], [], 0, none⟩
  msh := ⟨List.replicate 2 MeshCh.reset, [], [], none, 0, [], none, [[], []]⟩
  twn := ⟨none, none, none, none, [], none, false, false, false, false, 0, none, 0, [], [], [], [], none, none, none, none, [], none, none,
    0, none, none, none, none, 0, false, [], [], [], 0, none⟩
  pwr := ⟨none, 0, [], none, 0, none, none, 0⟩
  jtag := ⟨0, 0, 0⟩
  fw := ⟨0, 0, 0, 0, none⟩
  cyc := CycS.none

end Sys2Proof.Machine
end

