-- ==== Sys2Proof/Machine/Ops.lean ====
section
/-! DEFINITION. The operations every block shares: registers and their fields, the configuration copies, device time,
free values, interrupts, chutes, the Drill Log queue and the health bits. -/

namespace Sys2Proof.Machine

/-- What a meaning answers. -/
abbrev Out := Host.Outcome State Fault Refusal

/-! Registers. -/

/-- The word a register holds, as a number. -/
def rd (s : State) (off : Nat) : Nat := (Tab.get resetWord s.regs off).toNat

/-- Put a word into a register, hardware's own write. -/
def wr (s : State) (off v : Nat) : State :=
  { s with regs := Tab.set resetWord s.regs off (BitVec.ofNat 32 v) }

/-- A field of a register. -/
def fld (s : State) (off hi lo : Nat) : Nat := bits (rd s off) hi lo

/-- A bit of a register. -/
def bit (s : State) (off b : Nat) : Bool := bitOf (rd s off) b

/-- Put a value into a field. -/
def setF (s : State) (off hi lo v : Nat) : State := wr s off (putBits (rd s off) hi lo v)

/-- What the cycle's record holds of a register: its word before, the bits set, the events counted. -/
def cycReg (s : State) (off : Nat) : Nat × Nat × Nat := Tab.get (fun o => (rd s o, 0, 0)) s.cyc.regs off

/-- Note that hardware sets bits of a register, or that a counter counts, in this cycle (00 R10, R11). -/
def noteReg (s : State) (off set n : Nat) : State :=
  let e := cycReg s off
  { s with cyc := { s.cyc with regs := Tab.put s.cyc.regs off (e.1, e.2.1 ||| set, e.2.2 + n) } }

/-- Put a value into a bit; a bit that is set is noted. -/
def setB (s : State) (off b : Nat) (v : Bool) : State := setF (if v then noteReg s off (2 ^ b) 0 else s) off b b (b2n v)

/-- A saturating 32-bit counter counts `n` more (R13). -/
def addC (s : State) (off n : Nat) : State := wr (noteReg s off 0 n) off (satAdd 32 (rd s off) n)

/-- A saturating 32-bit counter counts one more (R13). -/
def inc (s : State) (off : Nat) : State := addC s off 1

/-- `n` events that a counter has counted in this cycle turn out to be none. -/
def subC (s : State) (off n : Nat) : State :=
  let e := cycReg s off
  wr { s with cyc := { s.cyc with regs := Tab.put s.cyc.regs off (e.1, e.2.1, e.2.2 - n) } } off (rd s off - n)

/-- A wrapping 32-bit counter counts `n` more. -/
def addW (s : State) (off n : Nat) : State := wr s off (rd s off + n)

/-! Modes (02_modes_startup.md). -/

abbrev Mode.boot : Nat := 0
abbrev Mode.provision : Nat := 1
abbrev Mode.safeDefault : Nat := 2
abbrev Mode.solo : Nat := 3
abbrev Mode.active : Nat := 4
abbrev Mode.standby : Nat := 5
abbrev Mode.legacyActive : Nat := 6
abbrev Mode.legacyStandby : Nat := 7
abbrev Mode.diagnostic : Nat := 8
abbrev Mode.lastGasp : Nat := 9
abbrev Mode.zeroized : Nat := 10
abbrev Mode.halt : Nat := 11

/-- SYS_MODE.MODE -/
def mode (s : State) : Nat := fld s Reg.SYS_MODE 3 0

/-- Ingest, the Lathe, kernels and detectors run (R42); so does capture (14 R406). -/
def runsLathe (m : Nat) : Bool := decide (3 ≤ m) && decide (m ≤ 8)
/-- Sessions send (R42). -/
def runsOutput (m : Nat) : Bool := decide (3 ≤ m) && decide (m ≤ 6)
/-- Alarm lines, GOOSE, radio and energy authority (R42). -/
def runsAlarms (m : Nat) : Bool := m == 3 || m == 4 || m == 6
/-- Energy is kept as a shadow (R42). -/
def runsShadow (m : Nat) : Bool := m == 5 || m == 7
/-- Transactions are permitted (R42). -/
def runsTxn (m : Nat) : Bool := decide (2 ≤ m) && decide (m ≤ 7)
/-- Lanes and units may be taken out of service (R74). -/
def runsOos (m : Nat) : Bool := decide (3 ≤ m) && decide (m ≤ 7)

/-- The rank of R47 of a transition's trigger, by its CAUSE: 2 a HALT cause, 3 PWR_FAIL_N, 4 any other but TAMPER_N, whose rank is 1. -/
def causeRank (cause : Nat) : Nat := if 0x10 ≤ cause then 2 else if cause = 0x0B then 3 else 4

/-- A transition of this cycle is noted, with SYS_MODE as it was before the first (R47). -/
def noteMode (s : State) (cause : Nat) : State :=
  let w := match s.cyc.mode with | some (w, _, _) => w | none => rd s Reg.SYS_MODE
  { s with cyc := { s.cyc with mode := some (w, causeRank cause, cause) } }

/-- Before a trigger of rank `r` takes its transition, one of this cycle that it goes before is taken back; the CAUSE of a HALT among them, which
comes next (R47, log 127). -/
def modeBack (s : State) (r : Nat) : State × Option Nat :=
  match s.cyc.mode with
  | some (w, q, c) => if r < q then (wr s Reg.SYS_MODE w, if q = 2 then some c else none) else (s, none)
  | none => (s, none)

/-! Configuration copies (R62, R63) and the tables of the other windows. -/

/-- Where word `j` of entry `i` of the window at offset `w` lies in a configuration copy; a register at offset `w` lies at `cfgKey w 0 0`. -/
def cfgKey (w i j : Nat) : Nat := w * 2 ^ 21 + 8 * i + j

/-- What an unlisted word of a configuration copy reads as: the reset value of a transactional register, FMT 3 in entry 0 of the stream table
(04 R116), 0 in any other table word (log 2). -/
def cfgDef (k : Nat) : Word :=
  if k = cfgKey Win.ING_ST 0 0 then 0x300000 else if k % 2 ^ 21 = 0 ∧ (winAt? (k / 2 ^ 21)).isNone then resetWord (k / 2 ^ 21) else 0

/-- Step cost in mA and default priority of a domain (19_electrical_package.md R532). -/
def domSpec (d : Nat) : Nat × Nat :=
  if d < 4 then (300, 3) else if d = 4 then (400, 3) else if d = 5 then (200, 3) else if d < 14 then (1200, 1)
  else if d < 22 then (600, 2) else if d = 22 then (400, 2) else if d = 23 then (1500, 3) else if d = 24 then (800, 2)
  else if d < 27 then (500, 0) else if d < 29 then (200, 0) else if d < 33 then (700, 3) else if d = 33 then (900, 2)
  else if d = 34 then (400, 1) else if d = 35 then (300, 2) else if d = 36 then (200, 2) else if d = 37 then (1000, 3)
  else if d = 38 then (600, 2) else if d = 39 then (500, 2) else (0, 0)

/-- What an unlisted word of a table that is not transactional reads as: the defaults of the channel entries
(12_local_front_end.md, AFE windows), of the calibration entries (13_energy_metering.md R391) and of the domains (19 R532). -/
def ntabDef (k : Nat) : Word :=
  let w := k / 2 ^ 21
  let i := k % 2 ^ 21 / 8
  let j := k % 8
  BitVec.ofNat 32
    (if w = Win.NRG_CAL then (if j = 0 ∨ j = 1 then 0x3F800000 else 0)
     else if w = Win.AFE_CH then (if j = 0 then 63 * 2 ^ 16 else if j = 1 then 12 * 2 ^ 16 + 12 * 2 ^ 8 + 19 else 0)
     else if w = Win.PWR_DOM ∧ j = 0 then (domSpec i).2 * 2 ^ 25 + (domSpec i).1
     else 0)

/-- Word `j` of entry `i` of a configuration copy, as a number. -/
def getC (t : Tab Word) (w i j : Nat) : Nat := (Tab.get cfgDef t (cfgKey w i j)).toNat

/-- Write word `j` of entry `i` of a configuration copy. -/
def putC (t : Tab Word) (w i j v : Nat) : Tab Word := Tab.set cfgDef t (cfgKey w i j) (BitVec.ofNat 32 v)

/-- The configuration under which the blank of an epoch index runs (R63). -/
def confOf (s : State) (epoch : Nat) : Tab Word :=
  match s.cfgRet with
  | some r => if epoch < r.target then r.tab else s.cfg
  | none => s.cfg

/-- Word `j` of entry `i` of a table that is not transactional. -/
def getN (s : State) (w i j : Nat) : Nat := (Tab.get ntabDef s.ntab (cfgKey w i j)).toNat

/-- Write such a word. -/
def putN (s : State) (w i j v : Nat) : State :=
  { s with ntab := Tab.set ntabDef s.ntab (cfgKey w i j) (BitVec.ofNat 32 v) }

/-- The entries of a window of which some word is listed in a configuration copy, ascending: every other entry is all default. -/
def listed (t : Tab Word) (w : Nat) : List Nat :=
  (((t.filter (fun p => p.1 / 2 ^ 21 == w)).map (fun p => p.1 % 2 ^ 21 / 8))).eraseDups

/-! Power gating (01 R36; 19 R529). -/

/-- STATE of a domain: 0 OFF, 1 QUEUED_UP, 2 RAMP_UP, 3 SETTLE, 4 ON, 5 QUEUED_DOWN, 6 RAMP_DOWN. -/
def domState (s : State) (d : Nat) : Nat := bits (getN s Win.PWR_DOM d 0) 29 27

/-- A domain is powered: ON, or still ON while it waits to go down. -/
def domOn (s : State) (d : Nat) : Bool := domState s d == 4 || domState s d == 5

/-- The domains of the block that a register belongs to, by BAR0 offset: the register is gated while some list of them has no domain powered
(R36; 19 R532; log 12). A register by which a block is configured, and so comes to be wanted (19 R528), is not gated by that block's domain. -/
def regionDomains (off : Nat) : List (List Nat) :=
  match off / 0x10000 with
  | 0x3 => [23] :: (if 0x110 ≤ off % 0x4000 then [[29 + off % 0x10000 / 0x4000]] else [])
  | 0x4 => if 0x40024 ≤ off ∧ off ≤ 0x4002C then [[32]] else if 0x40200 ≤ off then [[38]] else []
  | 0x8 => if off = Reg.SSK_LOAD then [[6, 7, 8, 9, 10, 11, 12, 13]] else []
  | 0xA =>
    if off = Reg.DET_ISL_EVALS ∨ off = Reg.DET_ISL_AMEND_SKIP then [[22]]
    else if (Reg.DET_OSC_EVALS ≤ off ∧ off ≤ Reg.DET_OSC_NF_FROZEN) ∨ (Win.DET_MODE ≤ off ∧ off ≤ Win.DET_MODE + 32)
      ∨ (Win.DET_SHP ≤ off ∧ off ≤ Win.DET_SHP + 8) then [[14, 15, 16, 17, 18, 19, 20, 21]]
    else []
  | 0xB => [[33]]
  | 0xC => [[39]]
  | 0xD => [[35]]
  | 0xE => [[36]]
  | 0xF => [[34]]
  | 0x10 =>
    if off = Reg.MSH_CH_TOKENS 0 ∨ off = Reg.MSH_CH_SFNUM 0 then [[27]]
    else if off = Reg.MSH_CH_TOKENS 1 ∨ off = Reg.MSH_CH_SFNUM 1 then [[28]]
    else if 0x100300 ≤ off then [[27, 28]]
    else []
  | 0x12 => [[4]]
  | 0x13 => [[5]]
  | 0x14 => if Reg.CMP_STATUS ≤ off then [[25, 26]] else []
  | _ => []

/-- The registers at an offset are gated: their domain is off, or the mode is HALT and the region is neither SYS nor PWR (R36). -/
def gated (s : State) (off : Nat) : Bool :=
  if off / 0x10000 < 2 then false
  else mode s == Mode.halt || (regionDomains off).any (fun l => !l.any (domOn s))

/-- What a full-word write to a register does, or nothing where the register is gated (R36). -/
def ungated (s : State) (off : Nat) (f : State → State) : State := if gated s off then s else f s

/-! Device time (03_time_base.md R79). -/

/-- One nanosecond in the units of device time. -/
abbrev nsU : Nat := 2 ^ 48
/-- One second in the units of device time. -/
abbrev secU : Nat := 1000000000 * 2 ^ 48

/-- Device time in whole nanoseconds. -/
def nowNs (s : State) : Nat := s.now / nsU
/-- Device time, whole seconds. -/
def nowSec (s : State) : Nat := nowNs s / 1000000000

/-- A count of whole seconds as a number of fabric cycles, 500,000,000 a second. -/
abbrev cycSec : Nat := 500000000

/-- What this cycle adds to device time: the addend in use at its start (03 R86). -/
def addendNow (s : State) : Nat := s.cyc.addend.getD s.time.addend

/-- `n` fabric cycles pass: device time advances by the addend in each (R20; 03 R86), and the record of the cycle begins anew. -/
def pass (s : State) (n : Nat) : State :=
  if n = 0 then s
  else { s with cycle := s.cycle + n, now := s.now + addendNow s + (n - 1) * s.time.addend, cyc := CycS.none }

/-- How many cycles pass up to the first in which device time is at or after an instant. -/
def cyclesTo (s : State) (t : Nat) : Nat :=
  if t ≤ s.now then 0 else 1 + ceilDiv (t - (s.now + addendNow s)) s.time.addend

/-- Cycles pass up to the first in which device time is at or after an instant (05 R135); none where it is already. -/
def passTo (s : State) (t : Nat) : State := pass s (cyclesTo s t)

/-- From a cycle on device time does not run on as before: a step, or a new addend. The times of the last second stay known. -/
def timeBreak (s : State) (c t a : Nat) : State :=
  { s with time := { s.time with breaks := (c, t, a) :: s.time.breaks.filter (fun b => decide (s.cycle ≤ b.1 + cycSec)) } }

/-- The device time of a cycle of the last second, or of one to come as device time runs. -/
def timeAt (s : State) (c : Nat) : Nat :=
  match (s.time.breaks.filter (fun b => decide (c < b.1))).getLast? with
  | some (e, t, a) => t - (e - c) * a
  | none => if s.cycle ≤ c then s.now + (c - s.cycle) * s.time.addend else s.now - (s.cycle - c) * s.time.addend

/-- Cycles pass up to a cycle; none where it has passed. -/
def passCyc (s : State) (c : Nat) : State := pass s (c - s.cycle)

/-- The blank rates of the codes 0 to 11; 12 to 15 act as 6 (05 R170, ALN_RATE). -/
def rateOf (code : Nat) : Nat :=
  match code with
  | 0 => 10 | 1 => 12 | 2 => 15 | 3 => 20 | 4 => 25 | 5 => 30
  | 6 => 50 | 7 => 60 | 8 => 100 | 9 => 120 | 10 => 200 | 11 => 240
  | _ => 50

/-- The blank rate. -/
def blankRate (s : State) : Nat := rateOf (fld s Reg.ALN_RATE 3 0)

/-- The epoch index of device time (00, Terms). -/
def epochNow (s : State) : Nat := s.now * blankRate s / secU

/-- The least device time at or after the epoch instant of an index plus a duration of `us` microseconds (05 R135). -/
def epochPlus (s : State) (k us : Nat) : Nat := ceilDiv ((k * 1000000 + us * blankRate s) * 1000 * nsU) (blankRate s)

/-- The device time at which a deadline of blank `k`, `us` µs after its epoch instant, acts: the drain time of 5 µs after it, or after the forward
step that carried it into the past (01 R25; 03 R89). -/
def deadlineAt (s : State) (k us : Nat) : Nat :=
  let d := epochPlus s k us
  let a := epochPlus s k (us + 5)
  match s.time.fwd with
  | some (was, is_) => if was < a ∧ d ≤ is_ then is_ + 5000 * nsU else a
  | none => a

/-- Cycles pass up to the one in which such a deadline acts. -/
def deadlineTo (s : State) (k us : Nat) : State := passTo s (deadlineAt s k us)

/-- Offset of a device time after an epoch instant in units of 0.25 µs, rounded down, 0 before it, at most `top` (04 R122). -/
def ofsAfter (s : State) (t k top : Nat) : Nat := min ((t * blankRate s - k * secU) / (blankRate s * 250 * nsU)) top

/-! Free values (log 4). -/

/-- A free value below `n`, and the counter moved on. -/
def fresh (s : State) (n : Nat) : State × Nat := ({ s with freeCtr := s.freeCtr + 1 }, Config.fresh s.freeCtr % n)

/-- A device time moved by at most `u`, freely. -/
def around (s : State) (t u : Nat) : State × Nat :=
  let (s, d) := fresh s (2 * u + 1)
  (s, t + d - u)

/-- The next device-wide record sequence number (07 R228). -/
def nextRseq (s : State) : State × Nat := ({ s with rseq := (s.rseq + 1) % 2 ^ 64 }, s.rseq)

/-- A full read of a register that pops an entry has returned a value; partial reads return it until the next one (01 R34). -/
def notePop (s : State) (off v : Nat) : State := { s with shadow := Tab.put s.shadow (2 ^ 21 + off) (BitVec.ofNat 32 v) }

/-! CRC-32C (11 R363). -/

/-- One bit of the reflected division. -/
def crcBit (c : Nat) : Nat := if c % 2 = 1 then (c / 2) ^^^ 0x82F63B78 else c / 2

/-- One byte. -/
def crcByte (c b : Nat) : Nat := iter crcBit 8 (c ^^^ (b % 256))

/-- CRC-32C of a list of bytes: initial value and final XOR all ones. -/
def crc32c (bs : List Nat) : Nat := (bs.foldl crcByte 0xFFFFFFFF) ^^^ 0xFFFFFFFF

/-! Firmware's receive queue (04 R134). -/

/-- Offer a frame to firmware; is there room for it? -/
def fwOffer (s : State) (f : FwFrame) : State × Bool :=
  if (s.ing.fwq.map (fun x => x.len)).sum + f.len ≤ 262144 then ({ s with ing := { s.ing with fwq := s.ing.fwq ++ [f] } }, true)
  else (inc s Reg.ING_FW_DROP, false)

/-! Interrupts (11 R350, R337). -/

/-- Can the device master the bus? (R337) In HALT PCIe is out of service (02 R42). -/
def busOk (s : State) : Bool := s.dma.linkUp && s.dma.bme && !s.dma.d3hot && mode s != Mode.halt

/-- May the message of an MSI-X vector go? MSI-X is enabled, neither the function nor the vector is masked, and the bus can be mastered. -/
def vecOpen (s : State) (v : Nat) : Bool := s.dma.msixEn && !s.dma.msixAll && !bitOf s.dma.msixMask v && busOk s

/-- Send the message of an MSI-X vector, once for all sources of a cycle: those of this cycle at note `v`, those of the next at 32 + `v` (R349, R350);
leave it pending where it may not go. -/
def signalAt (s : State) (v note : Nat) : State :=
  let d := s.dma
  if !vecOpen s v then { s with dma := { d with msixPend := setBitN d.msixPend v } }
  else if bitOf s.cyc.vecs note then s
  else { s with
    dma := { d with msixSent := Tab.set (fun _ => 0) d.msixSent v (Tab.get (fun _ => 0) d.msixSent v + 1) }
    cyc := { s.cyc with vecs := setBitN s.cyc.vecs note } }

/-- Send the message of an MSI-X vector in this cycle. -/
def signalVec (s : State) (v : Nat) : State := signalAt s v v

/-- Vectors that pend and may now go send their message (R350). -/
def sendPend (s : State) : State :=
  (List.range 32).foldl (fun s v =>
    if bitOf s.dma.msixPend v && vecOpen s v then signalVec { s with dma := { s.dma with msixPend := clrBitN s.dma.msixPend v } } v else s) s

/-! Chutes (11 R351 to R353). -/

/-- The first cycle after an item's last word. -/
def Coming.stop (e : Coming) : Nat := e.start + e.item.words.length

/-- Is `x` taken before `e` where both wait for the port? (R351) -/
def Coming.first (x e : Coming) : Bool :=
  decide (x.kind < e.kind) || (x.kind == e.kind && (decide (x.asked < e.asked) || (x.asked == e.asked
    && (decide (x.id < e.id) || (x.id == e.id && decide (x.code ≤ e.code))))))

/-- A chute as its reader sees it in a cycle: an item is complete from the cycle after its last word on (R355). -/
def Chute.settle (c : Chute) (now : Nat) : Chute :=
  { c with
    items := c.items ++ (c.coming.filter (fun e => decide (e.stop ≤ now))).map (fun e => e.item)
    coming := c.coming.filter (fun e => decide (now < e.stop)) }

/-- A chute. -/
def chuteOf (s : State) (n : Nat) : Chute := (s.chutes.getD n Chute.reset).settle s.cycle

/-- Words of complete items and of the item being read. -/
def Chute.words (c : Chute) : Nat := (c.items.map (fun i => i.words.length)).sum + c.reading.length

/-- Words pushed of the open register-port item, and words it still needs. -/
def Chute.portWords (c : Chute) : Nat × Nat := match c.port with | some (i, need) => (i.words.length, need) | none => (0, 0)

/-- Occupied stages in a cycle: complete items, the item being read, the words pushed so far. -/
def Chute.depth (c : Chute) (now : Nat) : Nat :=
  c.words + c.portWords.1 + (c.coming.map (fun e => min e.item.words.length (now - e.start))).sum

/-- Stages taken: occupied, or reserved for an admitted item (R352). -/
def Chute.taken (c : Chute) : Nat :=
  c.words + c.portWords.1 + c.portWords.2 + ((c.coming ++ c.behind).map (fun e => e.item.words.length)).sum

/-- What CH_STATUS shows: its flags, PKTS and DEPTH. -/
def chuteStatus (s : State) (n : Nat) : Nat :=
  let c := chuteOf s n
  fld s (Reg.CH_STATUS n) 31 29 * 2 ^ 29 + min 32 c.items.length * 256 + c.depth s.cycle

/-- Put a chute back: PKTS leaving 0 signals its vector (R358), in the cycle of the request (log 151). -/
def setChute (s : State) (n : Nat) (c : Chute) : State :=
  let was := chuteOf s n
  let t := { s with chutes := s.chutes.set n c }
  let wait (c : Chute) : Nat := c.coming.length + c.behind.length
  let up := decide (was.items.length + wait was = 0) || (decide (was.items.length ≠ 0) && c.items.isEmpty)
  if bit s (Reg.CH_CFG n) 9 ∧ c.items.length + wait c ≠ 0 ∧ up then signalVec t (fld s (Reg.CH_CFG n) 8 4) else t

/-! The write port (R351): one word a cycle, held to an item's last word; the producers that wait are taken in order. -/

/-- Give the port to the items in order: those that have begun keep their cycle, the others follow from `free` on. -/
def schedule (now : Nat) : Nat → List Coming → List Coming
  | _, [] => []
  | free, e :: l =>
    let e := if e.start < now then e else { e with start := max now free }
    e :: schedule now (max free e.stop) l

/-- Does the register port's open item hold the port? -/
def Chute.held (c : Chute) (now : Nat) : Bool := c.port.isSome && decide (c.portAt < now)

/-- The first cycle in which the port is free of the items that have it or wait. -/
def Chute.freeAt (c : Chute) (now : Nat) : Nat := c.coming.foldl (fun m e => max m e.stop) (max now c.free)

/-- An item joins those that wait for the port. -/
def Chute.join (c : Chute) (now : Nat) (e : Coming) : Chute :=
  if c.held now then { c with behind := c.behind.takeWhile (fun x => x.first e) ++ e :: c.behind.dropWhile (fun x => x.first e) }
  else
    let ahead (x : Coming) : Bool := decide (x.start < now) || x.first e
    let c := { c with coming := schedule now c.free (c.coming.takeWhile ahead ++ { e with start := now } :: c.coming.dropWhile ahead) }
    if c.port.isSome then { c with portAt := c.freeAt now } else c

/-- The register port gives the port up in a cycle, which is its last word's where `used`. -/
def Chute.release (c : Chute) (now : Nat) : Chute :=
  { c with
    port := none
    coming := schedule now (max c.free (now + 1)) (c.coming ++ c.behind.map (fun e => { e with start := now }))
    behind := [] }

/-- A CHUT is answered again (R355, R356): its D, while the lane is in the same work item. -/
def chutAnswer (s : State) (d : Option ChutDest) (v : Nat) : State :=
  match d with
  | some d =>
    match s.ssk.lanes[d.lane]? with
    | some p =>
      if p.item = d.item ∧ d.reg ≠ 0 then { s with ssk := { s.ssk with lanes := s.ssk.lanes.set d.lane { p with s := Tab.set (fun _ => 0) p.s d.reg v } } }
      else s
    | none => s
  | none => s

/-- An item is refused whole (R352). -/
def refuseItem (s : State) (n : Nat) : State :=
  signalVec (setB (inc s (Reg.CH_PUSH_REFUSED n)) (Reg.CH_STATUS n) 29 true) 31

/-- The header word of an item (11, Chute item). -/
def itemHeader (srcType srcId prov gen code len prio : Nat) : Nat :=
  srcType * 2 ^ 60 + (srcId % 256) * 2 ^ 52 + (prov % 2) * 2 ^ 51 + (gen % 2 ^ 16) * 2 ^ 32 + (code % 2 ^ 16) * 2 ^ 16
    + (len % 16) * 2 ^ 12 + (prio % 4) * 2 ^ 10

/-- The place of a SRC_TYPE in the fixed order of the producers (R351). -/
def portKind (srcType : Nat) : Nat :=
  match srcType with | 0 => 0 | 2 | 3 => 1 | 5 => 2 | 4 => 3 | 6 => 4 | 1 => 5 | _ => 6

/-- Push an item for a CHUT or another producer: it is admitted with the next record sequence number, or refused whole (R352). Admission is judged at
the request, on the stages that no admitted item holds or will take (log 151). An item whose header word falls in the cycle of a flush is truncated
by it (R356). -/
def pushFor (s : State) (n : Nat) (r : ItemReq) (dest : Option ChutDest) : State × Bool :=
  let c := chuteOf s n
  let k := r.payload.length + 3
  if c.taken + k ≤ 32 then
    if c.flushed = some s.cycle ∧ c.coming.isEmpty ∧ c.free ≤ s.cycle ∧ !c.held s.cycle then
      (inc (setChute s n { c with free := s.cycle + k }) (Reg.CH_FLUSH_TRUNC n), false)
    else
      let (s, q) := nextRseq s
      let h := itemHeader r.srcType r.srcId (b2n r.prov.isSome) (fld s Reg.SYS_STATUS 31 16) r.code r.payload.length r.prio
      let code := if r.srcType = 0 then r.code else 0
      (setChute s n (c.join s.cycle ⟨⟨r.prio, h :: q :: r.time :: r.payload⟩, s.cycle, portKind r.srcType, s.cycle, r.srcId, code, dest⟩), true)
  else
    let note : Refused := ⟨n, r, dest, bit s (Reg.CH_STATUS n) 29, vecOpen s 31 && !bitOf s.cyc.vecs 31⟩
    let s := refuseItem s n
    ({ s with cyc := { s.cyc with refused := s.cyc.refused ++ [note] } }, false)

/-- Push an item of a producer that waits for no answer. -/
def pushRaw (s : State) (n : Nat) (r : ItemReq) : State × Bool := pushFor s n r none

/-! The Drill Log queue (18 R503 to R507). -/

/-- LOG_STATE: 0 RUN, 1 FULL, 2 FAULT, 3 SCAN. -/
def logState (s : State) : Nat := fld s Reg.NVS_STATUS 15 14

/-- The 64 bytes of a record under a log generation (18, Drill Log record). -/
def logBytes (r : LogRec) (gen : Nat) : List Nat :=
  let b := leBytes 8 r.rseq ++ leBytes 8 r.sec ++ leBytes 4 r.ns ++ leBytes 2 r.gen ++ leBytes 2 r.code ++ leBytes 4 gen
    ++ [r.mode % 256, r.rflags % 256, r.payload.length, 0]
    ++ r.payload ++ List.replicate (28 - r.payload.length) 0
  b ++ leBytes 4 (crc32c b)

/-- A record joins the records that wait for a ring; ring 13 keeps the newest 256 (11, Rings). -/
def ringReady (s : State) (n : Nat) (r : RingRec) : State :=
  let g := s.dma.rings.getD n RingS.reset
  let w := g.waiting ++ [r]
  let w := if n = 13 then w.drop (w.length - 256) else w
  { s with dma := { s.dma with rings := s.dma.rings.set n { g with waiting := w } } }

/-- The ring-13 copy of a record (R503). -/
def logCopy (s : State) (r : LogRec) (stored : Bool) : State :=
  ringReady s 13 ⟨r.rseq, logBytes { r with rflags := if stored then r.rflags else r.rflags % 4 + 4 + r.rflags / 8 * 8 }
    (rd s Reg.NVS_LOG_GEN)⟩

/-- A record of an event at device time `t` ns enters the queue, or is counted (R503, R504, R507). -/
def logAt (s : State) (t code : Nat) (prov : Bool) (payload : List Nat) : State :=
  let (s, q) := nextRseq s
  let fl := b2n prov + (if bit s Reg.TIME_STATUS 3 then 0 else 2) + (if mode s = Mode.lastGasp then 8 else 0)
  let r : LogRec := ⟨q, t / 1000000000, t % 1000000000, fld s Reg.SYS_STATUS 31 16, code, mode s, fl, payload.take 28⟩
  if logState s = 1 ∨ logState s = 2 then logCopy (inc s Reg.NVS_LOG_DROPPED) r false
  else if s.nvs.queue.length ≥ 64 then logCopy (inc s Reg.NVS_LOG_QDROP) r false
  else
    let q := s.nvs.queue ++ [r]
    setF { s with nvs := { s.nvs with queue := q } } Reg.NVS_STATUS 22 16 q.length

/-- A record of an event of this cycle. -/
def logRec (s : State) (code : Nat) (payload : List Nat) : State := logAt s (nowNs s) code false payload

/-! Cross-trigger pins (14 R544). -/

/-- Pulse the XTRIG lines of a mask for 1 µs, where the mode lets them be driven. -/
def pulseXtrig (s : State) (mask : Nat) : State :=
  let ends := s.pins.xtrigEnd.zipIdx.map (fun p => if bitOf mask p.2 then some (s.cycle + 500) else p.1)
  if runsAlarms (mode s) then { s with pins := { s.pins with xtrigEnd := ends } } else s

end Sys2Proof.Machine
end

