-- ==== Sys2Proof/Machine/Dma.lean ====
section
/-! DEFINITION. The host interface: PCIe state, the 16 descriptor rings, interrupts and the read side of the chutes
(11_host_dma_chutes_compression.md). -/

namespace Sys2Proof.Machine

/-! Rings (R339 to R350). -/

/-- A ring. -/
def ringOf (s : State) (r : Nat) : RingS := s.dma.rings.getD r RingS.reset

/-- Put a ring back. -/
def setRing (s : State) (r : Nat) (g : RingS) : State := { s with dma := { s.dma with rings := s.dma.rings.set r g } }

/-- Entries of the queues of a ring: 2^LOG2SIZE, at least 2^4. -/
def ringSize (s : State) (r : Nat) : Nat := 2 ^ max 4 (fld s (Reg.RING_CTRL r) 19 16)

/-- What a descriptor that the host has not written is taken as: out of range. -/
def noDesc : Nat → Desc := fun _ => ⟨0, 0, 0, false, [], []⟩

/-- Descriptors posted: from DESC_HEAD up to DESC_TAIL (R341). -/
def posted (s : State) (r : Nat) : Nat :=
  let n := ringSize s r
  (fld s (Reg.RING_DESC_TAIL r) 15 0 + n - fld s (Reg.RING_DESC_HEAD r) 15 0 % n) % n

/-- Completion entries that may be written: the queue is full one short of its size (R341). -/
def cplRoom (s : State) (r : Nat) : Nat :=
  let n := ringSize s r
  (fld s (Reg.RING_CPL_HEAD r) 15 0 + 2 * n - 1 - fld s (Reg.RING_CPL_TAIL r) 15 0 % n) % n

/-- The ring runs: EN and not HALTED. -/
def ringRuns (s : State) (r : Nat) : Bool := bit s (Reg.RING_CTRL r) 31 && !bit s (Reg.RING_STATUS r) 30

/-- A ring halts (R344). -/
def haltRing (s : State) (r code : Nat) : State :=
  signalVec (setF (setB s (Reg.RING_STATUS r) 30 true) (Reg.RING_STATUS r) 23 16 code) 31

/-- Signal the vector of a ring: it disarms, and every completion written counts as signalled (R348). -/
def signalRing (s : State) (r : Nat) : State :=
  let g := ringOf s r
  signalVec (setRing s r { g with armed := false, unsig := 0 }) (fld s (Reg.RING_CTRL r) 24 20)

/-- Signal the ring where it is armed, enabled to, and `c` holds. -/
def signalIf (s : State) (r : Nat) (c : Bool) : State :=
  if bit s (Reg.RING_CTRL r) 25 && (ringOf s r).armed && c then signalRing s r else s

/-- The address in a pair of registers. -/
def addrOf (s : State) (lo hi : Nat) : Nat := rd s lo + rd s hi * 2 ^ 32

/-- Do completions beyond the threshold stand unsignalled? (R348) -/
def cntDue (s : State) (r : Nat) : Bool := decide (max 1 (fld s (Reg.RING_IRQ_MOD r) 15 0) ≤ (ringOf s r).unsig)

/-- Bytes in host memory. -/
def hostPut (s : State) (a : Nat) (bs : List Nat) : State :=
  { s with dma := { s.dma with hostMem := Memory.put Memory.zero s.dma.hostMem a bs } }

/-- What a completion leads to in the cycle of a write of CPL_HEAD (R349): it counts as unsignalled, and the signal of the next cycle covers it. -/
def rearmed (s : State) (r : Nat) : State :=
  let g := ringOf s r
  if !bit s (Reg.RING_CTRL r) 25 then s
  else if g.armed then
    signalAt (setRing s r { g with armed := false, unsig := 0 }) (fld s (Reg.RING_CTRL r) 24 20) (32 + fld s (Reg.RING_CTRL r) 24 20)
  else setRing s r { g with unsig := 0 }

/-- Write a completion entry (R340, R343) for descriptor `idx`; the last one of a record counts it. A ring that has halted writes none (R344). On
rings 0 to 14 a bus error on the buffer gives ERR and CODE 1. -/
def complete (s : State) (r idx : Nat) (d : Desc) (len flags result : Nat) : State :=
  if bit s (Reg.RING_STATUS r) 30 then s
  else
  let g := ringOf s r
  let flags := if g.bufErr then flags ||| 12 else flags
  let n := ringSize s r
  let t := fld s (Reg.RING_CPL_TAIL r) 15 0
  let e := leBytes 3 len ++ [b2n g.phase + flags * 2] ++ leBytes 2 idx ++ leBytes 2 d.tag ++ leBytes 8 result
  let base := addrOf s (Reg.RING_CPL_BASE_LO r) (Reg.RING_CPL_BASE_HI r)
  let s := { s with dma := { s.dma with hostMem := Memory.put Memory.zero s.dma.hostMem (base + 16 * t) e } }
  let s := setRing s r { g with
    phase := if t + 1 = n then !g.phase else g.phase
    bufErr := false
    unsig := g.unsig + 1
    firstUnsig := if g.unsig = 0 then s.cycle else g.firstUnsig }
  let s := setF s (Reg.RING_CPL_TAIL r) 15 0 ((t + 1) % n)
  let s := if bitOf flags 1 then addW s (Reg.RING_RECORDS r) 1 else s
  if bitOf s.cyc.rearm r then rearmed s r else signalIf s r (d.irq || cntDue s r)

/-- The next descriptor that the device uses, and DESC_HEAD moved past it. -/
def takeDesc (s : State) (r : Nat) : State × Nat × Desc :=
  let h := fld s (Reg.RING_DESC_HEAD r) 15 0
  (setF s (Reg.RING_DESC_HEAD r) 15 0 ((h + 1) % ringSize s r), h, Tab.get noDesc (ringOf s r).q h)

/-- Is a descriptor in range? (11, Descriptor) -/
def descOk (d : Desc) : Bool :=
  decide (d.addr % 8 = 0) && decide (d.len % 8 = 0) && decide (64 ≤ d.len) && decide (d.len ≤ 16777208)

/-- Of the posted descriptors from `h` on, at most `k`, how many hold `n` bytes together. -/
def descsFor (s : State) (r : Nat) : Nat → Nat → Nat → Option Nat
  | 0, _, n => if n = 0 then some 0 else none
  | k + 1, h, n =>
    if n = 0 then some 0
    else (descsFor s r k ((h + 1) % ringSize s r) (n - (Tab.get noDesc (ringOf s r).q h).len)).map (· + 1)

/-- Write a record into `k` descriptors from index `h` on. -/
def placeData (s : State) (r : Nat) : Nat → Nat → List Nat → State
  | 0, _, _ => s
  | k + 1, h, bs =>
    let d := Tab.get noDesc (ringOf s r).q h
    placeData (hostPut s d.addr (bs.take d.len)) r k ((h + 1) % ringSize s r) (bs.drop d.len)

/-- Complete the next `k` descriptors, which hold the `n` bytes of a record between them. -/
def placeCpl (s : State) (r rseq : Nat) : Nat → Nat → Bool → State
  | 0, _, _ => s
  | k + 1, n, first =>
    let (s, h, d) := takeDesc s r
    placeCpl (complete s r h d (min n d.len) (b2n first + (if k = 0 then 2 else 0)) rseq) r rseq k (n - d.len) false

/-- Place a record in `k` descriptors: every data write is issued before the first completion entry (R343). -/
def placeIn (s : State) (r : Nat) (rec : RingRec) (k : Nat) : State :=
  placeCpl (placeData s r k (fld s (Reg.RING_DESC_HEAD r) 15 0) rec.bytes) r rec.rseq k rec.bytes.length true

/-- Ring `r` drops a record that it cannot place (R342). -/
def isDrop (r : Nat) : Bool := r == 0 || r == 1

/-- The chute whose item ring 2 takes next: the lowest-numbered one with READER = 1 that offers an item (R357). -/
def ring2Chute (s : State) : Option Nat :=
  (List.range 4).find? (fun n => bit s (Reg.CH_CFG n) 0 && (chuteOf s n).reading.isEmpty && !(chuteOf s n).items.isEmpty)

/-- The item a chute offers: the oldest of the highest priority, and the others (R353). -/
def offered (l : List Item) : Option (Item × List Item) :=
  match [3, 2, 1, 0].findSome? (fun p => (l.zipIdx).find? (fun i => i.1.prio == p)) with
  | some (i, k) => some (i, l.eraseIdx k)
  | none => none

/-- The record ready at the front of a ring's source (R339). -/
def frontRec (s : State) (r : Nat) : Option RingRec :=
  if r = 2 then
    (ring2Chute s).bind (fun n => (offered (chuteOf s n).items).map
      (fun i => ⟨i.1.words.getD 1 0, (i.1.words.map (leBytes 8)).flatten⟩))
  else if 5 ≤ r ∧ r ≤ 12 then (s.ssk.rings.getD (r - 5) []).head?
  else if r = 14 ∨ r = 15 then none
  else (ringOf s r).waiting.head?

/-- That record leaves its source. -/
def popRec (s : State) (r : Nat) : State :=
  if r = 2 then
    match ring2Chute s with
    | some n =>
      let c := chuteOf s n
      match offered c.items with
      | some (_, rest) => addW (setChute s n { c with items := rest }) (Reg.CH_ITEMS n) 1
      | none => s
    | none => s
  else if 5 ≤ r ∧ r ≤ 12 then
    { s with ssk := { s.ssk with rings := s.ssk.rings.set (r - 5) ((s.ssk.rings.getD (r - 5) []).drop 1) } }
  else setRing s r { ringOf s r with waiting := (ringOf s r).waiting.drop 1 }

/-- A record that cannot be placed: a Drop ring counts and drops it, a Wait ring keeps it (R342, R337). -/
def noPlace (s : State) (r : Nat) : State :=
  if isDrop r then inc (popRec s r) (Reg.RING_NOBUF r) else setRing s r { ringOf s r with tried := true }

/-- Place the record at the front of a ring's source, drop it, or leave it (R342). -/
def placeRec (s : State) (r : Nat) : State :=
  match frontRec s r with
  | none => s
  | some rec =>
    if !busOk s || !ringRuns s r then noPlace s r
    else
      let h := fld s (Reg.RING_DESC_HEAD r) 15 0
      let n := min 64 (posted s r)
      match descsFor s r n h rec.bytes.length with
      | some k =>
        if (List.range k).any (fun i => !descOk (Tab.get noDesc (ringOf s r).q ((h + i) % ringSize s r))) then haltRing s r 4
        else if k ≤ cplRoom s r then
          let s := placeIn s r rec k
          let s := popRec s r
          setRing s r { ringOf s r with tried := false }
        else noPlace s r
      | none =>
        if posted s r ≥ 64 then setB (inc (popRec s r) (Reg.RING_NOBUF r)) (Reg.RING_STATUS r) 29 true
        else noPlace s r

/-- A Wait ring whose record has found no room tries again (R342). -/
def retryRec (s : State) (r : Nat) : State := if (ringOf s r).tried then placeRec s r else s

/-- IDLE follows the jobs taken on ring 15 and the signed command of ring 14, and is 1 on the other rings, whose work ends in the command that
starts it. HALTED clears once EN is 0 and IDLE is 1 (R344). -/
def ringIdle (s : State) (r : Nat) : State :=
  let idle := !(decide (r = 15) && !s.cmp.order.isEmpty) && !(decide (r = 14) && s.key.busy.isSome)
  let s := setB s (Reg.RING_STATUS r) 31 idle
  if idle && !bit s (Reg.RING_CTRL r) 31 then setB s (Reg.RING_STATUS r) 30 false else s

/-- The CNT condition is judged again where IRQ_EN or CNT may have changed (R348). -/
def signalCnt (s : State) (r : Nat) : State := signalIf s r (cntDue s r)

/-- What a write of RING_CTRL does (R345, RING_CTRL). -/
def ringCtrlWrite (s : State) (r v : Nat) : State :=
  ungated s (Reg.RING_CTRL r) fun s =>
    let was := bit s (Reg.RING_CTRL r) 31
    let idle := bit s (Reg.RING_STATUS r) 31
    let s := setF s (Reg.RING_CTRL r) 25 20 (bits v 25 20)
    let s := if !was && idle then setF s (Reg.RING_CTRL r) 19 16 (bits v 19 16) else s
    let s := setB s (Reg.RING_CTRL r) 31 (bitOf v 31)
    if bitOf v 31 then
      if was then signalCnt s r
      else
        let g := ringOf s r
        let s := setRing s r { g with phase := true, unsig := 0, armed := true, tried := false }
        setF (setF s (Reg.RING_DESC_HEAD r) 15 0 0) (Reg.RING_CPL_TAIL r) 15 0 0
    else signalCnt (if bit s (Reg.RING_STATUS r) 31 then setB s (Reg.RING_STATUS r) 30 false else s) r

/-- RING_ENABLE: a write of RING_CTRL with EN = 1. -/
def execRingEnable (ring : Fin 16) (v : Word) (s : State) : Out :=
  .next (ringCtrlWrite s ring (setBitN v.toNat 31))

/-- RING_DISABLE: a write of RING_CTRL with EN = 0. -/
def execRingDisable (ring : Fin 16) (v : Word) (s : State) : Out :=
  .next (ringCtrlWrite s ring (clrBitN v.toNat 31))

/-- Descriptors written by the host from an index on. -/
def putDescs (q : Tab Desc) (n : Nat) : Nat → List Desc → Tab Desc
  | _, [] => q
  | h, d :: ds => putDescs (Tab.put q h d) n ((h + 1) % n) ds

/-- A write of DESC_TAIL (R342): the host posts the descriptors from the old tail to the new one; a waiting record tries again. -/
def descTailWrite (s : State) (r v : Nat) (descs : List Desc) : State :=
  ungated s (Reg.RING_DESC_TAIL r) fun s =>
    let n := ringSize s r
    let old := fld s (Reg.RING_DESC_TAIL r) 15 0 % n
    let new := bits v 15 0 % n
    let k := (new + n - old) % n
    let s := setRing s r { ringOf s r with q := putDescs (ringOf s r).q n old (descs.take k) }
    retryRec (setF s (Reg.RING_DESC_TAIL r) 15 0 new) r

/-- Descriptors in host memory that no command has described: every field is free (log 4). -/
def freeDescs : Nat → State → State × List Desc
  | 0, s => (s, [])
  | k + 1, s =>
    let (s, a) := fresh s (2 ^ 64)
    let (s, l) := fresh s (2 ^ 24)
    let (s, t) := fresh s (2 ^ 16)
    let (s, i) := fresh s 2
    let (s, x) := fresh s (2 ^ (8 * l))
    let (s, ds) := freeDescs k s
    (s, ⟨a, l, t, i == 1, leBytes l x, []⟩ :: ds)

/-- A write of DESC_TAIL whose descriptors are not given. -/
def descTailFree (s : State) (r v : Nat) : State :=
  let n := ringSize s r
  let (s, ds) := freeDescs ((bits v 15 0 % n + n - fld s (Reg.RING_DESC_TAIL r) 15 0 % n) % n) s
  descTailWrite s r v ds

/-- DESC_TAIL_WRITE (R342). -/
def execDescTailWrite (ring : Fin 16) (v : Word) (descs : List Desc) (s : State) : Out := .next (descTailWrite s ring v.toNat descs)

/-- A write of CPL_HEAD (R349): completion entries are freed and the ring is armed again; completions beyond the new head signal again, in the cycle
after the write. -/
def cplHeadWrite (s : State) (r v : Nat) : State :=
  ungated s (Reg.RING_CPL_HEAD r) fun s =>
    let n := ringSize s r
    let new := bits v 15 0 % n
    let s := setF s (Reg.RING_CPL_HEAD r) 15 0 new
    let left := (fld s (Reg.RING_CPL_TAIL r) 15 0 + n - new) % n
    let s := setRing s r { ringOf s r with armed := true, unsig := left, firstUnsig := s.cycle }
    let s := { s with cyc := { s.cyc with rearm := setBitN s.cyc.rearm r } }
    let s := if left = 0 then s else rearmed s r
    retryRec s r

/-- CPL_HEAD_WRITE (R349). -/
def execCplHeadWrite (ring : Fin 16) (v : Word) (s : State) : Out := .next (cplHeadWrite s ring v.toNat)

/-- RECORD_PLACE (R342); in HALT the interface is out of service (02 R42). -/
def execRecordPlace (ring : Fin 16) (s : State) : Out := if mode s = Mode.halt then .next s else .next (placeRec s ring)

/-- A write of IRQ_MOD (R348). -/
def irqModWrite (s : State) (r v : Nat) : State := signalCnt (wr s (Reg.RING_IRQ_MOD r) v) r

/-- IRQ_MOD_TIMEOUT (R348): USEC µs after the first unsignalled completion the ring signals. -/
def execIrqModTimeout (ring : Fin 16) (s : State) : Out :=
  let r := ring.val
  let g := ringOf s r
  let us := fld s (Reg.RING_IRQ_MOD r) 31 16
  if mode s = Mode.halt ∨ g.unsig = 0 ∨ !g.armed ∨ !bit s (Reg.RING_CTRL r) 25 then .next s
  else .next (signalIf (passCyc s (g.firstUnsig + 500 * us)) r true)

/-- DMA_ERROR_COMPLETION (R344): an error completion on a running ring, by ERR_CODE, halts it; code 5 is a bus error on the buffer of the next
descriptor of a ring below 15, which the completion shows (R340, log 152). -/
def execDmaErrorCompletion (ring : Fin 16) (code : Fin 6) (s : State) : Out :=
  if mode s = Mode.halt ∨ code.val = 0 ∨ !ringRuns s ring then .next s
  else if code.val = 5 then
    (if ring.val = 15 then .next s else .next (setRing s ring { ringOf s ring with bufErr := true }))
  else .next (haltRing s ring code)

/-- FUNCTION_LEVEL_RESET (R338): every ring stops, its records and the host's compression jobs are abandoned, MSI-X is reset, and no configuration
request is accepted for 100 ms. -/
def execFunctionLevelReset (s : State) : Out :=
  let hostJob : Option CmpJob → Bool := fun j => match j with | some j => j.queue == 2 | none => false
  let gone := (s.cmp.run.filter hostJob).length + (s.cmp.queues.getD 2 []).length
  let s := { s with cmp := { s.cmp with
    queues := s.cmp.queues.set 2 []
    run := s.cmp.run.map (fun j => if hostJob j then none else j)
    order := [] } }
  let s := addC (addC s Reg.CMP_JOBS gone) Reg.CMP_ERR_CNT gone
  let s := setF s Reg.CMP_STATUS 1 0 (b2n (s.cmp.run.getD 0 none).isSome + 2 * b2n (s.cmp.run.getD 1 none).isSome)
  let s := (List.range 16).foldl (fun s r =>
    let s := setB s (Reg.RING_CTRL r) 31 false
    let s := setB (setB s (Reg.RING_STATUS r) 31 true) (Reg.RING_STATUS r) 30 false
    let g := ringOf s r
    setRing s r { g with unsig := 0, tried := false, waiting := if isDrop r then [] else g.waiting, bufErr := false }) s
  let s := { s with dma := { s.dma with
    msixMask := 2 ^ 32 - 1, msixPend := 0, msixTab := [], msixEn := false, msixAll := false, owed := [], cfgAt := s.cycle + 50000000 } }
  let s := { s with key := { s.key with busy := s.key.busy.map (fun b => { b with desc := none }) } }
  .next (logRec s 0x0003 [])

/-- An answer in a ring's buffer, with its completion; it waits where the bus cannot be mastered (R337), and a ring that has halted gives none. -/
def answerIn (s : State) (o : Owed) : State :=
  if bit s (Reg.RING_STATUS o.ring) 30 then s
  else if !busOk s then { s with dma := { s.dma with owed := s.dma.owed ++ [o] } }
  else complete (hostPut s o.desc.addr o.bytes) o.ring o.idx o.desc o.bytes.length o.flags o.result

/-- The bus may have come back (R337, R350): answers that waited go out, and vectors that pend send. -/
def busBack (s : State) : State :=
  if !busOk s then s else sendPend (s.dma.owed.foldl answerIn { s with dma := { s.dma with owed := [] } })

/-- PCIE_LINK_CHANGE (R337). -/
def execPcieLinkChange (up : Bool) (s : State) : Out := .next (busBack { s with dma := { s.dma with linkUp := up } })

/-- PCIE_CONFIG_WRITE (R336, R337). It is not accepted in the 100 ms after a Function Level Reset (R338). -/
def execPcieConfigWrite (ctl : PcieCtl) (msix : MsixCtl) (s : State) : Out :=
  if s.cycle < s.dma.cfgAt then .next s
  else .next (busBack { s with dma := { s.dma with bme := ctl.bme, d3hot := ctl.d3hot, msixEn := msix.enable, msixAll := msix.maskAll, mps := ctl.mps, mrrs := ctl.mrrs } })

/-- What the function identifies itself as (R336): Device ID, class code, Revision ID. The Vendor ID is Porvon's registered one. -/
def pcieIdentity (s : State) : Nat × Nat × Nat := (0x8192, 0x118000, fld s Reg.SYS_STEP 7 0)

/-! BAR2: the MSI-X table and the pending-bit array (01 R32). The model numbers its bytes from 0x20_0000 on, after those of BAR0 (log 153). -/

/-- Is an offset in BAR2? -/
def inBar2 (off : Nat) : Bool := decide (0x200000 ≤ off) && decide (off < 0x210000) && off % 4 == 0

/-- A word of BAR2: message address, its high half, message data and vector control of each vector; the pending bits at 0x8000. -/
def bar2Word (s : State) (off : Nat) : Nat :=
  let a := off - 0x200000
  if a < 0x200 then
    (if a % 16 = 12 then b2n (bitOf s.dma.msixMask (a / 16)) else Tab.get (fun _ => 0) s.dma.msixTab (a / 4))
  else if a = 0x8000 then s.dma.msixPend % 2 ^ 32
  else 0

/-- A write of BAR2: an entry of the table; a vector that is unmasked while it pends sends (R350). Message addresses are multiples of 4. -/
def bar2Write (s : State) (off v : Nat) : State :=
  let a := off - 0x200000
  if 0x200 ≤ a then s
  else if a % 16 = 12 then
    let m := s.dma.msixMask
    sendPend { s with dma := { s.dma with msixMask := if bitOf v 0 then setBitN m (a / 16) else clrBitN m (a / 16) } }
  else { s with dma := { s.dma with msixTab := Tab.set (fun _ => 0) s.dma.msixTab (a / 4) (if a % 16 = 0 then v / 4 * 4 else v) } }

/-! The read side and the register port of the chutes (R353 to R359). -/

/-- What a read of CH_RD_LO returns and does: a full read pops one word (R354), and latches its high half. -/
def chutePop (s : State) (n : Nat) (full : Bool) : State × Nat :=
  let c := chuteOf s n
  let lo := c.last % 2 ^ 32
  if !full then (s, lo)
  else
    let give (s : State) (c : Chute) (w : Nat) (rest : List Nat) : State × Nat :=
      let s := setChute s n { c with reading := rest, last := w }
      let s := wr (wr s (Reg.CH_RD_HI n) (w / 2 ^ 32)) (Reg.CH_RD_LO n) w
      (if rest.isEmpty then addW s (Reg.CH_ITEMS n) 1 else s, w % 2 ^ 32)
    if bit s (Reg.CH_CFG n) 0 then (setB s (Reg.CH_STATUS n) 31 true, lo)
    else
      match c.reading with
      | w :: rest => give s c w rest
      | [] =>
        match offered c.items with
        | some (⟨_, w :: rest⟩, others) => give s { c with items := others } w rest
        | _ => (setB s (Reg.CH_STATUS n) 31 true, lo)

/-- What a write of CH_CFG does: its RW fields, and a flush where FLUSH is 1 (R356). -/
def chCfgWrite (s : State) (n v : Nat) : State :=
  ungated s (Reg.CH_CFG n) fun s =>
    let s := setF s (Reg.CH_CFG n) 9 4 (bits v 9 4)
    let s := setB s (Reg.CH_CFG n) 0 (bitOf v 0)
    if bitOf v 16 then
      let c := chuteOf s n
      let cut := c.coming.filter (fun e => decide (e.start ≤ s.cycle))
      let s := addC s (Reg.CH_FLUSH_TRUNC n) (cut.length + b2n c.port.isSome)
      let s := if c.reading.isEmpty then s else setB s (Reg.CH_STATUS n) 30 true
      let skip := match c.port with | some (_, need) => c.portSkip + need | none => c.portSkip
      let c' := { c with
        items := [], reading := [], portSkip := skip, flushed := some s.cycle
        coming := c.coming.filter (fun e => decide (s.cycle < e.start))
        free := cut.foldl (fun m (e : Coming) => max m e.stop) c.free }
      cut.foldl (fun s e => chutAnswer s e.dest 0) (setChute s n (if c.held s.cycle then c'.release s.cycle else { c' with port := none }))
    else s

/-- CHUTE_FLUSH (R356): a write of CH_CFG with FLUSH = 1. -/
def execChuteFlush (ch : Fin 4) (v : Word) (s : State) : Out := .next (chCfgWrite s ch (setBitN v.toNat 16))

/-- The open item of the register port, once it has every word, is complete from the next cycle on, or once it has had the port for its words. -/
def portDone (s : State) (n : Nat) (c : Chute) : State :=
  match c.port with
  | some (i, 0) =>
    let start := max c.portAt (s.cycle + 1 - i.words.length)
    let e : Coming := ⟨i, start, portKind 7, s.cycle, 0, 0, none⟩
    if start < s.cycle then setChute s n ({ c with coming := c.coming ++ [e] }.release s.cycle) else setChute s n ({ c with port := none }.join s.cycle e)
  | _ => setChute s n c

end Sys2Proof.Machine
end

