-- ==== Sys2Proof/Machine/Compress.lean ====
section
/-! DEFINITION. The compression engines (11_host_dma_chutes_compression.md R360 to R364): raw DEFLATE in one fixed-Huffman block over
the matches that Config.lzTokens finds (log 15), the Porvon block header, the job queues. -/

namespace Sys2Proof.Machine

/-- A code word's bits, most significant first. -/
def codeBits (n c : Nat) : List Nat := ((List.range n).map (fun i => c / 2 ^ i % 2)).reverse

/-- Extra bits, least significant first. -/
def extraBits (n v : Nat) : List Nat := (List.range n).map (fun i => v / 2 ^ i % 2)

/-- The fixed-Huffman code word of a literal or length symbol (RFC 1951). -/
def litCode (s : Nat) : List Nat :=
  if s < 144 then codeBits 8 (0x30 + s)
  else if s < 256 then codeBits 9 (0x190 + (s - 144))
  else if s < 280 then codeBits 7 (s - 256)
  else codeBits 8 (0xC0 + (s - 280))

/-- Base lengths of the length symbols 257 to 285. -/
def lenBase : List Nat := [3, 4, 5, 6, 7, 8, 9, 10, 11, 13, 15, 17, 19, 23, 27, 31, 35, 43, 51, 59, 67, 83, 99, 115, 131, 163, 195, 227, 258]
/-- Their extra bits. -/
def lenExtra : List Nat := [0, 0, 0, 0, 0, 0, 0, 0, 1, 1, 1, 1, 2, 2, 2, 2, 3, 3, 3, 3, 4, 4, 4, 4, 5, 5, 5, 5, 0]
/-- Base distances of the distance symbols. -/
def distBase : List Nat := [1, 2, 3, 4, 5, 7, 9, 13, 17, 25, 33, 49, 65, 97, 129, 193, 257, 385, 513, 769, 1025, 1537, 2049, 3073, 4097,
  6145, 8193, 12289, 16385, 24577]

/-- The last index of a rising list whose entry is at most `v`. -/
def lastLe (l : List Nat) (v : Nat) : Nat := (l.filter (fun b => decide (b ≤ v))).length - 1

/-- The bits of a token: (0, literal) or (length, distance). -/
def tokenBits (t : Nat × Nat) : List Nat :=
  if t.1 = 0 then litCode (t.2 % 256)
  else
    let i := lastLe lenBase t.1
    let j := lastLe distBase t.2
    litCode (257 + i) ++ extraBits (lenExtra.getD i 0) (t.1 - lenBase.getD i 0)
      ++ codeBits 5 j ++ extraBits (if j < 2 then 0 else (j - 2) / 2) (t.2 - distBase.getD j 0)

/-- How many input bytes a token stands for. -/
def tokenLen (t : Nat × Nat) : Nat := if t.1 = 0 then 1 else t.1

/-- Is a token possible, and does it stand for the next bytes? `rev` is the input before it, newest first. -/
def tokenOk (rev input : List Nat) (t : Nat × Nat) : Bool :=
  if t.1 = 0 then input.head? == some t.2
  else decide (3 ≤ t.1) && decide (t.1 ≤ 258) && decide (1 ≤ t.2) && decide (t.2 ≤ 32768) && decide (t.2 ≤ rev.length)
    && input.take t.1 == (List.range t.1).map (fun i => rev.getD (t.2 - 1 - i % t.2) 0) && decide (t.1 ≤ input.length)

/-- The tokens that stand for an input exactly: those given while they fit, literals else. -/
def saneTokens : Nat → List Nat → List Nat → List (Nat × Nat) → List (Nat × Nat)
  | 0, _, _, _ => []
  | _ + 1, _, [], _ => []
  | n + 1, rev, b :: input, t :: ts =>
    if tokenOk rev (b :: input) t then
      let k := tokenLen t
      t :: saneTokens n (((b :: input).take k).reverse ++ rev) ((b :: input).drop k) ts
    else (0, b) :: saneTokens n (b :: rev) input ts
  | n + 1, rev, b :: input, [] => (0, b) :: saneTokens n (b :: rev) input []

/-- The tokens of an input (R361): the same input always gives the same ones. -/
def tokensOf (input : List Nat) : List (Nat × Nat) := saneTokens input.length [] input (Config.lzTokens input)

/-- Append whole code words while they fit (R364): outcome (0 done, 1 CMP_DSTFULL, 2 CMP_NOGAIN), bits in reverse order, input bytes read. -/
def appendTokens (orig dst : Nat) : List (Nat × Nat) → List Nat → Nat → Nat → Nat × List Nat × Nat
  | [], acc, _, rd => (0, acc, rd)
  | t :: ts, acc, n, rd =>
    let b := tokenBits t
    let bytes := ceilDiv (n + b.length + 7) 8
    if orig ≤ bytes then (2, acc, rd + tokenLen t)
    else if dst < 32 + bytes then (1, acc, rd + tokenLen t)
    else appendTokens orig dst ts (b.reverse ++ acc) (n + b.length) (rd + tokenLen t)

/-- Bits, first bit least significant in its byte, padded with zeros (R361). -/
def packBits : Nat → List Nat → List Nat
  | 0, _ => []
  | _ + 1, [] => []
  | n + 1, b :: bs => ofBits ((b :: bs).take 8) :: packBits n ((b :: bs).drop 8)
where
  /-- The byte of eight bits. -/
  ofBits : List Nat → Nat
  | [] => 0
  | b :: bs => b + 2 * ofBits bs

/-- A Porvon block header (R362). -/
def blockHeader (method last orig comp crc tag : Nat) : List Nat :=
  let b := [0x50, 0x42, 0x4C, 0x4B, 1, method] ++ leBytes 2 last ++ leBytes 4 orig ++ leBytes 4 comp ++ leBytes 4 crc
    ++ leBytes 4 tag ++ [0, 0, 0, 0]
  b ++ leBytes 4 (crc32c b)

/-- What a job gives (R364): its outcome, the payload, ORIG_CRC, the input bytes read up to its end. -/
structure Deflated where
  code : Nat
  payload : List Nat
  crc : Nat
  read : Nat

/-- Compress an input for a destination of `dst` bytes. -/
def deflate (input : List Nat) (dst : Nat) : Deflated :=
  let (code, acc, rd) := appendTokens input.length dst (tokensOf input) [0, 1, 1] 3 0
  let bs := acc.reverse ++ codeBits 7 0
  if code = 0 then ⟨0, packBits (ceilDiv bs.length 8) bs, crc32c input, input.length⟩
  else ⟨code, [], crc32c (input.take rd), min rd input.length⟩

/-- A compressed block of a capture record: the DEFLATE block, or a stored block where there is no gain (14 R421). -/
def captureBlock (input : List Nat) (tag : Nat) (last : Bool) : List Nat :=
  let d := deflate input (input.length + 32)
  if d.code = 0 then blockHeader 1 (b2n last) input.length d.payload.length d.crc tag ++ d.payload
  else blockHeader 0 (b2n last) input.length input.length (crc32c input) tag ++ input

/-- The job of a ring-15 job block, and its input: what host memory holds from SRC_ADDR on. Bytes that no command has described are free (log 6). -/
def hostJob (free idx : Nat) (d : Desc) : CmpJob :=
  let w (a n : Nat) := ofLe ((d.data.drop a).take n)
  let srcLen := w 8 4
  let dstLen := w 12 4
  let ok := decide (1 ≤ srcLen) && decide (srcLen ≤ 16777216) && decide (64 ≤ dstLen) && decide (w 16 8 % 8 = 0)
  ⟨2, if ok then (List.range srcLen).map (fun i => d.src.getD i (Config.fresh (free + (i - d.src.length)) % 256)) else [], dstLen, 2, w 16 8, bitOf (w 24 4) 0, w 28 4, (idx, d.tag), ok, d.irq⟩

/-- The engine bits of CMP_STATUS.BUSY follow the jobs that run. -/
def cmpBusy (s : State) : State :=
  setF s Reg.CMP_STATUS 1 0 (b2n (s.cmp.run.getD 0 none).isSome + 2 * b2n (s.cmp.run.getD 1 none).isSome)

/-- An engine starts a job. -/
def cmpRun (s : State) (e : Nat) (j : CmpJob) : State :=
  cmpBusy { s with cmp := { s.cmp with run := s.cmp.run.set e (some j) } }

/-- CMP_JOB_START (R360): a free engine takes the oldest job of the first non-empty queue: capture, firmware, host. -/
def execCmpJobStart (engine : Fin 2) (s : State) : Out :=
  let e := engine.val
  if (s.cmp.run.getD e none).isSome ∨ !bit s Reg.CMP_CTRL e ∨ !domOn s (25 + e) then .next s
  else
    match s.cmp.queues.getD 0 [], s.cmp.queues.getD 1 [] with
    | j :: js, _ => .next (cmpRun { s with cmp := { s.cmp with queues := s.cmp.queues.set 0 js } } e j)
    | [], j :: js => .next (cmpRun { s with cmp := { s.cmp with queues := s.cmp.queues.set 1 js } } e j)
    | [], [] =>
      if bit s Reg.CMP_CTRL 2 ∨ !ringRuns s 15 ∨ !busOk s ∨ posted s 15 = 0 ∨ cplRoom s 15 ≤ s.cmp.order.length then .next s
      else
        let (s, h, d) := takeDesc s 15
        if !descOk d ∨ d.len ≠ 64 then .next (haltRing s 15 4)
        else
          let job := hostJob s.freeCtr h d
          let s := { s with freeCtr := s.freeCtr + (job.input.length - d.src.length) }
          let s := { s with cmp := { s.cmp with order := s.cmp.order ++ [⟨(h, d.tag), d.irq, none⟩] } }
          .next (ringIdle (cmpRun s e job) 15)

/-- Complete the ring-15 jobs at the front whose outcome is known, in descriptor order (R360). -/
def completeHost : Nat → State → State
  | 0, s => s
  | k + 1, s =>
    match s.cmp.order with
    | ⟨(idx, tag), irq, some o⟩ :: rest =>
      let s := { s with cmp := { s.cmp with order := rest } }
      let s := complete s 15 idx ⟨0, 0, tag, irq, [], []⟩ o.len (3 + (if o.code = 0 then 0 else 4) + o.code * 8) (o.crc + o.compLen * 2 ^ 32)
      completeHost k s
    | _ => s

/-- What an unlisted byte of a NOR device reads as: erased (log 3). -/
def norDef : Nat → Byte := fun _ => 255

/-- A NOR device. -/
def norOf (s : State) (d : Nat) : NorS := s.nvs.nor.getD d ⟨true, [], none⟩

/-- Put a NOR device back. -/
def setNor (s : State) (d : Nat) (n : NorS) : State := { s with nvs := { s.nvs with nor := s.nvs.nor.set d n } }

/-- Program bytes. -/
def norPut (s : State) (d a : Nat) (bs : List Nat) : State :=
  setNor s d { norOf s d with mem := Memory.put norDef (norOf s d).mem a bs }

/-- Where a block goes: header last, after the whole payload (R362). An address in NOR carries the device above bit 31. -/
def writeBlock (s : State) (j : CmpJob) (bs : List Nat) : State :=
  match j.dst with
  | 1 => norPut s (j.addr / 2 ^ 32) (j.addr % 2 ^ 32) bs
  | 0 => { s with hist := Memory.put Memory.zero s.hist j.addr bs }
  | 2 => { s with dma := { s.dma with hostMem := Memory.put Memory.zero s.dma.hostMem j.addr bs } }
  | 3 =>
    let (s, q) := nextRseq s
    ringReady s 4 ⟨q, bs⟩
  | _ => s

/-- A capture job's block joins its record, named by its RSEQ (14 R421). -/
def addCaptureBlock (s : State) (j : CmpJob) : State :=
  let add (r : CapRec) : CapRec :=
    if r.rseq = j.desc.1 then { r with blocks := Tab.put r.blocks j.tag (captureBlock j.input j.tag j.last) } else r
  { s with cap := { s.cap with staged := s.cap.staged.map add } }

/-- The destination bytes from offset 32 on of a job that ended without a block are undefined (R364): free values. -/
def scrambleDst (s : State) (j : CmpJob) : State :=
  match j.dst with
  | 1 =>
    let n := j.dstLen - 32
    let bs := (List.range n).map (fun i => Config.fresh (s.freeCtr + i) % 256)
    norPut { s with freeCtr := s.freeCtr + n } (j.addr / 2 ^ 32) (j.addr % 2 ^ 32 + 32) bs
  | 0 =>
    let n := j.dstLen - 32
    let bs := (List.range n).map (fun i => Config.fresh (s.freeCtr + i) % 256)
    { s with freeCtr := s.freeCtr + n, hist := Memory.put Memory.zero s.hist (j.addr + 32) bs }
  | 2 =>
    let n := j.dstLen - 32
    let bs := (List.range n).map (fun i => Config.fresh (s.freeCtr + i) % 256)
    { s with freeCtr := s.freeCtr + n, dma := { s.dma with hostMem := Memory.put Memory.zero s.dma.hostMem (j.addr + 32) bs } }
  | _ => s

/-- CMP_JOB_COMPLETE (R364): a job ends with its outcome; `busErr` 1 is a failed source read, 2 a failed destination write. A job whose block goes to host
memory goes on while the bus cannot be mastered (R337); one of ring 15 writes nothing more once that has halted (R344). -/
def execCmpJobComplete (engine : Fin 2) (busErr : Fin 3) (s : State) : Out :=
  let e := engine.val
  match s.cmp.run.getD e none with
  | none => .next s
  | some j =>
    if j.dst = 2 ∧ !busOk s then .next s
    else
    let d := deflate j.input j.dstLen
    let code := if !j.paramOk then 5 else if busErr.val = 1 then 3 else if busErr.val = 2 then 4 else d.code
    let s := cmpBusy { s with cmp := { s.cmp with run := s.cmp.run.set e none } }
    let s := inc s Reg.CMP_JOBS
    let s := if code = 1 then inc s Reg.CMP_DSTFULL_CNT else s
    let s := if code = 2 then inc s Reg.CMP_NOGAIN_CNT else s
    let s := if 3 ≤ code then inc s Reg.CMP_ERR_CNT else s
    let s := if code ≤ 2 then addW s Reg.CMP_IN_KIB (d.read / 1024) else s
    let s := if j.queue = 1 then setF s Reg.CMP_STATUS 27 24 code else s
    let comp := if code = 0 then d.payload.length else 0
    let bs := blockHeader 1 (b2n j.last) j.input.length comp d.crc j.tag ++ d.payload
    if j.queue = 0 then .next (addCaptureBlock s j)
    else
      let s := if j.queue = 2 ∧ bit s (Reg.RING_STATUS 15) 30 then s else if code = 0 then writeBlock s j bs else if code ≤ 2 then scrambleDst s j else s
      if j.queue = 2 then
        let o : CmpOut := ⟨code, if code = 0 then 32 + comp else 0, if code ≤ 2 then d.crc else 0, comp⟩
        let order := s.cmp.order.map (fun t => if t.desc = j.desc then { t with out := some o } else t)
        let s := { s with cmp := { s.cmp with order := order } }
        .next (ringIdle (completeHost order.length s) 15)
      else .next s

end Sys2Proof.Machine
end

