-- ==== Sys2Proof/Machine/Capture.lean ====
section
/-! DEFINITION. Disturbance capture (14_capture.md): trigger inputs and events, record logic, shavings, sequencers, the commit to
NOR; and what pushing a chute item does to the event taps. -/

namespace Sys2Proof.Machine

/-! Configuration in use. -/

/-- Word `j` of entry `i` of a window in the copy in use. -/
def cw (s : State) (w i j : Nat) : Nat := getC s.cfg w i j

/-- PRE_MS, POST_MS, MAX_POST_MS, REARM_MS (CAP_WIN, CAP_WIN2). -/
def preMs (s : State) : Nat := bits (cw s Reg.CAP_WIN 0 0) 31 16
def postMs (s : State) : Nat := bits (cw s Reg.CAP_WIN 0 0) 15 0
def maxPostMs (s : State) : Nat := bits (cw s Reg.CAP_WIN2 0 0) 31 16
def rearmMs (s : State) : Nat := bits (cw s Reg.CAP_WIN2 0 0) 15 0

/-- A millisecond in the units of device time. -/
abbrev msU : Nat := 1000000 * 2 ^ 48

/-- An instant held to 1/65,536 ns, rounded to nearest (R411). -/
def round16 (t : Nat) : Nat := (t + 2 ^ 31) / 2 ^ 32 * 2 ^ 32

/-- CAP_STATUS.STATE: 0 DISARMED, 1 ARMED, 2 POST, 3 REARM. -/
def capState (s : State) : Nat := fld s Reg.CAP_STATUS 1 0

/-- STAGED follows the closed records that await commit. -/
def setStaged (s : State) (l : List CapRec) : State :=
  setF { s with cap := { s.cap with staged := l } } Reg.CAP_STATUS 5 4 l.length

/-! A trigger that makes no record (R417). -/

/-- Its log entry and the count of entries in the re-arm period. -/
def norecLog (s : State) (inst input reason : Nat) : State :=
  if s.cap.suppN ≥ 16 then { s with cap := { s.cap with supp := s.cap.supp + 1 } }
  else
    let s := logAt s (inst / nsU) 0x0061 false [input, reason, 0, 0]
    { s with cap := { s.cap with suppN := s.cap.suppN + 1 } }

/-- A record trigger that neither starts nor extends a record: counted, reported, logged; the entry of a provisional event waits
for the seal of its blank (R417, R194). -/
def norec (s : State) (e : CapEv) (reason : Nat) : State :=
  let s := inc s Reg.CAP_NOREC
  let s := (pushRaw s 0 ⟨5, 0, e.prov, 0x0501, 1, e.inst / nsU, [e.input + reason * 256]⟩).1
  match e.prov with
  | some k => { s with cap := { s.cap with provLog := s.cap.provLog ++ [(k, e.inst, e.input, reason)] } }
  | none => norecLog s e.inst e.input reason

/-- At the seal of a blank the entries that waited for it are written; where it is retired unsealed they never are. -/
def norecSealed (s : State) (k : Nat) (isSealed : Bool) : State :=
  let mine := s.cap.provLog.filter (fun p => p.1 == k)
  let s := { s with cap := { s.cap with provLog := s.cap.provLog.filter (fun p => p.1 != k) } }
  if isSealed then mine.foldl (fun s p => norecLog s p.2.1 p.2.2.1 p.2.2.2) s else s

/-! Records (R415, R416). -/

/-- The record that an event starts. -/
def newRec (s : State) (q : Nat) (e : CapEv) : CapRec :=
  let t := e.inst
  let want := t - preMs s * msU
  let oldest := match s.cap.hist.head? with | some h => h.t * nsU | none => 0
  let st := max want (max (s.cap.histStart * nsU) oldest)
  ⟨q, t, e.input, st, preMs s, (t - st) / (1000 * nsU), t + postMs s * msU, false, e.prov, false, decide (t < st + preMs s * msU), false, false,
   fld s Reg.SYS_STATUS 31 16, e.cyc, false, [], [], [], 0, false⟩

/-- Start a record: POST, and the pulses of XOUT (R415). -/
def startRec (s : State) (e : CapEv) : State :=
  let (s, q) := nextRseq s
  let s := setF { s with cap := { s.cap with cur := some (newRec s q e), suppN := 0, supp := 0 } } Reg.CAP_STATUS 1 0 2
  pulseXtrig s (fld s Reg.CAP_CTRL 19 16)

/-- What a record trigger does in each state of the record logic (R415 to R417). -/
def recTrigger (s : State) (e : CapEv) : State :=
  match capState s, s.cap.cur with
  | 1, _ => if s.cap.staged.length ≥ 2 then norec s e 1 else startRec s e
  | 2, some r =>
    if r.startCyc = e.cyc then
      if e.inst < r.trig ∨ (e.inst = r.trig ∧ e.input < r.input) then
        let s' := { s with cap := { s.cap with cur := some (newRec s r.rseq e) } }
        norec s' ⟨r.startCyc, r.input, r.trig, r.prov⟩ 0
      else norec s e 0
    else if bitOf (cw s Win.CAP_IN e.input 0) 30 then
      let stop := min (e.inst + postMs s * msU) (r.trig + maxPostMs s * msU)
      inc { s with cap := { s.cap with cur := some { r with spanEnd := stop, ext := true, spanDone := false } } } Reg.CAP_EXTENDS
    else norec s e 0
  | 3, _ => norec s e 0
  | _, _ => s

/-- An event of a trigger input in a cycle (R407, R411): sequencers may take it in that cycle, and an input with DIRECT = 1 triggers a
record. -/
def capEventAt (s : State) (cyc input inst : Nat) (prov : Option Nat) : State :=
  if runsLathe (mode s) then
    let e : CapEv := ⟨cyc, input, round16 inst, prov⟩
    let s := { s with cap := { s.cap with evs := s.cap.evs.filter (fun x => decide (s.cycle ≤ x.cyc)) ++ [e] } }
    if bitOf (cw s Win.CAP_IN input 0) 31 then recTrigger s e else s
  else s

/-- An event of this cycle. -/
def capEvent (s : State) (input inst : Nat) (prov : Option Nat) : State := capEventAt s s.cycle input inst prov

/-- The level of a trigger input. -/
def lvlOf (s : State) (i : Nat) : CapLvl := Tab.get (fun _ => ⟨0, none, 0⟩) s.cap.lvl i

/-- Set it, with the instant of a change. -/
def setLvl (s : State) (i lvl : Nat) (prov : Option Nat) (t : Nat) : State :=
  if (lvlOf s i).lvl = lvl then
    { s with cap := { s.cap with lvl := Tab.set (fun _ => ⟨0, none, 0⟩) s.cap.lvl i { lvlOf s i with prov := prov } } }
  else { s with cap := { s.cap with lvl := Tab.set (fun _ => ⟨0, none, 0⟩) s.cap.lvl i ⟨lvl, prov, t⟩ } }

/-! Chute items and their taps (11 R351, 14 R410). -/

/-- Does a tap match a header word? -/
def tapMatch (s : State) (h i : Nat) : Bool :=
  let d0 := cw s Win.CAP_TAP i 0
  let d1 := cw s Win.CAP_TAP i 1
  let code := bits h 31 16
  let mask := bits d1 15 0
  bitOf d0 31 && bits h 63 60 == bits d0 30 28 && (bitOf d0 19 || bits h 59 52 == bits d0 27 20)
    && (code &&& mask) == (bits d1 31 16 &&& mask)

/-- The taps that an admitted item fires. -/
def fireTaps (s : State) (h time : Nat) (prov : Option Nat) : State :=
  if bits h 63 60 = 5 then s
  else (List.range 16).foldl (fun s i => if tapMatch s h i then capEvent s (0x80 + i) (time * nsU) prov else s) s

/-- Push an item and fire the taps it matches. -/
def pushTo (s : State) (n : Nat) (r : ItemReq) (dest : Option ChutDest) : State × Bool :=
  let h := itemHeader r.srcType r.srcId (b2n r.prov.isSome) (fld s Reg.SYS_STATUS 31 16) r.code r.payload.length r.prio
  let (s, ok) := pushFor s n r dest
  if ok then (fireTaps s h r.time r.prov, true) else (s, false)

/-- The same, of a producer that waits for no answer. -/
def pushItem (s : State) (n : Nat) (r : ItemReq) : State × Bool := pushTo s n r none

/-- Push a device item to the event chute (11, Device item codes). -/
def pushDev (s : State) (code : Nat) (payload : List Nat) : State := (pushItem s 0 ⟨0, 0, none, code, 3, nowNs s, payload⟩).1

/-- A capture item; it fires no tap. -/
def pushCap (s : State) (id code : Nat) (payload : List Nat) : State := (pushRaw s 0 ⟨5, id, none, code, 1, nowNs s, payload⟩).1

/-! Health bits (02 R61). -/

abbrev Health.decodeErr : Nat := 0
abbrev Health.eccUe : Nat := 2
abbrev Health.cfgBankErr : Nat := 3
abbrev Health.logFault : Nat := 4
abbrev Health.timeHoldover : Nat := 5
abbrev Health.twinLinkDown : Nat := 6
abbrev Health.twinStale : Nat := 7
abbrev Health.norErr : Nat := 8
abbrev Health.selftestFail : Nat := 9
abbrev Health.unmeteredGap : Nat := 10
abbrev Health.keyFault : Nat := 11

/-- Set a SYS_HEALTH bit: a change from 0 to 1 pushes an item, and so does a return to 0 of an RO bit. -/
def setHealth (s : State) (b : Nat) (v : Bool) : State :=
  let was := bit s Reg.SYS_HEALTH b
  let s := setB s Reg.SYS_HEALTH b v
  if was = v then s
  else if v || (decide (5 ≤ b) && decide (b ≤ 7)) then pushDev s 0x0002 [b + b2n v * 256] else s

/-- An uncorrectable memory error (01 R18): ECC_UE and its item; `mem` 0 to 6 as item 0x0004 numbers them. -/
def eccUe (s : State) (mem slot addr : Nat) : State :=
  let s := { s with sys := { s.sys with eccUeAt := some s.cycle } }
  let s := setHealth s Health.eccUe true
  pushDev s 0x0004 [mem + slot * 256 + addr * 2 ^ 32]

/-! The history (R418, R419). -/

/-- The history restarts empty. -/
def histRestart (s : State) : State :=
  { s with cap := { s.cap with hist := [], histStart := nowNs s, lastV := [], base := [], gapCh := 0, gapAt := [] } }

/-- Entries that the capture pre-trigger region holds. -/
def histCap (s : State) : Nat := s.histPart.getD 2 0 / 12

/-- Oldest time that a record in progress needs. -/
def histKeep (s : State) : Option Nat := s.cap.cur.map (fun r => r.start / nsU)

/-- An entry is appended to a history with room. -/
def histPush (s : State) (e : Shaving) : State :=
  let c := s.cap
  match c.hist with
  | h :: rest =>
    if c.hist.length ≥ histCap s then
      { s with cap := { c with hist := rest ++ [e], base := Tab.set (fun _ => (0, 0x7FC00000)) c.base h.chan (h.t, h.v) } }
    else { s with cap := { c with hist := c.hist ++ [e] } }
  | [] => { s with cap := { c with hist := [e] } }

/-- A dropped entry: counted, and its channel's next entry carries GAP. -/
def histDrop (s : State) (ch t : Nat) : State :=
  inc { s with cap := { s.cap with gapCh := setBitN s.cap.gapCh ch, gapAt := s.cap.gapAt ++ [t] } } Reg.CAP_SHAVE_OVF

/-- A value of a capture channel at device time `t` ns: a shaving is stored where R418 asks for one, or dropped under R419. -/
def shave (s : State) (ch t v : Nat) : State :=
  let c := s.cap
  if !bit s Reg.CAP_CTRL 31 || !runsLathe (mode s) || bit s Reg.CAP_STATUS 7 || !bitOf (cw s Win.CAP_CH ch 0) 31 then s
  else
    let lastE := if Tab.has c.lastV ch then some (Tab.get (fun _ => (0, 0)) c.lastV ch) else none
    let dead := cw s Win.CAP_CH ch 1
    let hb := bits (cw s Win.CAP_CH ch 2) 31 16
    let (want, forced) : Bool × Bool := match lastE with
      | none => (true, false)
      | some (lt, lv) =>
        let differ := isNaN f32 v != isNaN f32 lv ||
          (!isNaN f32 v && (if isFin f32 v && isFin f32 lv then (dyOf f32 dead).lt ((dyOf f32 v).sub (dyOf f32 lv)).abs else v != lv))
        (differ || decide (hb * 1000000 ≤ t - lt), !differ)
    if !want then s
    else
      let sec := t / 1000000000
      let used := if c.rate.1 = sec then c.rate.2 else 0
      let full := decide (c.hist.length ≥ histCap s) && (match histKeep s, c.hist.head? with
        | some k, some h => decide (k ≤ h.t)
        | _, _ => false)
      if used ≥ 8000000 || full then histDrop s ch t
      else
        let sfl := b2n forced + 2 * b2n (isNaN f32 v) + 8 * b2n (bitOf c.gapCh ch)
        let s := histPush s ⟨t, ch, sfl, v⟩
        { s with cap := { s.cap with
          lastV := Tab.put s.cap.lastV ch (t, v)
          gapCh := clrBitN s.cap.gapCh ch
          rate := (sec, used + 1) } }

/-! Starting and stopping (R406, R419, R425). -/

/-- CAP_CTRL.EN takes effect: the history restarts and the record logic is ARMED; a store too small refuses it. -/
def capArm (s : State) : State :=
  let size := fld s Reg.CAP_STORE_SIZE 15 0
  if size < 16 ∨ fld s Reg.CAP_STORE_BASE 15 0 + size > 4096 then setB (setB s Reg.CAP_CTRL 31 false) Reg.CAP_STATUS 8 true
  else setF (histRestart (setB s Reg.CAP_CTRL 31 true)) Reg.CAP_STATUS 1 0 1

/-- What a write of CAP_CTRL does. -/
def capCtrlWrite (s : State) (v : Nat) : State :=
  ungated s Reg.CAP_CTRL fun s =>
    let was := bit s Reg.CAP_CTRL 31
    let s := setF (setF s Reg.CAP_CTRL 30 29 (bits v 30 29)) Reg.CAP_CTRL 19 16 (bits v 19 16)
    let s :=
      if bitOf v 31 then
        if was then s
        else if bit s Reg.CAP_STATUS 7 ∨ !runsLathe (mode s) then { s with cap := { s.cap with heldEn := true } }
        else capArm s
      else
        let s := subC s Reg.CAP_NOREC (cycReg s Reg.CAP_NOREC).2.2
        setF { setB s Reg.CAP_CTRL 31 false with cap := { s.cap with cur := none, heldEn := false } } Reg.CAP_STATUS 1 0 0
    if bitOf v 28 then capEvent s 0x04 s.now none else s

/-- CAPTURE_FORCE (R407): a write of CAP_CTRL with FORCE = 1. -/
def execCaptureForce (v : Word) (s : State) : Out := .next (capCtrlWrite s (setBitN v.toNat 28))

/-- CAPTURE_ENABLE (R419): a write of CAP_CTRL with EN = 1. -/
def execCaptureEnable (v : Word) (s : State) : Out := .next (capCtrlWrite s (setBitN v.toNat 31))

/-- The capture engine stops: every record not yet committed is abandoned (R406). -/
def capStop (s : State) : State :=
  let held := s.cap.heldEn || bit s Reg.CAP_CTRL 31
  let s := { s with
    cap := { s.cap with cur := none, staged := [], commit := none, evs := [], heldEn := held, provLog := [] }
    cmp := { s.cmp with queues := s.cmp.queues.set 0 [] } }
  let s := setB s Reg.CAP_CTRL 31 false
  setF (setF (setF s Reg.CAP_STATUS 7 4 0) Reg.CAP_STATUS 1 0 0) Reg.CAP_STATUS 7 7 0

/-- A mode that runs capture is entered from one that does not: the start-up scan begins (R425). -/
def capStart (s : State) : State := setB s Reg.CAP_STATUS 7 true

/-! Cross-trigger lines (R407, R544). -/

/-- XTRIG_EDGE: an edge of the debounced line; one that falls while the device drives the line, or within 1 µs after its own
pulse, makes no event. -/
def execXtrigEdge (line : Fin 4) (s : State) : Out :=
  let i := line.val
  let up := !bitOf s.pins.xtrigLvl i
  let s := { s with pins := { s.pins with xtrigLvl := putBits s.pins.xtrigLvl i i (b2n up) } }
  let lately (c : Option Nat) : Bool := match c with | some c => decide (s.cycle < c + 500) | none => false
  let own := lately (s.pins.xtrigEnd.getD i none) || lately (s.pins.xtrigLast.getD i none)
  if own then .next s
  else
    let s := setLvl s i (b2n up) none s.now
    let edge := bits (cw s Win.CAP_IN i 0) 29 28
    if bitOf edge (if up then 0 else 1) then .next (capEvent s i s.now none) else .next s

/-- XTRIG_PULSE_END: 1 µs after the last request the line is released. -/
def execXtrigPulseEnd (line : Fin 4) (s : State) : Out :=
  let i := line.val
  match s.pins.xtrigEnd.getD i none with
  | none => .next s
  | some c =>
    let s := passCyc s c
    .next { s with pins := { s.pins with xtrigEnd := s.pins.xtrigEnd.set i none, xtrigLast := s.pins.xtrigLast.set i (some c) } }

/-! Local threshold units (R408). -/

/-- A threshold unit. -/
def thrOf (s : State) (u : Nat) : ThrU := s.cap.thr.getD u ThrU.reset

/-- Put a threshold unit back. -/
def setThr (s : State) (u : Nat) (t : ThrU) : State := { s with cap := { s.cap with thr := s.cap.thr.set u t } }

/-- The instant at which a line through (n1, x1) and (n2, x2) on a grid of `rate` a second reaches LEVEL, in 1/65,536 ns rounded to
nearest, as device time. -/
def crossAt (rate n1 n2 : Nat) (level x1 x2 : Dy) : Nat :=
  let d := x2.sub x1
  let a := level.sub x1
  let e := min d.e a.e
  let b := d.at e
  let a := a.at e
  let one : Int := (1000000000 * 65536 : Nat)
  if b = 0 then n2 * 1000000000 * 65536 / rate * 2 ^ 32
  else
    let num := one * ((n1 : Int) * b + a * ((n2 : Int) - n1))
    let den := rate * b
    let (num, den) := if den < 0 then (-num, -den) else (num, den)
    ((2 * num + den) / (2 * den)).toNat * 2 ^ 32

/-- The value `v` that a local unit tests at sample number `n` of the time-locked grid: its level, arming, and the crossing event (R408). -/
def thrSample (s : State) (u n v : Nat) : State :=
  let d0 := cw s Win.CAP_TH u 0
  if !bitOf d0 31 || bitOf d0 30 || !runsLathe (mode s) then s
  else
    let th := thrOf s u
    let t := n * 1000000000 * nsU / 24000
    if isNaN f32 v then setThr (setLvl s (0x40 + u) 2 none t) u { th with last := some (n, v) }
    else
      let dir := bits d0 29 28
      let level := dyOf f32 (cw s Win.CAP_TH u 1)
      let hyst := dyOf f32 (cw s Win.CAP_TH u 2)
      let x := dyOf f32 v
      let hi := level.lt x
      let lo := x.lt level
      let lvl := if dir = 1 then lo else hi
      let nearLow := x.le (level.sub hyst)
      let nearHigh := (level.add hyst).le x
      let fires := th.armed && (if dir = 0 then hi else if dir = 1 then lo else if th.low then hi else !hi)
      let arms := if dir = 0 then nearLow else if dir = 1 then nearHigh else nearLow || nearHigh
      let s := setLvl s (0x40 + u) (b2n lvl) none t
      let s := setThr s u { th with
        armed := if fires then (decide (2 ≤ dir) && arms) else th.armed || arms
        low := if arms then nearLow else th.low
        last := some (n, v) }
      if fires then
        let inst := match th.last with
          | some (n1, v1) => if isNaN f32 v1 then t else crossAt 24000 n1 n level (dyOf f32 v1) x
          | none => t
        capEvent s (0x40 + u) inst none
      else s

/-! Sequencers (R412 to R414). -/

/-- A sequencer. -/
def seqOf (s : State) (n : Nat) : SeqS := s.cap.seq.getD n SeqS.reset

/-- Put a sequencer back; CAP_SQCUR shows its state. -/
def setSeq (s : State) (n : Nat) (q : SeqS) : State :=
  setF { s with cap := { s.cap with seq := s.cap.seq.set n q } } Reg.CAP_SQCUR (4 * n + 3) (4 * n) q.st

/-- Counter LIMITs of a sequencer. -/
def seqLimit (s : State) (n i : Nat) : Nat :=
  bits (cw s Win.CAP_SQ n (1 + i / 2)) (if i % 2 = 1 then 31 else 15) (if i % 2 = 1 then 16 else 0)

/-- Does the condition of a transition hold; with what instant and provisional blank? (R412, R414) -/
def seqCond (s : State) (n : Nat) (q : SeqS) (d0 : Nat) : Option (Nat × Option Nat) :=
  let neg := bitOf d0 27
  let idx := bits d0 26 25
  let input := bits d0 23 16
  match bits d0 30 28 with
  | 0 =>
    let l := lvlOf s input
    if l.lvl = (if neg then 0 else 1) then some (l.atT, l.prov) else none
  | 1 =>
    if neg then none
    else (s.cap.evs.find? (fun e => e.cyc == s.cycle && e.input == input)).map (fun e => (e.inst, e.prov))
  | 2 => if q.cnt.getD idx 0 ≥ seqLimit s n idx then some (s.now, none) else none
  | 3 => if (q.tmr.getD idx (0, 0)).1 = 2 then some (s.now, none) else none
  | 4 => some (s.now, none)
  | _ => none

/-- The first enabled transition of the state whose condition holds: its number, words, instant and provisional blank. -/
def seqPick (s : State) (n : Nat) (q : SeqS) : Option (Nat × Nat × Nat × Option Nat) :=
  (List.range 4).findSome? (fun t =>
    let i := n * 64 + q.st * 4 + t
    let d0 := cw s Win.CAP_TR i 0
    if bitOf d0 31 then (seqCond s n q d0).map (fun (at_, prov) => (d0, cw s Win.CAP_TR i 1, at_, prov)) else none)

/-- SEQUENCER_TRANSITION (R413, R414): the first satisfied transition of the state, at most one per cycle. -/
def execSequencerTransition (seq : Fin 8) (s : State) : Out :=
  let n := seq.val
  let q := seqOf s n
  if !bitOf (cw s Win.CAP_SQ n 0) 31 || !runsLathe (mode s) || q.lastCyc == some s.cycle then .next s
  else
    match seqPick s n q with
    | none => .next s
    | some (d0, d1, inst, prov) =>
      let clr := bits d1 11 8
      let incm := bits d1 15 12
      let ts := bits d1 7 4
      let cnt := q.cnt.zipIdx.map (fun (c, i) =>
        let c := if bitOf clr i then 0 else c
        if bitOf incm i then satAdd 16 c 1 else c)
      let tmr := q.tmr.zipIdx.map (fun (t, i) =>
        if bitOf ts i then (1, s.cycle + 500 * max 1 (cw s Win.CAP_SQ n (3 + i))) else t)
      let nxt := bits d0 15 12
      let s := setSeq s n ⟨nxt, cnt, tmr, some s.cycle⟩
      let s := pulseXtrig s (bits d1 3 0)
      let s := if bitOf d0 10 then
          (pushRaw s 0 ⟨5, n, prov, 0x0502, 1, nowNs s, [n + q.st * 256 + nxt * 4096]⟩).1 else s
      if bitOf d0 11 then .next (capEventAt s (s.cycle + 1) (0xA0 + n) inst prov) else .next s

/-- SEQUENCER_TIMER_EXPIRE (R413): a RUNNING timer counts out. -/
def execSequencerTimerExpire (seq : Fin 8) (timer : Fin 4) (s : State) : Out :=
  let q := seqOf s seq
  let t := q.tmr.getD timer (0, 0)
  if t.1 = 1 ∧ runsLathe (mode s) then
    let s := passCyc s t.2
    .next (setSeq s seq { seqOf s seq with tmr := q.tmr.set timer (2, t.2) })
  else .next s

/-! The end of a record (R416, R420, R421). -/

/-- POST_SPAN_END (R416): the post-trigger span ends, acted on under 05 R135. -/
def execPostSpanEnd (s : State) : Out :=
  match s.cap.cur with
  | some r =>
    if r.spanDone then .next s
    else
      let s := passTo s r.spanEnd
      .next { s with cap := { s.cap with cur := some { r with spanDone := true } } }
  | none => .next s

/-- Enabled capture channels with their entries. -/
def capChans (s : State) : List (Nat × List Nat) :=
  ((listed s.cfg Win.CAP_CH).filter (fun i => bitOf (cw s Win.CAP_CH i 0) 31)).map
    (fun i => (i, [cw s Win.CAP_CH i 0, cw s Win.CAP_CH i 1, cw s Win.CAP_CH i 2, cw s Win.CAP_CH i 3]))

/-- The 12 bytes of a shaving relative to an instant (R418). -/
def shavingBytes (t0 : Nat) (e : Shaving) : List Nat :=
  leBytes 6 (toU 48 (((e.t * nsU : Nat) : Int) - t0 |> (· / (nsU : Int)))) ++ [e.chan, e.sfl] ++ leBytes 4 e.v

/-- The BASE entry of a channel at an instant: the value in force there (R420). -/
def baseEntry (s : State) (at_ ch : Nat) : Shaving :=
  let before := (s.cap.hist.filter (fun e => e.chan == ch && decide (e.t * nsU ≤ at_))).getLast?
  let v := match before with
    | some e => e.v
    | none => (Tab.get (fun _ => (0, 0x7FC00000)) s.cap.base ch).2
  ⟨at_ / nsU, ch, 4 + 2 * b2n (isNaN f32 v), v⟩

/-- Put an entry into a list in rising time, ties by rising channel. -/
def insShaving (e : Shaving) : List Shaving → List Shaving
  | [] => [e]
  | x :: xs => if e.t < x.t ∨ (e.t = x.t ∧ e.chan < x.chan) then e :: x :: xs else x :: insShaving e xs

/-- The entries of a record (R420), at most 128 blocks of 65,536 (R421). -/
def recBody (s : State) (r : CapRec) (chans : List (Nat × List Nat)) : List Shaving :=
  let bases := chans.map (fun c => baseEntry s r.start c.1)
  let rest := s.cap.hist.filter (fun e => decide (r.start < e.t * nsU) && decide (e.t * nsU ≤ r.spanEnd))
  bases ++ rest.foldl (fun l e => insShaving e l) []

/-- Lists of at most `n` elements. -/
def chunks {α : Type} (n : Nat) : Nat → List α → List (List α)
  | 0, _ => []
  | _ + 1, [] => []
  | k + 1, x :: xs => (x :: xs).take n :: chunks n k ((x :: xs).drop n)

/-- Bytes padded with zeros to a multiple of 8. -/
def pad8 (bs : List Nat) : List Nat := bs ++ List.replicate ((8 - bs.length % 8) % 8) 0

/-- RFLAGS of a record header. -/
def recFlags (r : CapRec) : Nat :=
  b2n r.shortPre + 2 * b2n r.ext + 4 * b2n r.prov.isSome + 8 * b2n r.postCut + 16 * b2n r.trunc + 32 * b2n r.gap

/-- Offset 512 on: the channel table and the blocks (14, Record layout). -/
def recTail (r : CapRec) : List Nat :=
  (r.chans.map (fun c => (c.2.map (leBytes 4)).flatten)).flatten ++ (r.blocks.map (fun b => pad8 b.2)).flatten

/-- Sectors of 64 KiB that a record occupies. -/
def recSectors (r : CapRec) : Nat := ceilDiv (512 + (recTail r).length) 65536

/-- The header and the commit marker of a record (14, Record header, Commit marker). -/
def recHead (r : CapRec) : List Nat :=
  let tail := recTail r
  let t := r.trig / nsU
  let st := r.start / nsU
  let h := [0x43, 0x52, 0x45, 0x43] ++ leBytes 2 1 ++ leBytes 2 0x200 ++ leBytes 8 r.rseq
    ++ leBytes 8 (t / 1000000000) ++ leBytes 4 (t % 1000000000) ++ leBytes 2 (r.trig % nsU / 2 ^ 32) ++ leBytes 2 r.gen
    ++ leBytes 8 (st / 1000000000) ++ leBytes 4 (st % 1000000000) ++ leBytes 4 r.preMs ++ leBytes 4 r.preUs
    ++ leBytes 4 ((r.spanEnd - r.trig) / (1000 * nsU)) ++ [r.input, recFlags r] ++ leBytes 2 r.chans.length
    ++ leBytes 4 r.body.length ++ leBytes 2 r.nblk ++ leBytes 2 (recSectors r) ++ leBytes 4 tail.length ++ List.replicate 408 0
  let m := [0x44, 0x4F, 0x4E, 0x45, 0, 0, 0, 0] ++ leBytes 8 r.rseq ++ leBytes 4 (crc32c h) ++ leBytes 4 (crc32c tail) ++ [0, 0, 0, 0]
  h ++ m ++ leBytes 4 (crc32c m)

/-- The record as it stands in NOR. -/
def recImage (r : CapRec) : List Nat := recHead r ++ recTail r

/-- Compression jobs of a closed record (R421). -/
def recJobs (r : CapRec) : List CmpJob :=
  let cs := chunks 65536 129 r.body
  cs.zipIdx.map (fun (c, i) =>
    let input := (c.map (shavingBytes r.trig)).flatten
    ⟨0, input, input.length + 32, 1, 0, decide (i + 1 = cs.length), i, (r.rseq, 0), true, false⟩)

/-- The record with its blocks as the engines will give them: the output is deterministic (11 R361). -/
def recDone (r : CapRec) : CapRec :=
  { r with blocks := (recJobs r).map (fun j => (j.tag, captureBlock j.input j.tag j.last)) }

/-- Do two runs of sectors meet? -/
def overlap (a n b m : Nat) : Bool := decide (a < b + m) && decide (b < a + n)

/-- Where a record of `n` sectors goes, and the committed records in the way (R423): after the newest committed record, or at the
store start where it would not fit before the end; none where it does not fit at all. -/
def recPlace (s : State) (n : Nat) : Option (Nat × List CapDir) :=
  let base := fld s Reg.CAP_STORE_BASE 15 0
  let size := fld s Reg.CAP_STORE_SIZE 15 0
  let nxt := match s.cap.dir.getLast? with | some d => d.first + d.sectors | none => base
  let first := if nxt < base ∨ base + size < nxt + n then base else nxt
  if size < n then none
  else some (first, s.cap.dir.filter (fun d => overlap first n d.first d.sectors))

/-- Is there room for a record under CAP_CTRL.WRAP? -/
def recRoom (s : State) (n : Nat) : Bool :=
  match recPlace s n with
  | none => false
  | some (_, way) => bit s Reg.CAP_CTRL 29 || way.isEmpty

/-- A closed record without room is dropped (R423). -/
def storeFull (s : State) (r : CapRec) : State :=
  (pushRaw (inc s Reg.CAP_STORE_FULL) 0 ⟨5, 0, none, 0x0501, 1, r.trig / nsU, [r.input + 2 * 256]⟩).1

/-- Close the record in progress (R416): it joins the closed ones and its jobs the capture queue, and REARM begins. -/
def closeRec (s : State) (cut : Bool) : State :=
  match s.cap.cur with
  | none => s
  | some r =>
    let r := if cut then { r with postCut := true, spanEnd := min r.spanEnd s.now } else r
    let chans := capChans s
    let body := recBody s r chans
    let top := 128 * 65536
    let kept := body.take top
    let gap := s.cap.gapAt.any (fun t => decide (r.start ≤ t * nsU) && decide (t * nsU ≤ r.spanEnd))
    let r := { r with
      chans := chans, body := kept, gap := gap
      trunc := decide (top < body.length)
      spanEnd := if top < body.length then (match kept.getLast? with | some e => e.t * nsU | none => r.spanEnd) else r.spanEnd
      nblk := ceilDiv kept.length 65536 }
    let s := { s with cap := { s.cap with cur := none, rearmAt := s.now + rearmMs s * msU } }
    let s := setF s Reg.CAP_STATUS 1 0 3
    if recRoom s (recSectors (recDone r)) then
      let s := setStaged s (s.cap.staged ++ [r])
      { s with cmp := { s.cmp with queues := s.cmp.queues.set 0 (s.cmp.queues.getD 0 [] ++ recJobs r) } }
    else storeFull s r

/-- RECORD_CLOSE (R416): after the span's end, and after the seal or retirement of the newest blank whose epoch instant it has passed
where any capture channel is in the blank domain. -/
def execRecordClose (s : State) : Out :=
  match s.cap.cur with
  | some r =>
    let k := r.spanEnd * blankRate s / secU
    let waits := (capChans s).any (fun c => bitOf (c.2.getD 0 0) 30) &&
      (match s.aln.ring.getD (k % 32) none with
       | some b => b.epoch == k && decide (b.state < 3)
       | none => false)
    if r.spanDone && !waits then .next (closeRec s false) else .next s
  | none => .next s

/-- CAPTURE_REARM (R416, R417): REARM_MS after the close the logic is ARMED, and the number of entries suppressed is written. -/
def execCaptureRearm (s : State) : Out :=
  if capState s ≠ 3 then .next s
  else
    let s := passTo s s.cap.rearmAt
    let n := s.cap.supp
    let s := if n = 0 then s else
      let (s, i) := fresh s 256
      logRec s 0x0061 ([i, 0] ++ leBytes 2 (min n 65535))
    .next (setF { s with cap := { s.cap with suppN := 0, supp := 0 } } Reg.CAP_STATUS 1 0 1)

/-! The capture store in NOR (R422 to R425). -/

/-- Erase sectors. -/
def norErase (s : State) (d first n : Nat) : State :=
  setNor s d { norOf s d with mem := (norOf s d).mem.filter (fun p => !(overlap (p.1 / 65536) 1 first n)) }

/-- Does a run of sectors touch the image region of the running image's device? (18 R511) -/
def norProtected (s : State) (d first n : Nat) : Bool :=
  d == b2n (bit s Reg.SYS_STATUS 10) && overlap first n 0 512

/-- The device and the first sector of the store. -/
def storeDev (s : State) : Nat := b2n (bit s Reg.CAP_STORE_BASE 31)

/-- A committed record leaves the store: a copy for ring 3 that has not gone is lost (R424). -/
def dropDir (s : State) (d : CapDir) : State :=
  let s := norErase { s with cap := { s.cap with dir := s.cap.dir.filter (fun x => x.rseq != d.rseq) } } (storeDev s) d.first d.sectors
  let g := (s.dma.rings.getD 3 RingS.reset)
  if g.waiting.any (fun r => r.rseq == d.rseq) then
    inc (setRing s 3 { g with waiting := g.waiting.filter (fun r => r.rseq != d.rseq) }) Reg.CAP_HOST_LOST
  else s

/-- A commit that failed: the record is abandoned and its sectors erased (R422). -/
def commitFail (s : State) (r : CapRec) (first n : Nat) : State :=
  let s := setHealth s Health.norErr true
  let s := logRec s 0x0062 (leBytes 8 r.rseq ++ leBytes 2 first)
  let s := if norProtected s (storeDev s) first n then s else norErase s (storeDev s) first n
  setB { s with cap := { s.cap with commit := none } } Reg.CAP_STATUS 6 false

/-- RECORD_COMMIT (R422): the oldest closed record, once its blocks are complete, is erased, programmed and verified in order; `ok` is
what verification finds. -/
def execRecordCommit (ok : Bool) (s : State) : Out :=
  match s.cap.staged, s.cap.commit with
  | r :: rest, none =>
    if r.blocks.length < r.nblk then .next s
    else
      let s := setStaged s rest
      let n := recSectors r
      match recPlace s n with
      | none => .next (storeFull s r)
      | some (first, way) =>
        if !bit s Reg.CAP_CTRL 29 && !way.isEmpty then .next (storeFull s r)
        else
          let s := way.foldl dropDir s
          let dev := storeDev s
          if norProtected s dev first n || !(norOf s dev).present || !ok then .next (commitFail s r first n)
          else
            let s := norPut (norErase s dev first n) dev (first * 65536) (recImage r)
            .next (setB { s with cap := { s.cap with commit := some (r, first, n) } } Reg.CAP_STATUS 6 true)
  | _, _ => .next s

/-- RECORD_COMMITTED (R422): the commit marker verifies and the record is committed, reported, logged and copied to ring 3. -/
def execRecordCommitted (ok : Bool) (s : State) : Out :=
  match s.cap.commit with
  | none => .next s
  | some (r, first, n) =>
    if !ok then .next (commitFail s r first n)
    else
      let d : CapDir := ⟨r.rseq, first, n, r.input, recFlags r, (recTail r).length⟩
      let s := setB { s with cap := { s.cap with commit := none, dir := s.cap.dir ++ [d] } } Reg.CAP_STATUS 6 false
      let s := inc s Reg.CAP_RECORDS
      let s := pushCap s 0 0x0500 [r.rseq, first]
      let s := logRec s 0x0060 (leBytes 8 r.rseq ++ leBytes 2 first)
      .next (if bit s Reg.CAP_CTRL 30 then ringReady s 3 ⟨r.rseq, recImage r⟩ else s)

/-- The committed record at a sector, if its marker is valid and its header CRC matches (R425). -/
def scanAt (s : State) (dev sec : Nat) : Option CapDir :=
  let m := (norOf s dev).mem
  let h := Memory.bytes norDef m (sec * 65536) 480
  let k := Memory.bytes norDef m (sec * 65536 + 480) 32
  let w (l : List Nat) (a n : Nat) := ofLe ((l.drop a).take n)
  if w k 28 4 = crc32c (k.take 28) ∧ w k 16 4 = crc32c h ∧ k.take 4 = [0x44, 0x4F, 0x4E, 0x45] then
    some ⟨w h 8 8, sec, w h 66 2, w h 56 1, w h 57 1, w h 68 4⟩
  else none

/-- Walk the sectors of the store: committed records, and the runs of sectors outside them that are not erased. -/
def scanWalk (s : State) (dev : Nat) : Nat → Nat → List CapDir → List (Nat × Nat) → List CapDir × List (Nat × Nat)
  | 0, _, ds, runs => (ds, runs)
  | k + 1, sec, ds, runs =>
    if ds.any (fun d => overlap sec 1 d.first d.sectors) then scanWalk s dev k (sec + 1) ds runs
    else
      match scanAt s dev sec with
      | some d => scanWalk s dev k (sec + 1) (ds ++ [d]) runs
      | none =>
        if (norOf s dev).mem.any (fun p => p.1 / 65536 == sec) then
          match runs.getLast? with
          | some (f, n) => scanWalk s dev k (sec + 1) ds (if f + n = sec then runs.dropLast ++ [(f, n + 1)] else runs ++ [(sec, 1)])
          | none => scanWalk s dev k (sec + 1) ds [(sec, 1)]
        else scanWalk s dev k (sec + 1) ds runs

/-- Put a directory entry in rising RSEQ. -/
def insDir (d : CapDir) : List CapDir → List CapDir
  | [] => [d]
  | x :: xs => if d.rseq < x.rseq then d :: x :: xs else x :: insDir d xs

/-- CAPTURE_SCAN_END (R425): committed records are found, other sectors erased run by run, and a held EN takes effect. -/
def execCaptureScanEnd (s : State) : Out :=
  if !bit s Reg.CAP_STATUS 7 then .next s
  else
    let dev := storeDev s
    let (ds, runs) := scanWalk s dev (fld s Reg.CAP_STORE_SIZE 15 0) (fld s Reg.CAP_STORE_BASE 15 0) [] []
    let s := { s with cap := { s.cap with dir := ds.foldl (fun l d => insDir d l) [] } }
    let s := runs.foldl (fun s (f, n) =>
      let s := norErase s dev f n
      let s := inc s Reg.CAP_RECLAIMED
      let s := logRec s 0x0063 (leBytes 2 f ++ leBytes 2 n)
      pushCap s 0 0x0503 [f + n * 65536]) s
    let s := setB s Reg.CAP_STATUS 7 false
    if s.cap.heldEn then .next (capArm { s with cap := { s.cap with heldEn := false } }) else .next s

end Sys2Proof.Machine
end

