-- ==== Sys2Proof/Machine/Store.lean ====
section
/-! DEFINITION. The non-volatile store's banks (18_nonvolatile_drill_log.md, Banks): validity, bank writes line by line, and the configuration
payload that firmware builds (log 23). -/

namespace Sys2Proof.Machine

/-- The battery-domain RTC, in ticks of 32.768 kHz. -/
def rtcNow (s : State) : Nat := s.rtcBase + s.cycle * 32768 / cycSec

/-! Banks (R495 to R498). Kinds: 0 configuration, 1 energy, 2 key-wrap. -/

/-- Offset and size of a bank (R495). -/
def bankBase (kind b : Nat) : Nat :=
  match kind with
  | 0 => b * 0x40000
  | 1 => 0x80000 + b * 0x10000
  | _ => 0xA0000 + b * 0x10000

def bankSize (kind : Nat) : Nat := if kind = 0 then 0x40000 else 0x10000

/-- Bytes of the store. -/
def nvBytes (s : State) (a n : Nat) : List Nat := Memory.bytes Memory.zero s.nvs.store a n

/-- Write bytes to the store. -/
def nvPut (s : State) (a : Nat) (bs : List Nat) : State :=
  { s with nvs := { s.nvs with store := Memory.put Memory.zero s.nvs.store a bs } }

/-- A little-endian field of a bank. -/
def bankLe (s : State) (kind b off n : Nat) : Nat := ofLe (nvBytes s (bankBase kind b + off) n)

/-- SEQ of a bank's header. -/
def bankSeq (s : State) (kind b : Nat) : Nat := bankLe s kind b 8 4

/-- The payload of a bank. -/
def bankPayload (s : State) (kind b : Nat) : List Nat := nvBytes s (bankBase kind b + 64) (bankLe s kind b 12 4)

/-- Is a bank valid? (R496) -/
def bankValid (s : State) (kind b : Nat) : Bool :=
  bankLe s kind b 0 4 == 0x42564E50 && bankLe s kind b 4 1 == kind + 1 && bankLe s kind b 5 1 == 1
    && decide (bankLe s kind b 12 4 ≤ bankSize kind - 64)
    && bankLe s kind b 16 4 == crc32c (nvBytes s (bankBase kind b) 16 ++ bankPayload s kind b)

/-- Is sequence number `a` newer than `b`? (R496) -/
def seqNewer (a b : Nat) : Bool :=
  let d := (a + 2 ^ 32 - b) % 2 ^ 32
  decide (1 ≤ d) && decide (d ≤ 2 ^ 31 - 1)

/-- VALID and NVS_SEQ follow a bank's content. -/
def bankShow (s : State) (kind b : Nat) (v : Bool) (seq : Nat) : State :=
  wr (setB s Reg.NVS_STATUS (2 * kind + b) v) (Reg.NVS_SEQ (2 * kind + b)) (if v then seq else 0)

/-- The bank that BOOT uses, and whether neither of two valid banks is newer (R497). -/
def bankPick (s : State) (kind : Nat) : Option Nat × Bool :=
  match bankValid s kind 0, bankValid s kind 1 with
  | false, false => (none, false)
  | true, false => (some 0, false)
  | false, true => (some 1, false)
  | true, true =>
    let a := bankSeq s kind 0
    let b := bankSeq s kind 1
    if seqNewer b a then (some 1, false) else (some 0, !seqNewer a b)

/-- The record of a bank fault (R497, R500). -/
def bankLog (s : State) (kind b : Nat) : State :=
  logRec s 0x0005 ([kind + 1, b] ++ leBytes 4 (rd s (Reg.NVS_SEQ (2 * kind))) ++ leBytes 4 (rd s (Reg.NVS_SEQ (2 * kind + 1))))

/-- Request a bank write; `cls` orders the queue, `who` names who waits for it. -/
def requestBank (s : State) (kind cls who : Nat) (payload : List Nat) : State :=
  { s with nvs := { s.nvs with bw := s.nvs.bw ++ [⟨kind, 0, 0, payload, 0, 0, cls, who⟩] } }

/-- The bank write whose line is written: the one in progress, else the first of the highest priority (R499). -/
def bankHead (s : State) : Option BankWr :=
  match s.nvs.bw.find? (fun w => w.line != 0 || w.fails != 0) with
  | some w => some w
  | none => s.nvs.bw.foldl (fun o w => match o with
      | none => some w
      | some x => if w.cls < x.cls then some w else some x) none

/-- Replace, or remove, the bank write at work. -/
def bankSet (s : State) (w : BankWr) (r : Option BankWr) : State :=
  let rec go : List BankWr → List BankWr
    | [] => []
    | x :: xs => if x = w then r.toList ++ xs else x :: go xs
  { s with nvs := { s.nvs with bw := go s.nvs.bw } }

/-- Number of payload lines. -/
def BankWr.lines (w : BankWr) : Nat := ceilDiv w.payload.length 64

/-- The 64 bytes of line `w.line` (R498): the zero header, a payload line, the header. -/
def BankWr.lineBytes (w : BankWr) : List Nat :=
  if w.line = 0 then List.replicate 64 0
  else if w.line ≤ w.lines then
    let l := (w.payload.drop ((w.line - 1) * 64)).take 64
    l ++ List.replicate (64 - l.length) 0
  else
    let h := [0x50, 0x4E, 0x56, 0x42, w.kind + 1, 1, 0, 0] ++ leBytes 4 w.seq ++ leBytes 4 w.payload.length
    h ++ leBytes 4 (crc32c (h ++ w.payload)) ++ List.replicate 44 0

/-- Where line `w.line` lies. -/
def BankWr.lineAt (w : BankWr) : Nat := bankBase w.kind w.bank + (if w.line ≤ w.lines then w.line * 64 else 0)

/-- A bank write that starts takes the idle bank and the next sequence number (R498). -/
def BankWr.begun (s : State) (w : BankWr) : BankWr :=
  if w.line ≠ 0 ∨ w.fails ≠ 0 then w
  else
    let b := s.nvs.inUse.getD w.kind 1
    let seq := if bitOf (rd s Reg.NVS_STATUS) (2 * w.kind + b) then rd s (Reg.NVS_SEQ (2 * w.kind + b)) else 0
    { w with bank := 1 - b, seq := (seq + 1) % 2 ^ 32 }

/-- A line that fails its verification holds bytes that no rule gives. -/
def tornLine (s : State) (a : Nat) : State :=
  let (s, v) := fresh s (2 ^ 512)
  nvPut s a (leBytes 64 v)

/-- What became of a line write: still under way, the write committed, or abandoned. -/
inductive LineEnd where
  | going
  | committed (w : BankWr)
  | abandoned (w : BankWr)
deriving DecidableEq, Repr

/-- One line write and its verification (R498, R500). -/
def bankLine (s : State) (ok : Bool) : State × LineEnd :=
  match bankHead s with
  | none => (s, .going)
  | some w0 =>
    let w := w0.begun s
    let s := if w.line = 0 then bankShow s w.kind w.bank false 0 else s
    if ok then
      let s := nvPut s w.lineAt w.lineBytes
      if w.line ≤ w.lines then (bankSet s w0 (some { w with line := w.line + 1, fails := 0 }), .going)
      else
        let s := bankShow (bankSet s w0 none) w.kind w.bank true w.seq
        let s := inc { s with nvs := { s.nvs with inUse := s.nvs.inUse.set w.kind w.bank } } Reg.NVS_BANK_WRITES
        (s, .committed w)
    else
      let s := tornLine s w.lineAt
      if w.fails = 0 then (bankSet s w0 (some { w with fails := 1 }), .going)
      else (bankLog (inc (bankSet s w0 none) Reg.NVS_BANK_FAIL) w.kind w.bank, .abandoned w)

/-- LAST-GASP: bank writes that are not its own energy save are abandoned or discarded (R499). -/
def bankDrop (s : State) : State := { s with nvs := { s.nvs with bw := s.nvs.bw.filter (fun w => w.cls == 0) } }

/-! The configuration payload (R501). -/

/-- The health block. -/
def healthBlock (s : State) : List Nat :=
  let b := [logState s, 0, 0, 0] ++ leBytes 4 (rd s Reg.NVS_LOG_GEN) ++ leBytes 4 s.nvs.faultSlot ++ leBytes 8 s.nvs.faultSec
    ++ leBytes 4 s.nvs.faultNs ++ leBytes 4 (rd s Reg.NVS_LOG_DROPPED)
  b ++ List.replicate (64 - b.length) 0

/-- One entry, padded to a multiple of 8. -/
def cfgEntry (region table : Nat) (data : List Nat) : List Nat := leBytes 2 region ++ leBytes 2 table ++ leBytes 4 data.length ++ pad8 data

/-- The regions whose blocks firmware keeps, by their first and last 64 KiB page (log 23). -/
def cfgRegions : List (Nat × Nat) :=
  [(0, 0), (1, 1), (2, 2), (3, 3), (4, 5), (6, 6), (7, 7), (8, 9), (10, 10), (11, 11), (13, 13), (14, 14), (15, 15), (16, 16), (17, 17), (20, 20)]

/-- Insert an offset in rising order. -/
def insNat (x : Nat) : List Nat → List Nat
  | [] => [x]
  | y :: ys => if x < y then x :: y :: ys else if x = y then y :: ys else y :: insNat x ys

/-- The plain registers of a block with RW fields, ascending. -/
def plainRegs (r : Nat × Nat) : List Nat :=
  let rows := ((List.range (r.2 + 1 - r.1)).map (fun i => regionRows (r.1 + i))).flatten
  (rows.filter (fun x => x.rw != 0)).foldl (fun l x => (List.range x.count).foldl (fun l i => insNat (x.base + i * x.stride) l) l) []

/-- The transactional registers (02, Configuration transactions; 07 R237). -/
def txnRegs : List Nat :=
  [Reg.ALN_WAIT, Reg.SPC_DEADLINE, Reg.SPC_GAIN, Reg.SSK_SWAP_AT_LO, Reg.SSK_SWAP_AT_HI, Reg.DET_ISL_CFG, Reg.DET_ISL_FTH, Reg.DET_ISL_ATH,
   Reg.DET_ISL_N, Reg.OUT_TBASE, Reg.CAP_WIN, Reg.CAP_WIN2] ++ (List.range 8).map Reg.SSK_RRCFG

/-- The windows of a block, ascending, that hold configuration. -/
def cfgWins (r : Nat × Nat) : List WinRow :=
  winRows.filter (fun w => decide (r.1 ≤ w.idx / 0x10000) && decide (w.idx / 0x10000 ≤ r.2) && w.kind != .readOnly
    && w.idx != Win.SSK_CK && w.idx != Win.TIME_CMP && w.idx != Win.PWR_DOM)

/-- Words as little-endian bytes. -/
def wordBytes (ws : List Nat) : List Nat := (ws.map (leBytes 4)).flatten

/-- The entries of a window that are not all default, ascending: the index, then the words (log 23). -/
def winData (s : State) (c : Tab Word) (w : WinRow) : List Nat :=
  let t := if w.kind = .trans then c else s.ntab
  wordBytes ((listed t w.idx).map (fun i => i :: (List.range w.ndata).map (fun j =>
    if w.kind = .trans then getC c w.idx i j else getN s w.idx i j))).flatten

/-- The payload that firmware builds from a configuration copy: the health block; for each block its plain registers and its tables; the
twin mode (region 0, table 1), the partition of history memory (region 0, table 2) and the program set's NOR device and offset (region 8, table 1)
(R501; 01 R22; log 23). The twin mode and the code of ALN_RATE, which only a persisted configuration and a reset change, are those that the
caller gives (02 R46; log 128). -/
def cfgPayload (s : State) (twin rate : Nat) (c : Tab Word) : List Nat :=
  let reg (o : Nat) : Nat := if txnRegs.contains o then getC c o 0 0 else if o = Reg.ALN_RATE then rate else rd s o
  let es := cfgRegions.map (fun r =>
    cfgEntry r.1 0 (wordBytes ((plainRegs r).map reg)) ++ ((cfgWins r).map (fun w =>
      let d := winData s c w
      if d.isEmpty then [] else cfgEntry r.1 (w.idx - r.1 * 0x10000) d)).flatten)
  healthBlock s ++ es.flatten ++ cfgEntry 0 1 (leBytes 4 twin) ++ cfgEntry 0 2 (wordBytes s.histPart)
    ++ (match s.fw.prog with | some p => cfgEntry 8 1 (leBytes 4 p.1 ++ leBytes 4 p.2) | none => [])

end Sys2Proof.Machine
end

