-- ==== Sys2Proof/Machine/Gov.lean ====
section
/-! DEFINITION. The current governor and the supply monitors (19_electrical_package.md R523 to R532). -/

namespace Sys2Proof.Machine

/-! Block requests (R528, log 12). -/

/-- Is the mode one in which the host may set up the field blocks: SAFE-DEFAULT to DIAGNOSTIC? -/
def runsBlocks (m : Nat) : Bool := decide (2 ≤ m) && decide (m ≤ 8)

/-- Is a lane or unit still held: not requested out of service, or not yet acknowledged idle? -/
def oosHeld (s : State) (req ack b : Nat) : Bool := !bit s req b || !bit s ack b

/-- HW_REQ of a domain. -/
def hwReq (s : State) (d : Nat) : Bool :=
  let m := mode s
  if m = Mode.halt then false
  else if d < 6 then decide (2 ≤ s.sys.bootStep)
  else if d < 14 then runsLathe m && (List.range 4).any (fun i => oosHeld s Reg.SYS_OOS_LANE Reg.SYS_OOS_ACK_LANE (4 * (d - 6) + i))
  else if d < 22 then
    runsLathe m && bitOf (getC s.cfg Win.DET_OSC (d - 14) 0) 31 && oosHeld s Reg.SYS_OOS_UNIT Reg.SYS_OOS_ACK_UNIT (d - 14)
  else if d = 22 then runsLathe m && bitOf (getC s.cfg Reg.DET_ISL_CFG 0 0) 31 && oosHeld s Reg.SYS_OOS_UNIT Reg.SYS_OOS_ACK_UNIT 8
  else if d = 24 then s.sys.twinMode != 0 && runsBlocks m
  else if d < 25 then runsBlocks m
  else if d < 27 then bit s Reg.CMP_CTRL (d - 25)
  else if d < 29 then bit s Reg.MSH_CTRL (d - 27)
  else if d < 33 then runsLathe m
  else if d < 37 then runsBlocks m
  else if d = 37 then decide (6 ≤ s.sys.bootStep)
  else if d = 38 then runsBlocks m
  else decide (2 ≤ s.sys.bootStep)

/-! The queue (R529, R530). -/

/-- Put STATE into a domain's entry. -/
def setDom (s : State) (d st : Nat) : State := putN s Win.PWR_DOM d 0 (putBits (getN s Win.PWR_DOM d 0) 29 27 st)

/-- The order of two queued domains. -/
def domBefore (s : State) (a b : Nat) : Bool :=
  let down (d : Nat) : Bool := domState s d == 5
  let prio (d : Nat) : Nat := bits (getN s Win.PWR_DOM d 0) 26 25
  if down a != down b then down a
  else if prio a ≠ prio b then decide (prio b < prio a)
  else decide (a < b)

/-- The head of the queue. -/
def govHead (s : State) : Option Nat :=
  ((List.range 40).filter (fun d => domState s d == 1 || domState s d == 5)).foldl (fun o d => match o with
    | none => some d
    | some h => if domBefore s d h then some d else some h) none

/-- HW_REQ is judged for one domain, and its request queued or withdrawn. -/
def govDom (s : State) (d : Nat) : State :=
  let w := putBits (getN s Win.PWR_DOM d 0) 30 30 (b2n (hwReq s d))
  let want := mode s != Mode.halt && (bitOf w 31 || bitOf w 30)
  let st := bits w 29 27
  let st := match st, want with
    | 0, true => 1
    | 1, false => 0
    | 4, false => 5
    | 5, true => 4
    | n, _ => n
  putN s Win.PWR_DOM d 0 (putBits w 29 27 st)

/-- The governor judges every request at the end of a cycle; in LAST-GASP it admits nothing (R530, R531). -/
def govSettle (s : State) : State :=
  if mode s = Mode.lastGasp then s
  else
    let was := govHead s
    let s := (List.range 40).foldl govDom s
    let now := govHead s
    let s := setF s Reg.PWR_STATUS 5 0 ((List.range 40).filter (fun d => domState s d == 1 || domState s d == 5)).length
    if was = now then s else { s with pwr := { s.pwr with headAt := s.cycle } }

/-- The cycle from which a mesh channel's baseband is admitted follows its domain (15_line_sensor_mesh.md R432). -/
def meshAdmit (s : State) (d : Nat) (at_ : Option Nat) : State :=
  if d = 27 ∨ d = 28 then
    { s with msh := { s.msh with ch := s.msh.ch.zipIdx.map (fun (c, i) => if i + 27 = d then { c with admitAt := at_ } else c) } }
  else s

/-- Cycles of a ramp: COST / SLEW rounded up, COST in mA and SLEW in 50 mA/µs. -/
def rampCycles (s : State) (d : Nat) : Nat :=
  ceilDiv (bits (getN s Win.PWR_DOM d 0) 15 0 * 10) (max 5 (min 40 (fld s Reg.PWR_GOV_CFG 5 0)))

/-- GOV_RAMP_START (R529): 20 cycles after its domain reached the head of the queue. -/
def execGovRampStart (s : State) : Out :=
  match s.pwr.ramp, govHead s with
  | none, some d =>
    if mode s = Mode.lastGasp then .next s
    else
      let s := passCyc s (s.pwr.headAt + 20)
      let up := domState s d == 1
      let s := meshAdmit (setDom s d (if up then 2 else 6)) d none
      let s := setB { s with pwr := { s.pwr with ramp := some (d, s.cycle + rampCycles s d) } } Reg.PWR_STATUS 7 true
      .next (govSettle s)
  | _, _ => .next s

/-- GOV_RAMP_END (R529). -/
def execGovRampEnd (s : State) : Out :=
  match s.pwr.ramp with
  | none => .next s
  | some (d, c) =>
    let s := passCyc s c
    let s := putN s Win.PWR_DOM d 1 (getN s Win.PWR_DOM d 1 + 1)
    let s := inc (setB s Reg.PWR_STATUS 7 false) Reg.PWR_RAMPS
    let s := { s with pwr := { s.pwr with ramp := none, headAt := s.cycle } }
    if domState s d = 2 then
      .next (govSettle { setDom s d 3 with pwr := { s.pwr with settle := Tab.put s.pwr.settle d (s.cycle + 1000) } })
    else .next (govSettle (setDom s d 0))

/-- GOV_SETTLE_END (R529): the domain is ON 2 µs after its ramp. -/
def execGovSettleEnd (domain : Fin 40) (s : State) : Out :=
  let d := domain.val
  if domState s d ≠ 3 then .next s
  else
    let s := passCyc s (Tab.get (fun _ => 0) s.pwr.settle d)
    let s := { setDom s d 4 with pwr := { s.pwr with settle := Tab.del s.pwr.settle d } }
    .next (govSettle (meshAdmit s d (some s.cycle)))

/-- A domain is off at once, without a ramp (R531). -/
def domDrop (s : State) (d : Nat) : State :=
  let s := meshAdmit (setDom s d 0) d none
  { s with pwr := { s.pwr with settle := Tab.del s.pwr.settle d, ramp := match s.pwr.ramp with
      | some (e, c) => if e = d then none else some (e, c)
      | none => none } }

/-- The governor's part of entering LAST-GASP: a domain that stays and is not yet ON stops where it stands. -/
def govLastGasp (s : State) : State :=
  let s := ((List.range 40).filter (fun d => !([0, 4, 5, 23, 24, 35, 36].contains d))).foldl domDrop s
  let s := [0, 4, 5, 23, 24, 35, 36].foldl (fun s d => if domState s d = 5 then setDom s d 4 else if domState s d = 1 then setDom s d 0 else s) s
  setF (setB s Reg.PWR_STATUS 7 s.pwr.ramp.isSome) Reg.PWR_STATUS 5 0 0

/-! Supply monitors (R525, R526). -/

/-- VHOLD_LOW (R525): a fall of VHOLD below 5.0 V outside LAST-GASP. -/
def execVholdLow (mV : Nat) (s : State) : Out :=
  if 5000 ≤ mV ∨ mode s = Mode.lastGasp ∨ !bit s Reg.PWR_STATUS 9 then .next s
  else
    let s := inc (setB (setB s Reg.PWR_STATUS 9 false) Reg.PWR_STATUS 11 true) Reg.PWR_HOLD_LOW
    .next (pushDev s 0x0800 [mV])

/-- VHOLD_RESTORE (R525). -/
def execVholdRestore (s : State) : Out := .next (setB s Reg.PWR_STATUS 9 true)

/-- VBAT_LOW_CHANGE (R526). -/
def execVbatLowChange (low : Bool) (s : State) : Out := .next (setB s Reg.PWR_STATUS 10 low)

end Sys2Proof.Machine
end

