-- ==== Sys2Proof/Machine/Cipher.lean ====
section
/-! DEFINITION. The cryptographic primitives that 17_keys_security.md, 16_twin_redundancy.md and 07_suesk_programming_model.md R240 name and do not
give: SHA-384, AES-256 with GCM and Key Wrap, ECDSA on P-384, each as the standard of its name gives it (log 5). Octets are numbers below 256;
keys, digests, tags and coordinates are numbers, their first octet the highest. -/

namespace Sys2Proof.Machine

/-! SHA-384 (FIPS 180-4). -/

/-- The 80 round constants: the first 64 bits of the fractional parts of the cube roots of the first 80 primes. -/
def shaK : List Nat :=
  [0x428A2F98D728AE22, 0x7137449123EF65CD, 0xB5C0FBCFEC4D3B2F, 0xE9B5DBA58189DBBC]
    ++ [0x3956C25BF348B538, 0x59F111F1B605D019, 0x923F82A4AF194F9B, 0xAB1C5ED5DA6D8118]
    ++ [0xD807AA98A3030242, 0x12835B0145706FBE, 0x243185BE4EE4B28C, 0x550C7DC3D5FFB4E2]
    ++ [0x72BE5D74F27B896F, 0x80DEB1FE3B1696B1, 0x9BDC06A725C71235, 0xC19BF174CF692694]
    ++ [0xE49B69C19EF14AD2, 0xEFBE4786384F25E3, 0x0FC19DC68B8CD5B5, 0x240CA1CC77AC9C65]
    ++ [0x2DE92C6F592B0275, 0x4A7484AA6EA6E483, 0x5CB0A9DCBD41FBD4, 0x76F988DA831153B5]
    ++ [0x983E5152EE66DFAB, 0xA831C66D2DB43210, 0xB00327C898FB213F, 0xBF597FC7BEEF0EE4]
    ++ [0xC6E00BF33DA88FC2, 0xD5A79147930AA725, 0x06CA6351E003826F, 0x142929670A0E6E70]
    ++ [0x27B70A8546D22FFC, 0x2E1B21385C26C926, 0x4D2C6DFC5AC42AED, 0x53380D139D95B3DF]
    ++ [0x650A73548BAF63DE, 0x766A0ABB3C77B2A8, 0x81C2C92E47EDAEE6, 0x92722C851482353B]
    ++ [0xA2BFE8A14CF10364, 0xA81A664BBC423001, 0xC24B8B70D0F89791, 0xC76C51A30654BE30]
    ++ [0xD192E819D6EF5218, 0xD69906245565A910, 0xF40E35855771202A, 0x106AA07032BBD1B8]
    ++ [0x19A4C116B8D2D0C8, 0x1E376C085141AB53, 0x2748774CDF8EEB99, 0x34B0BCB5E19B48A8]
    ++ [0x391C0CB3C5C95A63, 0x4ED8AA4AE3418ACB, 0x5B9CCA4F7763E373, 0x682E6FF3D6B2B8A3]
    ++ [0x748F82EE5DEFB2FC, 0x78A5636F43172F60, 0x84C87814A1F0AB72, 0x8CC702081A6439EC]
    ++ [0x90BEFFFA23631E28, 0xA4506CEBDE82BDE9, 0xBEF9A3F7B2C67915, 0xC67178F2E372532B]
    ++ [0xCA273ECEEA26619C, 0xD186B8C721C0C207, 0xEADA7DD6CDE0EB1E, 0xF57D4F7FEE6ED178]
    ++ [0x06F067AA72176FBA, 0x0A637DC5A2C898A6, 0x113F9804BEF90DAE, 0x1B710B35131C471B]
    ++ [0x28DB77F523047D84, 0x32CAAB7B40C72493, 0x3C9EBE0A15C9BEBC, 0x431D67C49C100D4C]
    ++ [0x4CC5D4BECB3E42B6, 0x597F299CFC657E2A, 0x5FCB6FAB3AD6FAEC, 0x6C44198C4A475817]

/-- The initial hash value of SHA-384: of the square roots of the 9th to 16th primes. -/
def shaH : List Nat :=
  [0xCBBB9D5DC1059ED8, 0x629A292A367CD507, 0x9159015A3070DD17, 0x152FECD8F70E5939]
    ++ [0x67332667FFC00B31, 0x8EB44A8768581511, 0xDB0C2E0D64F98FA7, 0x47B5481DBEFA4FA4]


/-- A rotation of 64 bits to the right. -/
def shaRot (n x : Nat) : Nat := x / 2 ^ n ||| x * 2 ^ (64 - n) % 2 ^ 64

/-- The working variables of a block, a to h, and the next 16 words of its schedule. -/
structure ShaW where
  a : Nat
  b : Nat
  c : Nat
  d : Nat
  e : Nat
  f : Nat
  g : Nat
  h : Nat
  w : List Nat
deriving DecidableEq, Repr

/-- One round. -/
def shaRound (s : ShaW) (k : Nat) : ShaW :=
  let w0 := s.w.headD 0
  let x := s.w.getD 1 0
  let y := s.w.getD 14 0
  let t1 := s.h + (shaRot 14 s.e ^^^ shaRot 18 s.e ^^^ shaRot 41 s.e) + ((s.e &&& s.f) ^^^ ((2 ^ 64 - 1 - s.e) &&& s.g)) + k + w0
  let t2 := (shaRot 28 s.a ^^^ shaRot 34 s.a ^^^ shaRot 39 s.a) + ((s.a &&& s.b) ^^^ (s.a &&& s.c) ^^^ (s.b &&& s.c))
  let n := (shaRot 19 y ^^^ shaRot 61 y ^^^ y / 2 ^ 6) + s.w.getD 9 0 + (shaRot 1 x ^^^ shaRot 8 x ^^^ x / 2 ^ 7) + w0
  ⟨(t1 + t2) % 2 ^ 64, s.a, s.b, s.c, (s.d + t1) % 2 ^ 64, s.e, s.f, s.g, s.w.tail ++ [n % 2 ^ 64]⟩

/-- The first blocks of `n` octets of a message, at most `k`. -/
def octetBlocks (n : Nat) : Nat → List Nat → List (List Nat)
  | 0, _ => []
  | k + 1, l => if l.isEmpty then [] else l.take n :: octetBlocks n k (l.drop n)

/-- One block of 128 octets. -/
def shaBlock (v : List Nat) (b : List Nat) : List Nat :=
  let g (i : Nat) : Nat := v.getD i 0
  let t := shaK.foldl shaRound ⟨g 0, g 1, g 2, g 3, g 4, g 5, g 6, g 7, (octetBlocks 8 16 b).map ofBe⟩
  [(g 0 + t.a) % 2 ^ 64, (g 1 + t.b) % 2 ^ 64, (g 2 + t.c) % 2 ^ 64, (g 3 + t.d) % 2 ^ 64, (g 4 + t.e) % 2 ^ 64, (g 5 + t.f) % 2 ^ 64,
    (g 6 + t.g) % 2 ^ 64, (g 7 + t.h) % 2 ^ 64]

/-- SHA-384 of octets. -/
@[irreducible] def sha384 (m : List Nat) : Nat :=
  let m := m ++ 128 :: (List.replicate ((239 - m.length % 128) % 128) 0 ++ beBytes 16 (8 * m.length))
  (((octetBlocks 128 (m.length / 128) m).foldl shaBlock shaH).take 6).foldl (fun a x => a * 2 ^ 64 + x) 0

/-! AES-256 (FIPS 197). A block is a number of 128 bits, a column a number of 32 bits. -/

/-- The substitution box of AES, 16 octets in each number, the octet of 0 first. -/
def aesBox : List Nat :=
  [0x637C777BF26B6FC53001672BFED7AB76, 0xCA82C97DFA5947F0ADD4A2AF9CA472C0]
    ++ [0xB7FD9326363FF7CC34A5E5F171D83115, 0x04C723C31896059A071280E2EB27B275]
    ++ [0x09832C1A1B6E5AA0523BD6B329E32F84, 0x53D100ED20FCB15B6ACBBE394A4C58CF]
    ++ [0xD0EFAAFB434D338545F9027F503C9FA8, 0x51A3408F929D38F5BCB6DA2110FFF3D2]
    ++ [0xCD0C13EC5F974417C4A77E3D645D1973, 0x60814FDC222A908846EEB814DE5E0BDB]
    ++ [0xE0323A0A4906245CC2D3AC629195E479, 0xE7C8376D8DD54EA96C56F4EA657AAE08]
    ++ [0xBA78252E1CA6B4C6E8DD741F4BBD8B8A, 0x703EB5664803F60E613557B986C11D9E]
    ++ [0xE1F8981169D98E949B1E87E9CE5528DF, 0x8CA1890DBFE6426841992D0FB054BB16]

/-- The inverse substitution box. -/
def aesBoxInv : List Nat :=
  [0x52096AD53036A538BF40A39E81F3D7FB, 0x7CE339829B2FFF87348E4344C4DEE9CB]
    ++ [0x547B9432A6C2233DEE4C950B42FAC34E, 0x082EA16628D924B2765BA2496D8BD125]
    ++ [0x72F8F66486689816D4A45CCC5D65B692, 0x6C704850FDEDB9DA5E154657A78D9D84]
    ++ [0x90D8AB008CBCD30AF7E45805B8B34506, 0xD02C1E8FCA3F0F02C1AFBD0301138A6B]
    ++ [0x3A9111414F67DCEA97F2CFCEF0B4E673, 0x96AC7422E7AD3585E2F937E81C75DF6E]
    ++ [0x47F11A711D29C5896FB7620EAA18BE1B, 0xFC563E4BC6D279209ADBC0FE78CD5AF4]
    ++ [0x1FDDA8338807C731B11210592780EC5F, 0x60517FA919B54A0D2DE57A9F93C99CEF]
    ++ [0xA0E03B4DAE2AF5B0C8EBBB3C83539961, 0x172B047EBA77D626E169146355210C7D]

/-- An octet through a box. -/
def aesSub (box : List Nat) (x : Nat) : Nat := box.getD (x / 16) 0 / 256 ^ (15 - x % 16) % 256

/-- Octet `i` of a column, the first the highest. -/
def colByte (w i : Nat) : Nat := w / 256 ^ (3 - i) % 256
/-- A column from its octets. -/
def colOf (a b c d : Nat) : Nat := ((a * 256 + b) * 256 + c) * 256 + d
/-- The columns of a block. -/
def aesCols (x : Nat) : List Nat := [x / 2 ^ 96 % 2 ^ 32, x / 2 ^ 64 % 2 ^ 32, x / 2 ^ 32 % 2 ^ 32, x % 2 ^ 32]
/-- The block of columns. -/
def aesBlock (l : List Nat) : Nat := l.foldl (fun a w => a * 2 ^ 32 + w) 0

/-- Twice an octet in the field of AES. -/
def aesDbl (x : Nat) : Nat := if x < 128 then 2 * x else (2 * x) ^^^ 0x11B
/-- An octet times a factor below 16 in the field of AES. -/
def aesMul (k x : Nat) : Nat :=
  let x2 := aesDbl x
  let x4 := aesDbl x2
  (if k % 2 = 1 then x else 0) ^^^ (if k / 2 % 2 = 1 then x2 else 0) ^^^ (if k / 4 % 2 = 1 then x4 else 0) ^^^ (if k / 8 % 2 = 1 then aesDbl x4 else 0)
/-- A column times the matrix whose first row is given, each further row turned one to the right. -/
def aesMix (p q r t : Nat) (w : Nat) : Nat :=
  let a := colByte w 0
  let b := colByte w 1
  let c := colByte w 2
  let d := colByte w 3
  let f (p q r t : Nat) : Nat := aesMul p a ^^^ aesMul q b ^^^ aesMul r c ^^^ aesMul t d
  colOf (f p q r t) (f t p q r) (f r t p q) (f q r t p)

/-- Every octet of a column through a box. -/
def colSub (box : List Nat) (w : Nat) : Nat :=
  colOf (aesSub box (colByte w 0)) (aesSub box (colByte w 1)) (aesSub box (colByte w 2)) (aesSub box (colByte w 3))

/-- The next eight words of the key schedule. -/
def aesNext (rc : Nat) (l : List Nat) : List Nat :=
  let g (i : Nat) : Nat := l.getD i 0
  let w0 := g 0 ^^^ colSub aesBox (g 7 % 2 ^ 24 * 256 + g 7 / 2 ^ 24) ^^^ rc * 2 ^ 24
  let w1 := g 1 ^^^ w0
  let w2 := g 2 ^^^ w1
  let w3 := g 3 ^^^ w2
  let w4 := g 4 ^^^ colSub aesBox w3
  let w5 := g 5 ^^^ w4
  let w6 := g 6 ^^^ w5
  [w0, w1, w2, w3, w4, w5, w6, g 7 ^^^ w6]

/-- Key schedules from eight words on: two round keys a turn. -/
def aesSched : Nat → Nat → List Nat → List Nat
  | 0, _, l => [aesBlock (l.take 4)]
  | n + 1, rc, l => aesBlock (l.take 4) :: aesBlock (l.drop 4) :: aesSched n (aesDbl rc) (aesNext rc l)

/-- The 15 round keys of a key. -/
def aesKeys (key : Nat) : List Nat := aesSched 7 1 (aesCols (key / 2 ^ 128 % 2 ^ 128) ++ aesCols key)

/-- The columns of a block with each row turned: row `r` of column `j` from column `j + t r`, through a box. -/
def aesRows (box : List Nat) (t : Nat) (l : List Nat) : List Nat :=
  (List.range 4).map (fun j =>
    let b (r : Nat) : Nat := aesSub box (colByte (l.getD ((j + t * r) % 4) 0) r)
    colOf (b 0) (b 1) (b 2) (b 3))

/-- Rounds under the rest of the round keys; the last one mixes no columns. -/
def aesRounds (x : Nat) : List Nat → Nat
  | [] => x
  | [k] => aesBlock (aesRows aesBox 1 (aesCols x)) ^^^ k
  | k :: ks => aesRounds (aesBlock ((aesRows aesBox 1 (aesCols x)).map (aesMix 2 3 1 1)) ^^^ k) ks

/-- A block under round keys. -/
def aesEnc (ks : List Nat) (x : Nat) : Nat := aesRounds (x ^^^ ks.headD 0) ks.tail

/-- Inverse rounds under the rest of the round keys, last first. -/
def aesInvRounds (x : Nat) : List Nat → Nat
  | [] => x
  | [k] => aesBlock (aesRows aesBoxInv 3 (aesCols x)) ^^^ k
  | k :: ks => aesInvRounds (aesBlock ((aesCols (aesBlock (aesRows aesBoxInv 3 (aesCols x)) ^^^ k)).map (aesMix 14 11 13 9))) ks

/-- The block that a block under round keys stands for. -/
def aesDec (ks : List Nat) (x : Nat) : Nat := aesInvRounds (x ^^^ ks.reverse.headD 0) ks.reverse.tail

/-! AES-256-GCM (NIST SP 800-38D). -/

/-- A product in the field of GCM. -/
def gMul (x y : Nat) : Nat :=
  ((List.range 128).foldl (fun (zv : Nat × Nat) i =>
    (if x.testBit (127 - i) then zv.1 ^^^ zv.2 else zv.1, if zv.2 % 2 = 1 then (zv.2 / 2) ^^^ (0xE1 * 2 ^ 120) else zv.2 / 2)) (0, y)).1

/-- Octets as blocks, the last one padded with zeros. -/
def gBlocks (l : List Nat) : List Nat := (octetBlocks 16 (ceilDiv l.length 16) l).map (fun b => ofBe (b ++ List.replicate (16 - b.length) 0))
/-- GHASH. -/
def gHash (h : Nat) (l : List Nat) : Nat := l.foldl (fun y x => gMul (y ^^^ x) h) 0

/-- The first counter block of an initialisation vector. -/
def gcmJ0 (ks : List Nat) (iv : List Nat) : Nat :=
  if iv.length = 12 then ofBe iv * 2 ^ 32 + 1 else gHash (aesEnc ks 0) (gBlocks iv ++ [8 * iv.length])
/-- A counter block some places on. -/
def gcmCtr (j i : Nat) : Nat := j / 2 ^ 32 * 2 ^ 32 + (j + i) % 2 ^ 32

/-- The text that a text becomes under a key and an initialisation vector: the same way in both directions. -/
@[irreducible] def gcmText (key : Nat) (iv text : List Nat) : List Nat :=
  let ks := aesKeys key
  let j := gcmJ0 ks iv
  ((octetBlocks 16 (ceilDiv text.length 16) text).zipIdx.map (fun (b, i) =>
    (b.zip (beBytes 16 (aesEnc ks (gcmCtr j (i + 1))))).map (fun (x, y) => x % 256 ^^^ y))).flatten

/-- The tag of 128 bits over additional data and a plain text. -/
@[irreducible] def gcmTag (key : Nat) (iv aad text : List Nat) : Nat :=
  let ks := aesKeys key
  gHash (aesEnc ks 0) (gBlocks aad ++ gBlocks (gcmText key iv text) ++ [8 * aad.length * 2 ^ 64 + 8 * text.length]) ^^^ aesEnc ks (gcmJ0 ks iv)

/-! AES Key Wrap (RFC 3394) of a key of 256 bits. -/

/-- The initial value. -/
def wrapIv : Nat := 0xA6A6A6A6A6A6A6A6
/-- Steps of the wrap: the register A and the four parts, from step `t` on. -/
def wrapStep (ks : List Nat) (v : Nat × List Nat) (t : Nat) : Nat × List Nat :=
  let b := aesEnc ks (v.1 * 2 ^ 64 + v.2.headD 0)
  ((b / 2 ^ 64) ^^^ (t + 1), v.2.tail ++ [b % 2 ^ 64])
/-- The same undone. -/
def unwrapStep (ks : List Nat) (v : Nat × List Nat) (t : Nat) : Nat × List Nat :=
  let b := aesDec ks ((v.1 ^^^ (t + 1)) * 2 ^ 64 + v.2.getD 3 0)
  (b / 2 ^ 64, b % 2 ^ 64 :: v.2.take 3)
/-- Four parts of 64 bits. -/
def wrapParts (x : Nat) : List Nat := [x / 2 ^ 192 % 2 ^ 64, x / 2 ^ 128 % 2 ^ 64, x / 2 ^ 64 % 2 ^ 64, x % 2 ^ 64]
/-- The number of parts of 64 bits. -/
def ofParts (l : List Nat) : Nat := l.foldl (fun a x => a * 2 ^ 64 + x) 0

/-- A key wrapped under another, 320 bits. -/
@[irreducible] def keyWrap (kek key : Nat) : Nat :=
  let v := (List.range 24).foldl (wrapStep (aesKeys kek)) (wrapIv, wrapParts key)
  ofParts (v.1 :: v.2)
/-- The key in a wrapped key; none where the initial value does not come out. -/
@[irreducible] def keyUnwrap (kek w : Nat) : Option Nat :=
  let v := (List.range 24).reverse.foldl (unwrapStep (aesKeys kek)) (w / 2 ^ 256 % 2 ^ 64, wrapParts w)
  if v.1 = wrapIv then some (ofParts v.2) else none

/-! P-384 and ECDSA (FIPS 186-4, SP 800-186). A point is Jacobian: X / Z² and Y / Z³; Z is 0 for the point at infinity. -/

/-- The field's prime, the coefficient b and the order of P-384. -/
def p384P : Nat := 2 ^ 384 - 2 ^ 128 - 2 ^ 96 + 2 ^ 32 - 1
def p384B : Nat := 0xB3312FA7E23EE7E4988E056BE3F82D19181D9C6EFE8141120314088F5013875AC656398D8A2ED19D2A85C8EDD3EC2AEF
def p384Order : Nat := 0xFFFFFFFFFFFFFFFFFFFFFFFFFFFFFFFFFFFFFFFFFFFFFFFFC7634D81F4372DDF581A0DB248B0A77AECEC196ACCC52973

/-- A power, by the bits of an exponent below 2^384. -/
def powMod (m x e : Nat) : Nat :=
  (List.range 384).foldl (fun a i => if e.testBit (383 - i) then a * a % m * x % m else a * a % m) 1

/-- A point in Jacobian coordinates. -/
structure Pt where
  x : Nat
  y : Nat
  z : Nat
deriving DecidableEq, Repr

/-- A difference in the field. -/
def fpSub (a b : Nat) : Nat := (a + p384P - b % p384P) % p384P
/-- A product in the field. -/
def fpMul (a b : Nat) : Nat := a * b % p384P

/-- Twice a point. -/
def ptDbl (p : Pt) : Pt :=
  let d := fpMul p.z p.z
  let g := fpMul p.y p.y
  let b := fpMul p.x g
  let a := fpMul 3 (fpMul (fpSub p.x d) (p.x + d))
  let x := fpSub (fpMul a a) (8 * b)
  ⟨x, fpSub (fpMul a (fpSub (4 * b) x)) (8 * fpMul g g), 2 * fpMul p.y p.z % p384P⟩

/-- The sum of two points. -/
def ptAdd (p q : Pt) : Pt :=
  if p.z = 0 then q
  else if q.z = 0 then p
  else
    let pz := fpMul p.z p.z
    let qz := fpMul q.z q.z
    let u := fpMul p.x qz
    let h := fpSub (fpMul q.x pz) u
    let s := fpMul p.y (fpMul q.z qz)
    let r := fpSub (fpMul q.y (fpMul p.z pz)) s
    if h = 0 then (if r = 0 then ptDbl p else ⟨1, 1, 0⟩)
    else
      let h2 := fpMul h h
      let h3 := fpMul h h2
      let v := fpMul u h2
      let x := fpSub (fpSub (fpMul r r) h3) (2 * v)
      ⟨x, fpSub (fpMul r (fpSub v x)) (fpMul s h3), fpMul h (fpMul p.z q.z)⟩

/-- A multiple of a point, by the bits of a scalar below 2^384. -/
def ptMul (d : Nat) (p : Pt) : Pt :=
  (List.range 384).foldl (fun a i => if d.testBit (383 - i) then ptAdd (ptDbl a) p else ptDbl a) ⟨1, 1, 0⟩

/-- The affine coordinates of a point, X then Y; 0 for the point at infinity. -/
def ptXY (p : Pt) : Nat :=
  let i := powMod p384P p.z (p384P - 2)
  let i2 := fpMul i i
  fpMul p.x i2 * 2 ^ 384 + fpMul p.y (fpMul i i2)

/-- The generator. -/
def p384G : Pt :=
  ⟨0xAA87CA22BE8B05378EB1C71EF320AD746E1D3B628BA79B9859F741E082542A385502F25DBF55296C3A545E3872760AB7,
    0x3617DE4A96262C6F5D9E98BF9292DC29F8F41DBD289A147CE9DA3113B5F0B8C00A60B1CE1D7E819D7A431D7C90EA0E5F, 1⟩
/-- The point of X then Y. -/
def ptOf (xy : Nat) : Pt := ⟨xy / 2 ^ 384, xy % 2 ^ 384, 1⟩

/-- Is X then Y a point of P-384? -/
def onCurve (xy : Nat) : Bool :=
  let x := xy / 2 ^ 384
  let y := xy % 2 ^ 384
  decide (x < p384P) && decide (y < p384P) && fpMul y y == (fpMul x (fpMul x x) + fpSub p384B (3 * x)) % p384P

/-- The public key, X then Y, of a scalar. -/
@[irreducible] def pubKey (d : Nat) : Nat := ptXY (ptMul d p384G)
/-- The X coordinate of a scalar times a point. -/
@[irreducible] def ecdhX (d xy : Nat) : Nat := ptXY (ptMul d (ptOf xy)) / 2 ^ 384

/-- Does (r, s) verify for a public key and a message? -/
@[irreducible] def ecdsaOk (key : Nat) (m : List Nat) (r s : Nat) : Bool :=
  let w := powMod p384Order s (p384Order - 2)
  let p := ptAdd (ptMul (sha384 m * w % p384Order) p384G) (ptMul (r * w % p384Order) (ptOf key))
  onCurve key && p.z != 0 && ptXY p / 2 ^ 384 % p384Order == r

/-- The signature of a message under a scalar, with k one more than a number reduced by the order less 1: r and s. -/
@[irreducible] def ecdsaSign (d : Nat) (m : List Nat) (n : Nat) : Nat × Nat :=
  let k := n % (p384Order - 1) + 1
  let r := pubKey k / 2 ^ 384 % p384Order
  (r, powMod p384Order k (p384Order - 2) * ((sha384 m + r * d) % p384Order) % p384Order)

end Sys2Proof.Machine
end

