-- ==== Sys2Proof/Machine/Blank.lean ====
section
/-! DEFINITION. Blanks and the speculation engine (05_lathe_alignment.md, Blank formats; 06_speculation.md): slots, predictions,
envelopes, channel histories, misses. -/

namespace Sys2Proof.Machine

/-! Elementary functions in binary32: the exact value's nearest, moved by at most one place (log 8). -/

/-- A pattern moved by -1, 0 or 1 places, freely. -/
def ulp1 (kind : Nat) (args : List Nat) (x : Nat) : Nat :=
  if !isFin f32 x then x
  else match Config.ulp kind args % 3 with
    | 0 => x
    | 1 => fnext f32 x
    | _ => fprev f32 x

/-- Modulus of a complex number, rounded once. -/
def modF (r : Rnd) (re im : Nat) : Nat :=
  if isNaN f32 re || isNaN f32 im then f32.nan
  else if !isFin f32 re || !isFin f32 im then f32.inf
  else
    let x := dyOf f32 re
    let y := dyOf f32 im
    sqrtRnd f32 r ((x.mul x).add (y.mul y))

/-- Angle of a complex number, rounded to nearest. -/
def argN (re im : Nat) : Nat :=
  if !isFin f32 re || !isFin f32 im then f32.nan else fxPack f32 .near (fxAtan2 (dyOf f32 im) (dyOf f32 re))

/-- Cosine and sine of a binary32 angle, rounded to nearest. -/
def cosN (x : Nat) : Nat := if !isFin f32 x then f32.nan else fxPack f32 .near (fxCos (dyOf f32 x).fx)
def sinN (x : Nat) : Nat := if !isFin f32 x then f32.nan else if (dyOf f32 x).m = 0 then x else fxPack f32 .near (fxSin (dyOf f32 x).fx)

/-- Angle of a complex number, cosine and sine of an angle where no rule asks for the nearest. -/
def argF (re im : Nat) : Nat := ulp1 20 [re, im] (argN re im)
def cosF (x : Nat) : Nat := ulp1 21 [x] (cosN x)
def sinF (x : Nat) : Nat := if (dyOf f32 x).m = 0 then sinN x else ulp1 22 [x] (sinN x)

/-- An angle mapped into (-π, π]. -/
def wrapF (x : Nat) : Nat :=
  if !isFin f32 x then x
  else
    let v := (dyOf f32 x).fx
    if v > fxPi then fxPack f32 .near (v - 2 * fxPi) else if v ≤ -fxPi then fxPack f32 .near (v + 2 * fxPi) else x

/-! Entries of the stream table and the channel directory (04_ingest_streams.md). -/

/-- A field of word `j` of stream entry `i` in a configuration copy. -/
def stF (c : Tab Word) (i j hi lo : Nat) : Nat := bits (getC c Win.ING_ST i j) hi lo
def stEn (c : Tab Word) (i : Nat) : Bool := stF c i 0 31 31 == 1
def stExpect (c : Tab Word) (i : Nat) : Bool := stF c i 0 30 30 == 1
def stCont (c : Tab Word) (i : Nat) : Bool := stF c i 0 29 29 == 1
def stFmt (c : Tab Word) (i : Nat) : Nat := stF c i 0 22 20
def phCnt (c : Tab Word) (i : Nat) : Nat := stF c i 5 24 17
def phBase (c : Tab Word) (i : Nat) : Nat := stF c i 5 16 0
def anCnt (c : Tab Word) (i : Nat) : Nat := stF c i 6 20 15
def anBase (c : Tab Word) (i : Nat) : Nat := stF c i 6 14 0
def dgCnt (c : Tab Word) (i : Nat) : Nat := stF c i 6 24 21
def dgBase (c : Tab Word) (i : Nat) : Nat := stF c i 7 13 0

/-- The head entry above a continuation entry. -/
def headOf (c : Tab Word) : Nat → Nat
  | 0 => 0
  | i + 1 => if stCont c (i + 1) then headOf c i else i + 1

/-- Enabled streams, ascending. -/
def enabledStreams (c : Tab Word) : List Nat := (listed c Win.ING_ST).filter (stEn c)

/-- First analog, frequency, ROCOF and digital channel index (06, Channel history; 07, Gather channel index space). -/
abbrev chAn : Nat := 131072
abbrev chFr : Nat := 163840
abbrev chRo : Nat := 172032
abbrev chDg : Nat := 180224

/-- The word of a directory entry that says whose it is: DATA1 of a phasor or analog entry, DATA0 of a digital one (04, Directory entries). -/
def dirWord (c : Tab Word) (i : Nat) : Nat := getC c Win.ING_DIR i (if i < chFr then 1 else 0)
/-- MAPPED and the owning stream of a directory entry. -/
def dirMapped (c : Tab Word) (i : Nat) : Bool := bitOf (dirWord c i) 31
def dirStream (c : Tab Word) (i : Nat) : Nat := bits (dirWord c i) 28 16

/-- Mapped phasor and analog entries, ascending. -/
def mappedPa (c : Tab Word) : List Nat := (listed c Win.ING_DIR).filter (fun i => decide (i < chFr) && dirMapped c i)

/-- Streams with at least one mapped phasor or analog entry, ascending. -/
def mappedStreams (c : Tab Word) : List Nat :=
  ((mappedPa c).foldl (fun t i => Tab.put t (dirStream c i) ()) ([] : Tab Unit)).map (·.1)

/-- The entries that a fill reaches, in its order (R172). -/
def fillList (c : Tab Word) : List Nat :=
  let ss := mappedStreams c
  mappedPa c ++ ss.map (· + chFr) ++ ss.map (· + chRo)

/-- The same entries by what a fill counts as one: a stream's frequency and ROCOF entry is one, reached in one cycle (R172; 01 R28; log 66). -/
def fillUnits (c : Tab Word) : List (List Nat) :=
  (mappedPa c).map (fun i => [i]) ++ (mappedStreams c).map (fun i => [chFr + i, chRo + i])

/-- The channels whose good values a seal or an amendment offers: the mapped ones, and frequency and ROCOF of every enabled stream (R175). -/
def offerList (c : Tab Word) : List Nat :=
  let more := (enabledStreams c).filter (fun i => !(mappedStreams c).contains i)
  fillList c ++ more.map (· + chFr) ++ more.map (· + chRo)

/-- Fabric cycles of a fill or a history update: ceil(N / 16) + 64, a frequency and ROCOF entry counted once (01 R28). -/
def fillCycles (c : Tab Word) : Nat := ceilDiv ((mappedPa c).length + (mappedStreams c).length) 16 + 64

/-- The stream that owns a channel. -/
def chOwner (c : Tab Word) (ch : Nat) : Nat :=
  if ch < chFr then dirStream c ch else if ch < chRo then ch - chFr else ch - chRo

/-! Slots of a blank (R162 to R168). -/

/-- The missing pattern of a phasor slot. -/
def PhSlot.missing : PhSlot := ⟨0x7FC00000, 0x7FC00000, 0, 0, 0x7C00, 0⟩
/-- A header not written. -/
def Hdr.missing : Hdr := ⟨0, 0, 0, 0⟩

def Blank.phOf (b : Blank) (i : Nat) : PhSlot := Tab.get (fun _ => PhSlot.missing) b.ph i
def Blank.hdrOf (b : Blank) (i : Nat) : Hdr := Tab.get (fun _ => Hdr.missing) b.hdr i
def Blank.frOf (b : Blank) (i : Nat) : Nat × Nat := Tab.get (fun _ => (0x7FC00000, 0x7FC00000)) b.fr i
def Blank.anOf (b : Blank) (i : Nat) : Nat := Tab.get (fun _ => 0x7FC00000) b.an i
def Blank.dgOf (b : Blank) (i : Nat) : Nat := Tab.get (fun _ => 0) b.dg i
/-- Entry of the scalar envelope area (06 R185). -/
def Blank.envOf (b : Blank) (i : Nat) : Nat := Tab.get (fun _ => 0x7C00) b.env i
def Blank.lost (b : Blank) (ch : Nat) : Bool := Tab.get (fun _ => 0) b.ecc ch == 1

def Blank.setPh (b : Blank) (i : Nat) (v : PhSlot) : Blank := { b with ph := Tab.set (fun _ => PhSlot.missing) b.ph i v }
def Blank.setHdr (b : Blank) (i : Nat) (v : Hdr) : Blank := { b with hdr := Tab.set (fun _ => Hdr.missing) b.hdr i v }
def Blank.setFr (b : Blank) (i : Nat) (v : Nat × Nat) : Blank := { b with fr := Tab.set (fun _ => (0x7FC00000, 0x7FC00000)) b.fr i v }
def Blank.setAn (b : Blank) (i v : Nat) : Blank := { b with an := Tab.set (fun _ => 0x7FC00000) b.an i v }
def Blank.setDg (b : Blank) (i v : Nat) : Blank := { b with dg := Tab.set (fun _ => 0) b.dg i v }
def Blank.setEnv (b : Blank) (i v : Nat) : Blank := { b with env := Tab.set (fun _ => 0x7C00) b.env i v }
def Blank.setLost (b : Blank) (ch : Nat) (v : Bool) : Blank := { b with ecc := Tab.set (fun _ => 0) b.ecc ch (b2n v) }

/-- Where the envelope of a scalar channel lies in the scalar envelope area. -/
def envIdx (ch : Nat) : Nat := if ch < chFr then 16384 + (ch - chAn) else if ch < chRo then ch - chFr else 8192 + (ch - chRo)

/-- The value at a scalar channel. -/
def Blank.scalar (b : Blank) (ch : Nat) : Nat :=
  if ch < chFr then b.anOf (ch - chAn) else if ch < chRo then (b.frOf (ch - chFr)).1 else (b.frOf (ch - chRo)).2

/-- Put a value at a scalar channel. -/
def Blank.setScalar (b : Blank) (ch v : Nat) : Blank :=
  if ch < chFr then b.setAn (ch - chAn) v
  else if ch < chRo then b.setFr (ch - chFr) (v, (b.frOf (ch - chFr)).2)
  else b.setFr (ch - chRo) ((b.frOf (ch - chRo)).1, v)

/-- Does an entry hold a measured value? A scalar of a stream that has arrived does, unless it is lost, or a prediction has been written since. -/
def Blank.measured (c : Tab Word) (b : Blank) (ch : Nat) : Bool :=
  if ch < chAn then bitOf (b.phOf ch).flags 0 else bitOf (b.hdrOf (chOwner c ch)).sflags 0 && !b.lost ch
    && !(Tab.get (fun _ => (⟨0, 0, 0, 0, 0, false⟩ : Pred)) b.preds ch).written

/-- The value of an entry as a pair; a scalar's second part is 0. -/
def Blank.value (b : Blank) (ch : Nat) : Nat × Nat :=
  if ch < chAn then ((b.phOf ch).re, (b.phOf ch).im) else (b.scalar ch, 0)

/-- Is the entry's value good? (06, Channel history) -/
def Blank.good (c : Tab Word) (b : Blank) (ch : Nat) : Bool :=
  let v := b.value ch
  b.measured c ch && isFin f32 v.1 && isFin f32 v.2 &&
    (if ch < chAn then bits (b.phOf ch).qual 1 0 == 0 && !bitOf (b.phOf ch).flags 6
     else
      let h := b.hdrOf (chOwner c ch)
      bits h.stat 15 14 == 0 && !bitOf h.sflags 5)

/-- The blank of an epoch index, if the ring holds it. -/
def blankOf (s : State) (k : Nat) : Option Blank :=
  match s.aln.ring.getD (k % 32) none with
  | some b => if b.epoch = k then some b else none
  | none => none

/-- The content of a ring slot before this cycle is kept from its first write on (01 R16). -/
def noteSlot (s : State) (i : Nat) : State :=
  if Tab.has s.cyc.blanks i then s else { s with cyc := { s.cyc with blanks := Tab.put s.cyc.blanks i (s.aln.ring.getD i none) } }

/-- Put a blank back into its slot. -/
def setBlank (s : State) (b : Blank) : State :=
  let s := noteSlot s (b.epoch % 32)
  { s with aln := { s.aln with ring := s.aln.ring.set (b.epoch % 32) (some b) } }

/-- Change a blank, if the ring holds it. -/
def onBlank (s : State) (k : Nat) (f : Blank → Blank) : State :=
  match blankOf s k with
  | some b => setBlank s (f b)
  | none => s

/-! Channel histories (R174 to R179). -/

/-- 1.0 -/
abbrev oneF : Nat := 0x3F800000
/-- A cleared history. -/
def Chan.clear : Chan := ⟨none, [], [], oneF, 0, 0, 0, 0⟩

def chanOf (s : State) (ch : Nat) : Chan := Tab.get (fun _ => Chan.clear) s.spc.chans ch
def setChan (s : State) (ch : Nat) (v : Chan) : State :=
  { s with spc := { s.spc with chans := Tab.set (fun _ => Chan.clear) s.spc.chans ch v } }

/-- Offer a value of blank `k` to a history (R175): does it enter, and the history after. -/
def offer (h : Chan) (k re im : Nat) : Chan :=
  let v := (k, re, im)
  match h.vals with
  | [] => { h with vals := [v] }
  | [a] => if a.1 = k then { h with vals := [v] } else { h with vals := if a.1 < k then [a, v] else [v, a] }
  | a :: b :: _ =>
    if a.1 = k then { h with vals := [v, b] }
    else if b.1 = k then { h with vals := [a, v] }
    else if b.1 < k then { h with vals := [b, v] }
    else if a.1 < k then { h with vals := [v, b] }
    else h

/-- |v - p| in binary32. -/
def distF (v p : Nat × Nat) : Nat := modF .near (fsub f32 .near v.1 p.1) (fsub f32 .near v.2 p.2)

/-- The residual of a channel (R177); none where it does not exist. -/
def residual (ch : Nat) (v : Nat × Nat) (p : Pred) : Option Nat :=
  if p.cls < 2 then none
  else
    let ap := modF .near p.re p.im
    if fabs f32 ap = 0 then none
    else
      let d := distF v (p.re, p.im)
      let r := if ch < chFr then fdiv f32 .near d ap else d
      if isFin f32 r then some r else none

/-- RMS of residuals, oldest first, in binary32; 0 of none. -/
def rmsF (l : List Nat) : Nat :=
  if l.isEmpty then 0
  else fsqrt f32 .near (fdiv f32 .near (l.foldl (fun a r => fadd f32 .near a (fmul f32 .near r r)) 0) (fofInt f32 l.length))

/-- The value of a channel in blank `k` is offered, with its residual (R175, R178). -/
def histOffer (s : State) (b : Blank) (ch : Nat) : State :=
  let h := chanOf s ch
  let v := b.value ch
  let h := offer h b.epoch v.1 v.2
  let res := if Tab.has b.preds ch then residual ch v (Tab.get (fun _ => ⟨0, 0, 0, 0, 0, false⟩) b.preds ch) else none
  let h := match res with
    | some r => let l := h.res ++ [r]; { h with res := l.drop (l.length - 32) }
    | none => h
  setChan s ch h

/-- m decreases by d and stops at 1.0, which it is exactly at the 256th seal after the last miss (R197). -/
def decay (h : Chan) : Chan :=
  let m := fsub f32 .near h.m h.d
  { h with m := if flt f32 m oneF || decide (h.left ≤ 1) then oneF else m, left := h.left - 1 }

/-- The channels whose value in a blank is good and has not been offered yet are offered (R175). -/
def offerAll (s : State) (c : Tab Word) (b : Blank) : State × Blank :=
  (offerList c).foldl (fun (s, b) ch =>
    if b.good c ch && !Tab.has b.offered ch then (histOffer s b ch, { b with offered := Tab.put b.offered ch 1 }) else (s, b)) (s, b)

/-! Predictions and envelopes (R180 to R183). -/

/-- The prediction of a channel with two history values for blank `k` (R180). -/
def predict (ch : Nat) (h : Chan) (k : Nat) : Nat × Nat :=
  match h.vals with
  | (j1, x1, y1) :: (j2, x2, y2) :: _ =>
    let dk := fofInt f32 ((k : Int) - j2)
    let dj := fofInt f32 ((j2 : Int) - j1)
    if ch < chAn then
      let m1 := modF .near x1 y1
      let a2 := argF x2 y2
      let w := if fabs f32 m1 = 0 then 0 else fdiv f32 .near (wrapF (fsub f32 .near a2 (argF x1 y1))) dj
      let ang := fadd f32 .near a2 (fmul f32 .near w dk)
      let m2 := modF .near x2 y2
      (fmul f32 .near m2 (cosF ang), fmul f32 .near m2 (sinF ang))
    else if chFr ≤ ch ∧ ch < chRo then
      (fadd f32 .near x2 (fdiv f32 .near (fmul f32 .near (fsub f32 .near x2 x1) dk) dj), 0)
    else (x2, 0)
  | _ => (f32.nan, f32.nan)

/-- The floor register of a channel's kind. -/
def floorReg (ch : Nat) : Nat :=
  if ch < chAn then Reg.SPC_FLOOR_PH else if ch < chFr then Reg.SPC_FLOOR_AN
  else if ch < chRo then Reg.SPC_FLOOR_FREQ else Reg.SPC_FLOOR_ROCOF

/-- SPC_GAIN of a configuration, fixed point with 8 fraction bits, as binary32. -/
def gainF (c : Tab Word) : Nat := (Dy.mk (getC c Reg.SPC_GAIN 0 0 % 65536) (-8)).pack f32 .near

/-- The half-width a reader works with, from the stored envelope (R183). -/
def halfWidth (ch env re im : Nat) : Nat :=
  let e := fcvt f16 f32 .near env
  if ch < chFr then fmul f32 .up e (modF .up re im) else e

/-- Class and prediction of a channel at a fill's start, and its history after (R173, R176, R181 to R183). -/
def fillChan (s : State) (c : Tab Word) (k ch : Nat) : Chan × Pred :=
  let h := chanOf s ch
  let silent := match h.lastSeen with | some l => decide (l + 8 < k) | none => true
  if silent then ({ h with vals := [], res := [], cls := 0 }, ⟨0, f32.nan, f32.nan, 0x7C00, f32.inf, false⟩)
  else if h.vals.length < 2 then ({ h with cls := 1 }, ⟨1, f32.nan, f32.nan, 0x7C00, f32.inf, false⟩)
  else
    let p := predict ch h k
    let cls := if h.res.length < 8 then 2 else 3
    let h' := { h with cls := cls }
    let ap := modF .near p.1 p.2
    if cls = 2 ∨ !isFin f32 ap ∨ fabs f32 ap = 0 then (h', ⟨2, p.1, p.2, 0x7C00, f32.inf, false⟩)
    else
      let e := fmax f32 (rd s (floorReg ch)) (fmul f32 .near (fmul f32 .near (gainF c) h.m) (rmsF h.res))
      let e16 := fcvt f32 f16 .up e
      (h', ⟨3, p.1, p.2, e16, halfWidth ch e16 p.1 p.2, false⟩)

/-- A fill starts in a cycle: the class and prediction of every mapped entry (R172, R173). -/
def startFillAt (s : State) (b : Blank) (cyc : Nat) : State :=
  let c := confOf s b.epoch
  let (s, ps) := (fillList c).foldl (fun (s, ps) ch =>
    let (h, p) := fillChan s c b.epoch ch
    (setChan s ch h, Tab.put ps ch p)) (s, [])
  let s := setBlank s { b with preds := ps, fillAt := some cyc, fillPos := 0 }
  { s with spc := { s.spc with freeAt := cyc + fillCycles c, updating := false } }

/-- A fill starts now. -/
def startFill (s : State) (b : Blank) : State := startFillAt s b s.cycle

/-- Is a seal of a blank due no later than this cycle? -/
def sealDue (s : State) (b : Blank) : Bool :=
  (match b.fullAt with | some f => decide (f < s.cycle) | none => false)
    || decide (deadlineAt s b.epoch (getC (confOf s b.epoch) Reg.ALN_WAIT 0 0 % 2 ^ 22) ≤ s.now)

/-- May a blank's fill still start (05 R138 to R140)? -/
def fillWaits (s : State) (b : Blank) : Bool := b.state == 1 && b.specEn && b.fillAt.isNone && !b.fillDone && !sealDue s b

/-- A fill that waits for the engine is given the cycle after it is free. -/
def deferFill (s : State) (b : Blank) : State :=
  startFillAt (if s.spc.updating then inc s Reg.SPC_FILL_DEFER else s) b (s.spc.freeAt + 1)

/-- The engine runs a history update from the cycle after it is free (R179). -/
def engineUpdate (s : State) (c : Tab Word) : State :=
  let st := if s.cycle ≤ s.spc.freeAt ∧ s.spc.freeAt ≠ 0 then s.spc.freeAt + 1 else s.cycle
  { s with spc := { s.spc with freeAt := st + fillCycles c, updating := true } }

/-- The fills whose start has been triggered and that wait for the engine go before an update triggered now: each is given its start, with the
histories as they stand (R179, log 137). -/
def startWaiting (s : State) (but : Nat) : State :=
  let busy := s.spc.freeAt != 0 && decide (s.cycle ≤ s.spc.freeAt)
  let due := s.aln.ring.filterMap (fun o => match o with
    | some b => if b.epoch ≠ but ∧ fillWaits s b ∧ deadlineAt s b.epoch (getC (confOf s b.epoch) Reg.SPC_DEADLINE 0 0 % 2 ^ 22) < s.now then some b
        else none
    | none => none)
  if busy then (due.foldl (fun t b => Tab.put t b.epoch b) ([] : Tab Blank)).foldl (fun s p => deferFill s p.2) s else s

/-- The history update of a seal or an amendment: offers and residuals, and at a seal the decay of every mapped channel (R179, R197). -/
def histUpdate (s : State) (b : Blank) (atSeal : Bool) : State × Blank :=
  let c := confOf s b.epoch
  let s := startWaiting s b.epoch
  let (s, b) := offerAll s c b
  let s := if atSeal then (fillList c).foldl (fun s ch => setChan s ch (decay (chanOf s ch))) s else s
  (engineUpdate s c, b)

/-- The fill reaches one entry: it leaves a measured value, or writes what the entry's class says (R17, R172, R173). The missing pattern of a SILENT or
COLD entry is no new value, and leaves ECC_LOST (01 R18; DESIGN CHOICE, log 138). -/
def fillEntry (c : Tab Word) (sb : State × Blank) (ch : Nat) : State × Blank :=
  let (s, b) := sb
  let p := Tab.get (fun _ => ⟨0, f32.nan, f32.nan, 0x7C00, f32.inf, false⟩) b.preds ch
  if b.measured c ch then (s, b)
  else
    let s := inc s (if p.cls = 3 ∧ p.env ≠ 0x7C00 then Reg.SPC_PRED_BOUNDED else Reg.SPC_PRED_UNBOUNDED)
    let unb := decide (p.cls < 3) || p.env == 0x7C00
    let lost := bits (b.phOf ch).flags 9 9
    let b := if ch < chAn then b.setPh ch ⟨p.re, p.im, 0, 0, p.env, (if p.cls < 2 then 4 + 512 * lost else 2 + 4 * b2n unb)⟩ else b
    if p.cls < 2 then (s, b)
    else
      let b := if ch < chAn then b else ((b.setScalar ch p.re).setEnv (envIdx ch) p.env).setLost ch false
      let o := chOwner c ch
      let h := b.hdrOf o
      let b := b.setHdr o { h with sflags := setBitN h.sflags 1 }
      (s, { b with preds := Tab.put b.preds ch { p with written := true }, predicted := b.predicted + 1 })

/-- Entries of the fill's count that it has reached before a cycle: 16 a cycle from cycle 64 on, all of them from its end on (R172). -/
def fillReach (c : Tab Word) (st cyc : Nat) : Nat := if st + fillCycles c ≤ cyc then (fillUnits c).length else 16 * (cyc - st - 64)

/-- The fill's writes up to a cycle. -/
def syncFill (s : State) (k cyc : Nat) : State :=
  match blankOf s k with
  | some b =>
    match b.fillAt with
    | some st =>
      let c := confOf s k
      let n := fillReach c st cyc
      if n ≤ b.fillPos then s
      else
        let (s, b) := (((fillUnits c).drop b.fillPos).take (n - b.fillPos)).flatten.foldl (fillEntry c) (s, b)
        setBlank s { b with fillPos := n }
    | none => s
  | none => s

/-! Measured values and misses (R166, R174, R195, R196). -/

/-- A measured value is about to replace what entry `ch` holds: it is judged where a written prediction stood there. Answers whether it
missed. -/
def judge (s : State) (b : Blank) (ch : Nat) (v : Nat × Nat) (isGood : Bool) : State × Blank × Bool :=
  let p := Tab.get (fun _ => ⟨0, 0, 0, 0, 0, false⟩) b.preds ch
  if !p.written then (s, b, false)
  else
    let b := { b with preds := Tab.put b.preds ch { p with written := false } }
    if p.cls ≠ 3 ∨ p.env = 0x7C00 then (s, b, false)
    else if !isGood then (inc s Reg.SPC_NOTGOOD, b, false)
    else
      let s := inc s Reg.SPC_JUDGED
      let d := distF v (p.re, p.im)
      if flt f32 p.h d then
        let h := chanOf s ch
        let m := fmin f32 0x41000000 (fmul f32 .near 0x3FA00000 h.m)
        let dd := fdiv f32 .near (fsub f32 .near m oneF) 0x43800000
        let s := setChan s ch { h with miss := satAdd 16 h.miss 1, m := m, d := dd, left := 256 }
        let s := inc s Reg.SPC_MISSES
        let s := if b.provAlarm && !b.missed then inc s Reg.SPC_ALARM_MISS else s
        let x := fdiv f32 .near d p.h
        let b := { b with missed := b.missed || b.provAlarm, missN := b.missN + 1, missCh := if b.missN = 0 then ch else b.missCh, missX := if b.missN = 0 then x else fmax f32 b.missX x }
        (s, b, true)
      else (s, b, false)

/-- LAST_SEEN follows a good value written in blank `k` (R174). -/
def seen (s : State) (ch k : Nat) : State :=
  let h := chanOf s ch
  match h.lastSeen with
  | some l => if l < k then setChan s ch { h with lastSeen := some k } else s
  | none => setChan s ch { h with lastSeen := some k }

/-- What is common to every value of a block: written by amendment number, late. -/
structure ArrFlags where
  amend : Nat
  late : Bool

/-- Write phasor `v` of a block into slot `ch` (R163 to R166). -/
def writePh (blk : Block) (f : ArrFlags) (ofs : Nat) (sb : State × Blank) (ch : Nat) (v : Nat × Nat × Nat) : State × Blank :=
  let (s, b) := sb
  let g := isFin f32 v.1 && isFin f32 v.2.1 && bits v.2.2 1 0 == 0 && !blk.held
  let (s, b, miss) := judge s b ch (v.1, v.2.1) g
  let flags := 1 + 8 * b2n (f.late || decide (f.amend ≠ 0)) + 16 * b2n (decide (f.amend ≠ 0)) + 32 * b2n blk.repaired + 64 * b2n blk.held
    + 128 * b2n blk.resampled + 256 * b2n miss + 2048 * b2n (blk.lan == some 1) + 4096 * min f.amend 15
  let b := b.setPh ch ⟨v.1, v.2.1, ofs, v.2.2, 0, flags⟩
  (if g then seen s ch b.epoch else s, b)

/-- Write a scalar value of a block. -/
def writeScalar (blk : Block) (sb : State × Blank) (ch v : Nat) : State × Blank :=
  let (s, b) := sb
  let g := isFin f32 v && bits blk.stat 15 14 == 0 && !blk.held
  let (s, b, _) := judge s b ch (v, 0) g
  let b := ((b.setScalar ch v).setEnv (envIdx ch) 0).setLost ch false
  (if g then seen s ch b.epoch else s, b)

/-- Is the block late for its blank: judged after the speculation deadline of a blank opened with SPEC_EN = 1? (R165) -/
def lateIn (s : State) (c : Tab Word) (b : Blank) (blk : Block) : Bool :=
  b.specEn && decide ((b.epoch * 1000000 + getC c Reg.SPC_DEADLINE 0 0 % 2 ^ 22 * blankRate s) * 1000 * nsU < blk.judge * blankRate s)

/-- Write every value of a block into a blank (05, Blank formats); `amend` is the amendment's number, 0 for none. -/
def writeBlockIn (s : State) (b : Blank) (blk : Block) (amend : Nat) : State × Blank :=
  let c := confOf s b.epoch
  let st := blk.stream
  let f : ArrFlags := ⟨amend, lateIn s c b blk⟩
  let ofs := if blk.early then 0 else ofsAfter s blk.arrAt b.epoch 0xFFFFFF
  let sb := blk.ph.zipIdx.foldl (fun sb (v, i) => if i < phCnt c st then writePh blk f ofs sb (phBase c st + i) v else sb) (s, b)
  let sb := writeScalar blk (writeScalar blk sb (chFr + st) blk.freq) (chRo + st) blk.rocof
  let sb := blk.an.zipIdx.foldl (fun sb (v, i) => if i < anCnt c st then writeScalar blk sb (chAn + anBase c st + i) v else sb) sb
  let (s, b) := sb
  let b := blk.dg.zipIdx.foldl (fun b (v, i) => if i < dgCnt c st then b.setDg (dgBase c st + i) (v % 65536) else b) b
  let sfl := 1 + 4 * b2n (f.late || decide (amend ≠ 0)) + 8 * b2n (decide (amend ≠ 0)) + 16 * b2n blk.repaired + 32 * b2n blk.held
    + 64 * b2n (blk.lan == some 1) + 128 * b2n blk.early
  (s, b.setHdr st ⟨blk.stat % 65536, ofs, sfl, min amend 255⟩)

/-- Misses recorded in a blank are reported at its seal and its amendments: an item, and at most one log record per MISSLOG_IVL (R198). -/
def reportMisses (s : State) (b : Blank) : State × Blank :=
  if b.missN = 0 then (s, b)
  else
    let s := pushDev s 0x0030 [b.epoch, b.missN]
    let ivl := max 1 (fld s Reg.SPC_CTRL 15 8)
    let ok := match s.spc.logAt with | some t => decide (t + ivl * cycSec ≤ s.cycle) | none => true
    let s := if ok then
        let s := logRec s 0x0030 (leBytes 8 b.epoch ++ leBytes 4 b.missN ++ leBytes 4 b.missCh ++ leBytes 4 b.missX ++ leBytes 4 s.spc.suppressed)
        { s with spc := { s.spc with logAt := some s.cycle, suppressed := 0 } }
      else { s with spc := { s.spc with suppressed := s.spc.suppressed + 1 } }
    (s, { b with missN := 0, missCh := 0, missX := 0 })

/-! Speculation registers. -/

/-- SPC_HIST_CLR (R203): a write of SPC_CTRL with HIST_CLR = 1; the clear acts at the next opening. -/
def spcCtrlWrite (s : State) (v : Nat) : State :=
  let s := setF s Reg.SPC_CTRL 15 8 (bits v 15 8)
  if bitOf v 0 then { s with spc := { s.spc with histClr := true } } else s

/-- SPC_HIST_CLR (R203). -/
def execSpcHistClr (v : Word) (s : State) : Out :=
  .next (ungated s Reg.SPC_CTRL fun s => spcCtrlWrite s (setBitN v.toNat 0))

/-- A write of SPC_CHCLR (R202): one channel's miss count, or every channel's. -/
def chClrWrite (s : State) (v : Nat) : State :=
  if bitOf v 31 then
    s.spc.chans.foldl (fun s p => setChan s p.1 { chanOf s p.1 with miss := 0 }) s
  else setChan s (bits v 17 0) { chanOf s (bits v 17 0) with miss := 0 }

/-- SPC_CHANNEL_MISS_CLEAR (R202). -/
def execSpcChannelMissClear (v : Word) (s : State) : Out := .next (ungated s Reg.SPC_CHCLR fun s => chClrWrite s v.toNat)

/-- Permitted range of a floor, binary32 patterns of the decimal limits (R202). -/
def floorRange : Nat → Nat × Nat
  | 0 | 1 => (0x38D1B717, 0x3F000000)
  | 2 => (0x38D1B717, 0x40A00000)
  | _ => (0x3A83126F, 0x42480000)

/-- A write of an envelope floor: within its range it applies from the next fill, else it is refused (R202). -/
def floorWrite (s : State) (i v : Nat) : State :=
  let (lo, hi) := floorRange i
  if isNaN f32 v || flt f32 v lo || flt f32 hi v then setB s Reg.SPC_STATUS 0 true
  else wr s (Reg.SPC_FLOOR_PH + 4 * i) v

/-- SPC_FLOOR_WRITE (R202). -/
def execSpcFloorWrite (which : Fin 4) (v : Word) (s : State) : Out :=
  .next (ungated s Reg.SPC_FLOOR_PH fun s => floorWrite s which v.toNat)

end Sys2Proof.Machine
end

