-- ==== Sys2Proof/Machine/Operands.lean ====
section
/-! DEFINITION. Vector elements as discs and intervals, and the arithmetic on them (07_suesk_programming_model.md R205 to R208;
08_suesk_instructions.md R248, R249, R261 to R265). -/

namespace Sys2Proof.Machine

/-- The element that stands for every value, as instructions write it (R248). -/
def VEl.every : VEl := ⟨0x7FC00000, 0x7FC00000, 0x7F800000⟩

/-- Does an element stand for every value? (R206, R248) An envelope that is no number counts as infinite. -/
def VEl.isEvery (x : VEl) : Bool := isNaN f32 x.re || isNaN f32 x.im || !isFin f32 x.env

/-- 2 to the power -21, of w(c). -/
abbrev w21 : Nat := 0x35000000

/-- A product and a sum rounded toward +infinity. -/
def mulU (x y : Nat) : Nat := fmul f32 .up x y
def addU (x y : Nat) : Nat := fadd f32 .up x y
/-- A product, sum and difference rounded to nearest. -/
def mulN (x y : Nat) : Nat := fmul f32 .near x y
def addN (x y : Nat) : Nat := fadd f32 .near x y
def subN (x y : Nat) : Nat := fsub f32 .near x y

/-- An element built as computed: overflow of the envelope, and invalid operations, give EVERY (R233, R249). -/
def mkEl (re im env : Nat) : VEl :=
  if isNaN f32 re || isNaN f32 im || !isFin f32 env then .every else ⟨re, im, env⟩

/-- w(c) (R249). -/
def wOf (re im : Nat) : Nat := mulU w21 (fmax f32 (fabs f32 re) (fabs f32 im))

/-- A complex result: the radius of its formula and w(c) (R249). -/
def cRes (re im r : Nat) : VEl := mkEl re im (addU r (wOf re im))

/-! Real domain. -/

/-- A bound of an interval. -/
inductive Bnd where
  | ninf
  | num (d : Dy)
  | pinf
deriving DecidableEq, Repr

def Bnd.le : Bnd → Bnd → Bool
  | .ninf, _ => true
  | _, .pinf => true
  | .num a, .num b => a.le b
  | _, _ => false

def Bnd.lt (a b : Bnd) : Bool := !(b.le a)
def Bnd.min (a b : Bnd) : Bnd := if a.le b then a else b
def Bnd.max (a b : Bnd) : Bnd := if a.le b then b else a
def Bnd.neg : Bnd → Bnd
  | .ninf => .pinf
  | .pinf => .ninf
  | .num a => .num a.neg

/-- The bound of a pattern. -/
def Bnd.of (w : Nat) : Bnd :=
  match unpack f32 w with
  | .inf true => .ninf
  | .inf false => .pinf
  | .nan => .pinf
  | .fin _ _ _ => .num (dyOf f32 w)

/-- The pattern of a bound under a rounding direction. -/
def Bnd.pack (r : Rnd) : Bnd → Nat
  | .ninf => f32.sgn + f32.inf
  | .pinf => f32.inf
  | .num d => d.pack f32 r

/-- The bounds of an element read in the real domain, exact (log 18). -/
def VEl.lo (x : VEl) : Bnd := match Bnd.of x.re with | .num d => .num (d.sub (dyOf f32 x.env)) | b => b
def VEl.hi (x : VEl) : Bnd := match Bnd.of x.re with | .num d => .num (d.add (dyOf f32 x.env)) | b => b

/-- A real result from the patterns of its bounds (R249). -/
def rPat (lo hi : Nat) : VEl :=
  if !isFin f32 lo || !isFin f32 hi then .every
  else
    let s := (dyOf f32 lo).add (dyOf f32 hi)
    let mid := (Dy.mk s.m (s.e - 1)).pack f32 .near
    mkEl mid 0 (fmax f32 (fsub f32 .up hi mid) (fsub f32 .up mid lo))

/-- A real result from its bounds, each rounded outward once (R249). -/
def rRes (lo hi : Bnd) : VEl := rPat (lo.pack .down) (hi.pack .up)

/-- A transcendental bound: the reference value rounded outward and moved outward by 0 to 8 places, freely, within what R249 allows (log 8). -/
def outUp (kind : Nat) (args : List Nat) (i : Int) : Nat := iter (fnext f32) (Config.ulp kind args % 9) (fxPack f32 .up i)
def outDown (kind : Nat) (args : List Nat) (i : Int) : Nat := iter (fprev f32) (Config.ulp kind args % 9) (fxPack f32 .down i)

/-! Hulls (R208). -/

/-- The smaller of two patterns is below the other's sum: does disc `a` contain disc `b`? -/
def discHolds (a b : VEl) : Bool :=
  let dx := (dyOf f32 a.re).sub (dyOf f32 b.re)
  let dy := (dyOf f32 a.im).sub (dyOf f32 b.im)
  let dr := (dyOf f32 a.env).sub (dyOf f32 b.env)
  decide (0 ≤ dr.m) && ((dx.mul dx).add (dy.mul dy)).le (dr.mul dr)

/-- Distance of two points, rounded up. -/
def distU (x y u v : Nat) : Nat :=
  let dx := (dyOf f32 x).sub (dyOf f32 u)
  let dy := (dyOf f32 y).sub (dyOf f32 v)
  sqrtRnd f32 .up ((dx.mul dx).add (dy.mul dy))

/-- The smallest disc that contains two discs, its midpoint rounded to nearest, its radius grown to hold both (R208, R249). -/
def discHull (a b : VEl) : VEl :=
  if a.isEvery || b.isEvery then .every
  else if a = b then a
  else if !isFin f32 a.re || !isFin f32 a.im || !isFin f32 b.re || !isFin f32 b.im then .every
  else if discHolds a b then a
  else if discHolds b a then b
  else
    let d := distU a.re a.im b.re b.im
    let t := fdiv f32 .near (addN d (subN b.env a.env)) (addN d d)
    let re := addN a.re (mulN (subN b.re a.re) t)
    let im := addN a.im (mulN (subN b.im a.im) t)
    if !isFin f32 re || !isFin f32 im then .every
    else mkEl re im (fmax f32 (addU (distU re im a.re a.im) a.env) (addU (distU re im b.re b.im) b.env))

/-- The smallest interval that contains two intervals (R208). -/
def intHull (a b : VEl) : VEl :=
  if a.isEvery || b.isEvery then .every else rRes (a.lo.min b.lo) (a.hi.max b.hi)

/-! Complex functions of the VALU group (R261, R262). Every operand that is EVERY makes the result EVERY (R248). -/

/-- A one-operand function under R248. -/
def lift1 (f : VEl → VEl) (a : VEl) : VEl := if a.isEvery then .every else f a
/-- A two-operand function under R248. -/
def lift2 (f : VEl → VEl → VEl) (a b : VEl) : VEl := if a.isEvery || b.isEvery then .every else f a b

/-- The midpoint product, rounded to nearest at each step. -/
def cMul (x y u v : Nat) : Nat × Nat := (subN (mulN x u) (mulN y v), addN (mulN x v) (mulN y u))

/-- |ca| rb + |cb| ra + ra rb, every step rounded up. -/
def radMul (a b : VEl) : Nat :=
  addU (addU (mulU (modF .up a.re a.im) b.env) (mulU (modF .up b.re b.im) a.env)) (mulU a.env b.env)

def elAdd (a b : VEl) : VEl := cRes (addN a.re b.re) (addN a.im b.im) (addU a.env b.env)
def elSub (a b : VEl) : VEl := cRes (subN a.re b.re) (subN a.im b.im) (addU a.env b.env)
def elMul (a b : VEl) : VEl :=
  let c := cMul a.re a.im b.re b.im
  cRes c.1 c.2 (radMul a b)
def elMulc (a b : VEl) : VEl :=
  let c := cMul a.re a.im b.re (fneg f32 b.im)
  cRes c.1 c.2 (radMul a b)

/-- VDIV (R262). -/
def elDiv (a b : VEl) : VEl :=
  if !isFin f32 b.re || !isFin f32 b.im then .every
  else
    let x := dyOf f32 b.re
    let y := dyOf f32 b.im
    let r := dyOf f32 b.env
    let den := (((x.mul x).add (y.mul y)).sub (r.mul r)).pack f32 .down
    if !(flt f32 0 den) then .every
    else
      let ur := fdiv f32 .near b.re den
      let ui := fdiv f32 .near (fneg f32 b.im) den
      let ri := fdiv f32 .up b.env den
      let c := cMul a.re a.im ur ui
      cRes c.1 c.2 (addU (addU (mulU (modF .up a.re a.im) ri) (mulU (modF .up ur ui) a.env)) (mulU a.env ri))

def elConj (a : VEl) : VEl := ⟨a.re, fneg f32 a.im, a.env⟩
def elNeg (a : VEl) : VEl := ⟨fneg f32 a.re, fneg f32 a.im, a.env⟩
/-- VSCL by the binary32 `k`, exact. -/
def elScl (k : Nat) (a : VEl) : VEl :=
  if !isFin f32 k then .every else cRes (mulN k a.re) (mulN k a.im) (mulU (fabs f32 k) a.env)
/-- VWIDEN by the binary32 `k`. -/
def elWiden (k : Nat) (a : VEl) : VEl := if !isFin f32 k then .every else cRes a.re a.im (addU a.env (fabs f32 k))

/-- min(2, rb) -/
def min2 (r : Nat) : Nat := fmin f32 0x40000000 r

def elRot (a b : VEl) : VEl :=
  let c := cMul a.re a.im (cosN b.re) (sinN b.re)
  cRes c.1 c.2 (addU a.env (mulU (addU (modF .up a.re a.im) a.env) (min2 b.env)))
def elPolar (a b : VEl) : VEl :=
  let big := fmax f32 (fabs f32 (a.lo.pack .down)) (fabs f32 (a.hi.pack .up))
  cRes (mulN a.re (cosN b.re)) (mulN a.re (sinN b.re)) (addU a.env (mulU big (min2 b.env)))
def elCplx (a b : VEl) : VEl := cRes a.re b.re (fsqrt f32 .up (addU (mulU a.env a.env) (mulU b.env b.env)))
/-- VHULL: the hull, and w(c) as any complex result. -/
def elHull (a b : VEl) : VEl :=
  let h := discHull a b
  if h.isEvery then .every else cRes h.re h.im h.env

/-! From the complex to the real domain. -/

/-- Patterns of max(0, |ca| - ra) and |ca| + ra. -/
def absPat (a : VEl) : Nat × Nat :=
  (fmax f32 0 (fsub f32 .down (modF .down a.re a.im) a.env), addU (modF .up a.re a.im) a.env)
def elAbs (a : VEl) : VEl := rPat (absPat a).1 (absPat a).2
def elSqr (a : VEl) : VEl :=
  let p := absPat a
  rPat (fmul f32 .down p.1 p.1) (mulU p.2 p.2)

/-- The exponent of a dyadic number's leading bit, for scaling. -/
def Dy.top (d : Dy) : Int := if d.m = 0 then -100000 else d.e + (Nat.log2 d.m.natAbs : Nat)

/-- The interval of arg(c) about c = re + i im with radius r, all scaled alike (R261, R263). -/
def argRes (kind : Nat) (args : List Nat) (re im r : Dy) : VEl :=
  let m2 := (re.mul re).add (im.mul im)
  if m2.le (r.mul r) then .every
  else
    let t := max re.top im.top
    let sc (d : Dy) : Dy := ⟨d.m, d.e - t⟩
    let mag := fxSqrt ((sc re).mul (sc re) |>.add ((sc im).mul (sc im))).fx
    let q := if r.m = 0 then 0 else max 1 (fxDiv (sc r).fx mag)
    let d := fxAsin (min q fxOne)
    let a := fxAtan2 im re
    rPat (outDown kind args (a - d)) (outUp (kind + 1000) args (a + d))

def elArg (a : VEl) : VEl :=
  if !isFin f32 a.re || !isFin f32 a.im then .every
  else argRes 110 [a.re, a.im, a.env] (dyOf f32 a.re) (dyOf f32 a.im) (dyOf f32 a.env)
/-- VARGD: p is taken exactly, so that the angle contains the exact result (R206, log 18). -/
def elArgd (a b : VEl) : VEl :=
  if !isFin f32 a.re || !isFin f32 a.im || !isFin f32 b.re || !isFin f32 b.im || !isFin f32 (radMul a b) then .every
  else
    let x := dyOf f32 a.re
    let y := dyOf f32 a.im
    let u := dyOf f32 b.re
    let v := dyOf f32 b.im
    argRes 111 [a.re, a.im, a.env, b.re, b.im, b.env] ((x.mul u).add (y.mul v)) ((y.mul u).sub (x.mul v)) (dyOf f32 (radMul a b))
def elRe (a : VEl) : VEl := rRes a.lo a.hi
def elIm (a : VEl) : VEl := elRe ⟨a.im, 0, a.env⟩

/-! Real functions. -/

def elRadd (a b : VEl) : VEl :=
  match a.lo, a.hi, b.lo, b.hi with
  | .num la, .num ha, .num lb, .num hb => rRes (.num (la.add lb)) (.num (ha.add hb))
  | _, _, _, _ => .every
def elRsub (a b : VEl) : VEl :=
  match a.lo, a.hi, b.lo, b.hi with
  | .num la, .num ha, .num lb, .num hb => rRes (.num (la.sub hb)) (.num (ha.sub lb))
  | _, _, _, _ => .every
/-- Bounds of the four products. -/
def mulBnd (la ha lb hb : Dy) : Bnd × Bnd :=
  let p := la.mul lb
  let q := la.mul hb
  let r := ha.mul lb
  let t := ha.mul hb
  (.num ((p.min q).min (r.min t)), .num ((p.max q).max (r.max t)))
def elRmul (a b : VEl) : VEl :=
  match a.lo, a.hi, b.lo, b.hi with
  | .num la, .num ha, .num lb, .num hb => let p := mulBnd la ha lb hb; rRes p.1 p.2
  | _, _, _, _ => .every
def elRdiv (a b : VEl) : VEl :=
  match a.lo, a.hi, b.lo, b.hi with
  | .num la, .num ha, .num lb, .num hb =>
    if decide (lb.m ≤ 0) && decide (0 ≤ hb.m) then .every
    else
      let one := Dy.ofInt 1
      let l := divRnd f32 .down one hb
      let h := divRnd f32 .up one lb
      if !isFin f32 l || !isFin f32 h then .every
      else let p := mulBnd la ha (dyOf f32 l) (dyOf f32 h); rRes p.1 p.2
  | _, _, _, _ => .every
def elRsqrt (a : VEl) : VEl :=
  match a.lo, a.hi with
  | .num la, .num ha =>
    if la.m < 0 then .every
    else rPat (if la.m = 0 then 0 else sqrtRnd f32 .down la) (if ha.m = 0 then 0 else sqrtRnd f32 .up ha)
  | _, _ => .every
def elRmin (a b : VEl) : VEl := rRes (a.lo.min b.lo) (a.hi.min b.hi)
def elRmax (a b : VEl) : VEl := rRes (a.lo.max b.lo) (a.hi.max b.hi)

/-- Does [l, h] hold p + 2 π n for some integer n? -/
def holdsAt (l h p : Int) : Bool := decide (l ≤ p + 2 * fxPi * ((h - p) / (2 * fxPi)))

/-- Range of sin or cos over an interval; `peak` and `low` are where it is 1 and -1. -/
def trigRes (kind : Nat) (f : Int → Int) (peak low : Int) (a : VEl) : VEl :=
  match a.lo, a.hi with
  | .num la, .num ha =>
    let l := la.fx
    let h := ha.fx
    if h - l ≥ 2 * fxPi then rPat 0xBF800000 0x3F800000
    else
      let x := f l
      let y := f h
      rPat (if holdsAt l h low then 0xBF800000 else outDown kind [a.re, a.env] (min x y))
        (if holdsAt l h peak then 0x3F800000 else outUp (kind + 1000) [a.re, a.env] (max x y))
  | _, _ => .every
def elRsin (a : VEl) : VEl := trigRes 139 fxSin (fxPi / 2) (-(fxPi / 2)) a
def elRcos (a : VEl) : VEl := trigRes 140 fxCos 0 fxPi a
def elRabs (a : VEl) : VEl :=
  let z := Bnd.num (Dy.ofInt 0)
  if z.le a.lo then rRes a.lo a.hi
  else if a.hi.le z then rRes a.hi.neg a.lo.neg
  else rRes z (a.lo.neg.max a.hi)

/-! Moves and reductions (R264, R265). -/

/-- The sum of four elements, in rising order (VSUMC). -/
def elSumc (x : List VEl) : VEl :=
  if x.any VEl.isEvery then .every
  else
    match x with
    | a :: rest =>
      let t := rest.foldl (fun (t : VEl) (b : VEl) => ⟨addN t.re b.re, addN t.im b.im, addU t.env b.env⟩) a
      cRes t.re t.im t.env
    | [] => .every
/-- VRMAXR and VRMINR. -/
def elMaxr (x : List VEl) : VEl :=
  if x.any VEl.isEvery then .every
  else rRes (x.foldl (fun b e => b.max e.lo) .ninf) (x.foldl (fun b e => b.max e.hi) .ninf)
def elMinr (x : List VEl) : VEl :=
  if x.any VEl.isEvery then .every
  else rRes (x.foldl (fun b e => b.min e.lo) .pinf) (x.foldl (fun b e => b.min e.hi) .pinf)
/-- VFROMI: the nearest binary32 and its rounding error. -/
def elFromi (i : Int) : VEl :=
  let w := fofInt f32 i
  ⟨w, 0, ((dyOf f32 w).sub (Dy.ofInt i)).abs.pack f32 .up⟩
/-- VFROMF and VSPLATI. -/
def elFromf (w : Nat) : VEl := if isFin f32 w then ⟨w, 0, 0⟩ else .every

/-! Reading a blank (R213). -/

/-- Element that a gather delivers (R213). -/
def gatherEl (s : State) (k i : Nat) : VEl :=
  match blankOf s k with
  | none => .every
  | some b =>
    if i < chAn then
      let q := b.phOf i
      if bitOf q.flags 2 ∨ q.flags = 0 then .every
      else
        let e : VEl := ⟨q.re, q.im, if bitOf q.flags 0 then 0 else halfWidth i q.env q.re q.im⟩
        if e.isEvery then .every else e
    else if i < chDg then
      let v := b.scalar i
      let env := b.envOf (envIdx i)
      let e : VEl := ⟨v, 0, if b.lost i then f32.inf else if env % 0x8000 = 0 then 0 else halfWidth i env v 0⟩
      if e.isEvery then .every else e
    else ⟨fofInt f32 (b.dgOf (i - chDg)), 0, 0⟩

end Sys2Proof.Machine
end

