-- ==== Sys2Proof/Machine/Flags.lean ====
section
/-! DEFINITION. Three-valued outcomes: predicate logic, comparisons of intervals and scalars, branch conditions
(06_speculation.md R186, R188; 07_suesk_programming_model.md R207, R208; 08_suesk_instructions.md R252, R257, R260, R266). -/

namespace Sys2Proof.Machine

/-- 0b00 FALSE, 0b01 TRUE, 0b10 UNSURE; 0b11 reads as UNSURE (R207). -/
abbrev kF : Nat := 0
abbrev kT : Nat := 1
abbrev kU : Nat := 2

/-- A code as it reads. -/
def kRead (c : Nat) : Nat := if c % 4 = 3 then kU else c % 4

/-- AND, OR, NOT of R188. -/
def kAnd (a b : Nat) : Nat := if a = kF ∨ b = kF then kF else if a = kT ∧ b = kT then kT else kU
def kOr (a b : Nat) : Nat := if a = kT ∨ b = kT then kT else if a = kF ∧ b = kF then kF else kU
def kNot (a : Nat) : Nat := if a = kT then kF else if a = kF then kT else kU

/-- What a governed predicate element becomes (R208). -/
def kMerge (g old new : Nat) : Nat :=
  if g = kT then new else if g = kF then old else if old = new then old else kU

/-- An outcome that is certain. -/
def kOf (b : Bool) : Nat := if b then kT else kF

/-- From when it is TRUE and when it is FALSE. -/
def kTest (t f : Bool) : Nat := if t then kT else if f then kF else kU

/-- VCMP (R266), by FUNC. -/
def elCmp (func : Nat) (a b : VEl) : Nat :=
  if a.isEvery || b.isEvery then kU
  else
    let la := a.lo
    let ha := a.hi
    let lb := b.lo
    let hb := b.hi
    let point := la.le ha && ha.le la && lb.le hb && hb.le lb && la.le lb && lb.le la
    let apart := ha.lt lb || hb.lt la
    match func with
    | 0 => kTest (hb.lt la) (ha.le lb)
    | 1 => kTest (hb.le la) (ha.lt lb)
    | 2 => kTest (ha.lt lb) (hb.le la)
    | 3 => kTest (ha.le lb) (hb.lt la)
    | 4 => kTest point apart
    | _ => kTest apart point

/-- Branch conditions 0 to 6 (R257) over the elements of a predicate. -/
def condMet (cond : Nat) (k : List Nat) : Bool :=
  match cond with
  | 0 => k.all (· == kT)
  | 1 => k.any (· == kT)
  | 2 => k.all (· == kF)
  | 3 => k.any (· == kF)
  | 4 => k.any (· == kU)
  | 5 => k.all (· != kU)
  | _ => true

end Sys2Proof.Machine
end

