-- ==== Sys2Proof/Machine/Keyring.lean ====
section
/-! DEFINITION. Key slots as the device's engines use them (17_keys_security.md R480 to R485). -/

namespace Sys2Proof.Machine

/-- A slot that holds nothing. -/
def KeySlot.empty : KeySlot := ⟨0, 0, 0, none, 0, none, none, false, none, false⟩

/-- Cell 0 or 1 of a slot. -/
def KeySlot.cell (k : KeySlot) (i : Nat) : Option KeyCell := if i = 0 then k.cell0 else k.cell1

/-- Put a cell into a slot. -/
def KeySlot.setCell (k : KeySlot) (i : Nat) (c : Option KeyCell) : KeySlot :=
  if i = 0 then { k with cell0 := c } else { k with cell1 := c }

/-- A key slot. -/
def slotOf (s : State) (n : Nat) : KeySlot := Tab.get (fun _ => KeySlot.empty) s.key.slots n

/-- A key slot as it stood at the start of the fabric cycle, which is what a use of it sees (R485). -/
def slotThen (s : State) (n : Nat) : KeySlot := Tab.get (slotOf s) s.cyc.slots n

/-- Put a slot back; what it was before the cycle is noted. -/
def setSlot (s : State) (n : Nat) (k : KeySlot) : State :=
  { s with
    key := { s.key with slots := Tab.set (fun _ => KeySlot.empty) s.key.slots n k }
    cyc := { s.cyc with slots := Tab.put s.cyc.slots n (slotThen s n) } }

/-- Usage bits of a slot. -/
abbrev Usage.rsvRx : Nat := 0
abbrev Usage.rsvTx : Nat := 1
abbrev Usage.twin : Nat := 2
abbrev Usage.parent : Nat := 3

/-- The live cell of a slot in a role; none where the slot is not LIVE, lacks the role, or failed its integrity code (R480, R476). -/
def KeySlot.liveIn (k : KeySlot) (role : Nat) : Option KeyCell :=
  if k.st = 1 ∧ bitOf k.usage role ∧ !k.fault then k.cell k.live else none

/-- The live cell that a use finds in a slot (R485), and the one that the slot holds now. -/
def liveCell (s : State) (n role : Nat) : Option KeyCell := (slotThen s n).liveIn role
def liveNow (s : State) (n role : Nat) : Option KeyCell := (slotOf s n).liveIn role

/-- The cell that verifies a received SPDU naming a KEY_ID: live, staged or former (R480), as the cycle found them (R485). -/
def rsvCell (s : State) (n keyId : Nat) : Option KeyCell :=
  let k := slotThen s n
  if k.st = 1 ∧ bitOf k.usage Usage.rsvRx ∧ !k.fault then
    match k.cell k.live, k.cell (1 - k.live) with
    | some a, some b => if a.keyId = keyId then some a else if b.keyId = keyId then some b else none
    | some a, none => if a.keyId = keyId then some a else none
    | none, some b => if b.keyId = keyId then some b else none
    | none, none => none
  else none

/-- A slot and every child below it become DRAINING in one cycle (R484). -/
def drainSlot (s : State) : Nat → Nat → State
  | 0, _ => s
  | depth + 1, n =>
    let k := slotOf s n
    if k.st ≠ 1 then s
    else
      let s := inc (setSlot s n { k with st := 2, staged := false, flip := none }) Reg.KEY_DRAINS
      let kids := (s.key.slots.filter (fun p => p.2.parent == some n && p.2.st == 1)).map (·.1)
      kids.foldl (fun s c => drainSlot s depth c) s

/-- A slot is invalidated: the tree of slots below it is at most 512 deep. -/
def invalidate (s : State) (n : Nat) : State := drainSlot s 512 n

/-- A flip takes effect: the live cell and GEN change together (R482). -/
def flipSlot (s : State) (n : Nat) : State :=
  let k := slotOf s n
  if k.st = 1 ∧ k.flip.isSome then
    setSlot s n { k with live := 1 - k.live, gen := satAdd 32 k.gen 1, staged := false, flip := none }
  else s

/-- In the opening cycle of a blank DRAINING slots become EMPTY with both cells cleared, keeping GEN, and flips due at that blank take
effect (R482, R484). -/
def keysAtOpen (s : State) (k : Nat) : State :=
  s.key.slots.foldl (fun s p =>
    if p.2.st = 2 then setSlot s p.1 { KeySlot.empty with gen := p.2.gen }
    else match p.2.flip with
      | some a => if a ≤ k then flipSlot s p.1 else s
      | none => s) s

end Sys2Proof.Machine
end

