-- ==== Sys2Proof/Machine/Output.lean ====
section
/-! DEFINITION. Output sessions (10_output_sessions.md): what a session sends of a blank, its frames and records, the transmit queues, and the
commands of C37.118 receivers. -/

namespace Sys2Proof.Machine

/-! Session, transport and block entries. -/

/-- A field of word `j` of session `i` in a configuration copy. -/
def ssF (c : Tab Word) (i j hi lo : Nat) : Nat := bits (getC c Win.OUT_SESS i j) hi lo
def ssEn (c : Tab Word) (i : Nat) : Bool := ssF c i 0 31 31 == 1
def ssEarly (c : Tab Word) (i : Nat) : Bool := ssF c i 0 30 30 == 1
def ssType (c : Tab Word) (i : Nat) : Nat := ssF c i 0 29 28
def ssAmend (c : Tab Word) (i : Nat) : Nat := ssF c i 0 23 22
def ssPolar (c : Tab Word) (i : Nat) : Bool := ssF c i 0 21 21 == 1
def ssCmdEn (c : Tab Word) (i : Nat) : Bool := ssF c i 0 20 20 == 1
def ssV6 (c : Tab Word) (i : Nat) : Bool := ssF c i 0 19 19 == 1
def ssIdcode (c : Tab Word) (i : Nat) : Nat := ssF c i 0 15 0
def ssPorts (c : Tab Word) (i : Nat) : Nat := ssF c i 1 31 28
def ssKeyed (c : Tab Word) (i : Nat) : Bool := ssF c i 1 27 27 == 1
def ssEncrypt (c : Tab Word) (i : Nat) : Bool := ssF c i 1 26 26 == 1
def ssWait (c : Tab Word) (i : Nat) : Nat := ssF c i 1 21 0
/-- The rate of a session, frames/s. -/
def ssRate (c : Tab Word) (i : Nat) : Nat := rateOf (ssF c i 0 27 24)
/-- The destination address, IPv4 in the low word alone. -/
def ssDst (c : Tab Word) (i : Nat) : Nat :=
  if ssV6 c i then ((List.range 4).foldl (fun a j => a * 2 ^ 32 + getC c Win.OUT_SESS i (3 + j)) 0) else getC c Win.OUT_SESS i 3
/-- The key slot. -/
def ssSlot (c : Tab Word) (i : Nat) : Nat := bits (getC c Win.OUT_SX i 1) 8 0
/-- The block entries of a session. -/
def ssBlocks (c : Tab Word) (i : Nat) : List Nat := (List.range (ssF c i 2 17 6)).map (fun j => ssF c i 2 31 18 + j)

/-- Enabled sessions, ascending. -/
def sessions (c : Tab Word) : List Nat := (listed c Win.OUT_SESS).filter (fun i => decide (1 ≤ i) && ssEn c i)

/-- Does the session serve blank `k`? (10, Session kinds) -/
def serves (s : State) (c : Tab Word) (i k : Nat) : Bool :=
  blankRate s % ssRate c i == 0 && k % (blankRate s / ssRate c i) == 0

/-- Fields of a block entry. -/
def bkF (c : Tab Word) (e j hi lo : Nat) : Nat := bits (getC c Win.OUT_BLK e j) hi lo
def bkStream (c : Tab Word) (e : Nat) : Nat := bkF c e 0 31 19
def bkPh (c : Tab Word) (e : Nat) : List Nat :=
  (List.range (bkF c e 1 31 24)).map (fun j => phBase c (bkStream c e) + bkF c e 1 23 16 + j)
def bkAn (c : Tab Word) (e : Nat) : List Nat :=
  (List.range (bkF c e 1 15 10)).map (fun j => anBase c (bkStream c e) + bkF c e 1 9 4 + j)
def bkDg (c : Tab Word) (e : Nat) : List Nat :=
  (List.range (bkF c e 1 3 0)).map (fun j => dgBase c (bkStream c e) + bkF c e 2 31 28 + j)

/-- Names that a block entry reaches (R321). -/
def bkNames (c : Tab Word) (e : Nat) : List Nat :=
  (List.range (1 + bkF c e 1 31 24 + bkF c e 1 15 10 + 16 * bkF c e 1 3 0)).map (fun j => bkF c e 2 15 0 + j)

/-- Do two configuration copies agree on an entry of a window? -/
def sameEntry (a b : Tab Word) (w i n : Nat) : Bool := (List.range n).all (fun j => getC a w i j == getC b w i j)

/-- Does a commit change what CFGCNT counts: the session entry, its blocks or their names? (R321) -/
def cfgChanged (a b : Tab Word) (i : Nat) : Bool :=
  !(sameEntry a b Win.OUT_SESS i 8
    && (ssBlocks b i).all (fun e => sameEntry a b Win.OUT_BLK e 3 && (bkNames b e).all (fun n => sameEntry a b Win.OUT_NM n 4)))

/-- Does a session count as changed between two copies? (R333) -/
def sessChanged (a b : Tab Word) (i : Nat) : Bool :=
  !(sameEntry a b Win.OUT_SESS i 8 && sameEntry a b Win.OUT_SX i 8
    && (ssBlocks b i).all (fun e => sameEntry a b Win.OUT_BLK e 3 && (bkNames b e).all (fun n => sameEntry a b Win.OUT_NM n 4)
      && (ssType b i != 1 || sameEntry a b Win.OUT_SV e 8))
    && getC a Reg.OUT_TBASE 0 0 == getC b Reg.OUT_TBASE 0 0)

/-! Run-time state of sessions. -/

/-- A session that has never run. -/
def SessS.reset : SessS := ⟨0, 0, 0, 0, 0, false, none, false, 0, []⟩
def sessOf (s : State) (i : Nat) : SessS := Tab.get (fun _ => SessS.reset) s.out.sess i
def setSess (s : State) (i : Nat) (v : SessS) : State :=
  { s with out := { s.out with sess := Tab.set (fun _ => SessS.reset) s.out.sess i v } }

/-- Does a session's data state let it send? With CMD_EN = 0 it always sends (R322). -/
def sessDataOn (s : State) (c : Tab Word) (i : Nat) : Bool := !ssCmdEn c i || (sessOf s i).dataOn

/-- TWIN_ROLE: 0 none, 1 active, 2 standby, 3 dual-active. -/
def twinRole (s : State) : Nat := fld s Reg.SYS_STATUS 15 14

/-- May this unit send keyed sessions? (R328, 16 R453) -/
def keyedHere (s : State) : Bool :=
  let r := twinRole s
  r == 0 || r == 1 || (r == 3 && s.pins.twinPri)

/-- The epoch of a session's first use of the cell that a slot has had since its generation counter read `g`. -/
def firstUse (v : SessS) (slot g : Nat) : Option Nat := (v.cells.find? (fun u => u.1 == slot && u.2.1 == g)).map (fun u => u.2.2)

/-- Has a session come to the end of its use of a cell at epoch `k`? (R327) -/
def usedUp (v : SessS) (slot g k : Nat) : Bool :=
  match firstUse v slot g with
  | some first => decide (first + 2 ^ 27 ≤ k)
  | none => false

/-- The live cell of a session for blank `k` in its slot as given, none where its limit is reached (R325, R327). -/
def cellFor (s : State) (c : Tab Word) (i k : Nat) (x : KeySlot) : Option KeyCell :=
  if usedUp (sessOf s i) (ssSlot c i) x.gen k then none else x.liveIn Usage.rsvTx

/-- The cell with which a frame of blank `k` is sealed (17 R485). -/
def sessKey (s : State) (c : Tab Word) (i k : Nat) : Option KeyCell := cellFor s c i k (slotThen s (ssSlot c i))

/-- A session uses the live cell of its slot for blank `k`: its first use is noted. -/
def useCell (s : State) (c : Tab Word) (i k : Nat) : State :=
  let n := ssSlot c i
  let v := sessOf s i
  let g := (slotThen s n).gen
  if (firstUse v n g).isSome then s else setSess s i { v with cells := (n, g, k) :: v.cells }

/-! UTC (03 R90, R91). -/

/-- TAI − UTC in force at a TAI second: leaps applied after it are undone (04 R121). -/
def leapOfs (s : State) (sec : Nat) : Int :=
  s.time.leaps.foldl (fun o l => if sec < l.1 then (if l.2 then o - 1 else o + 1) else o) (sext 16 (fld s Reg.TIME_LEAP 15 0))

/-- The UTC second of a TAI second. -/
def utcOf (s : State) (sec : Nat) : Nat := ((sec : Int) - leapOfs s sec).toNat

/-- TimeQuality octet (09 R308). -/
def timeQuality (s : State) : Nat :=
  128 * b2n (bit s Reg.TIME_STATUS 3) + 32 * b2n (!bit s Reg.TIME_STATUS 3 || bit s Reg.TIME_STATUS 4) + 20

/-- The time quality byte of C37.118 frames (R317). -/
def msgQuality (s : State) (k : Nat) : Nat :=
  let pend := fld s Reg.TIME_LEAP 17 16
  let isPend := pend == 1 || pend == 2
  let at_ := rd s Reg.TIME_LEAP_AT_LO + rd s Reg.TIME_LEAP_AT_HI * 2 ^ 32
  let r := blankRate s
  let lastDel := match s.time.leaps.getLast? with | some l => !l.2 | none => false
  let dir := if isPend then pend == 2 else lastDel
  let occ := match s.time.leaps.getLast? with | some l => decide (l.1 ≤ nowSec s) && decide (nowSec s < l.1 + 86400) | none => false
  let near := decide (pend ≠ 0) && decide (k < at_ * r) && decide (at_ * r ≤ k + 60 * r)
  64 * b2n dir + 32 * b2n occ + 16 * b2n near + fld s Reg.TIME_CTRL 31 28

/-! Transmit queues (R314, R315). -/

/-- Offset of a register of port `p`. -/
def ethReg (p off : Nat) : Nat := Reg.ETH0_CFG + 0x4000 * p + off

/-- Does a port transmit? -/
def txEn (s : State) (p : Nat) : Bool := !gated s Reg.ETH0_CFG && bit s (ethReg p 0) 30

/-- ETH0 and ETH1 form a PRP pair. -/
def prpOn (s : State) : Bool := bit s Reg.ETH0_CFG 27

/-- MAXLEN of a port, 64 to 9,216. -/
def maxLen (s : State) (p : Nat) : Nat := max 64 (min 9216 (fld s (ethReg p 0) 13 0))

/-- Queue a frame on one port, or say that it does not fit or may not go. -/
def enqueue (s : State) (p : Nat) (f : TxFrame) : State × Bool :=
  let q := s.out.tx.getD p []
  if txEn s p && decide ((q.map (fun g => g.size)).sum + f.size ≤ 262144) then
    ({ s with out := { s.out with tx := s.out.tx.set p (q ++ [f]) } }, true)
  else (s, false)

/-- One copy of a frame on each port of a mask, with a redundancy control trailer on the PRP pair: how many were queued and how many dropped
(R329): on the PRP pair one copy goes out on each LAN. A frame of a session that is longer than a port's MAXLEN does not go out on that port and
counts as dropped there (R316, log 150). -/
def sendCopies (s : State) (ports seq : Nat) (f : TxFrame) : State × Nat × Nat :=
  ([0, 1, 2, 3].filter (fun p => bitOf ports p || (prpOn s && decide (p < 2) && decide (ports % 4 ≠ 0)))).foldl (fun (s, n, d) p =>
    let fits := decide (4 ≤ f.kind) || decide (f.size ≤ maxLen s p)
    let f := if p < 2 && prpOn s then { f with prp := some (p, seq), size := f.size + 6 } else f
    let (s, ok) := if fits then enqueue s p f else (s, false)
    if ok then (s, n + 1, d) else (s, n, d + 1)) (s, 0, 0)

/-- The uncertainty of a timestamp at a port (03 R93). -/
def stampTol (s : State) (p : Nat) : Nat := (if fld s (ethReg p 0) 29 28 = 2 then 4 else 2) * nsU

/-- A PTP frame that firmware sends, by its messageType and sequenceId: Pdelay_Req (2), Pdelay_Resp (3) and its follow-up (10) to the one address,
Sync (0), Follow_Up (8) and Announce (11) to the other (03 R95). The size of an Announce with its TLVs is free (log 58). -/
def ptpFrame (ty q : Nat) : TxFrame :=
  let peer := decide (ty = 2) || decide (ty = 3) || decide (ty = 10)
  let dst := if peer then 0x0180C200000E else 0x011B19000000
  let size := if peer then 72 else if ty = 11 then 82 + Config.encSize 3 [q] % 1437 else 64
  ⟨6, ty, q % 65536, 0, none, (dst, 0), size, [ty, q % 65536], { EthHead.bare with dst := some dst }⟩

/-- A PTP event frame begins on the wire: its transmit timestamp enters the port's FIFO, or is dropped with OVF (03 R92, R94). With that of a
Pdelay_Resp firmware makes its Pdelay_Resp_Follow_Up, with that of a Sync its Follow_Up: two-step (03 R95). -/
def txStamp (s : State) (p : Nat) (f : TxFrame) : State :=
  if f.kind ≠ 6 ∨ 8 ≤ f.src then s
  else
    let q := s.time.txts.getD p []
    if 16 ≤ q.length then setB s (Reg.TIME_TXTS_TAG p) 30 true
    else
      let (s, t) := around s (s.now + fld s (Reg.TIME_PLAT p) 31 16 * (nsU / 16)) (stampTol s p)
      let s := { s with time := { s.time with txts := s.time.txts.set p (q ++ [(f.src, f.epoch, t)]) } }
      if f.src = 3 then (enqueue s p (ptpFrame 10 f.epoch)).1 else if f.src = 0 then (enqueue s p (ptpFrame 8 f.epoch)).1 else s

/-- ETH_FRAME_TRANSMIT (R314): the frame at the front of a port's queue begins on the wire. -/
def execEthFrameTransmit (port : Fin 4) (s : State) : Out :=
  let p := port.val
  match s.out.tx.getD p [] with
  | [] => .next s
  | f :: q =>
    .next (txStamp { s with out := { s.out with
      tx := s.out.tx.set p q, last := s.out.last.set p (some f), begun := s.out.begun.set p (s.out.begun.getD p 0 + 1) } } p f)

/-! Content of a blank (R318, R153, R190). -/

/-- What a place of a blank gives an output: a value, and whether it stands for a prediction. -/
structure Got where
  v : Option (Nat × Nat)
  pred : Bool

/-- A phasor slot: measured, or in a provisional output a bounded prediction. -/
def gotPh (b : Blank) (prov : Bool) (i : Nat) : Got :=
  let p := b.phOf i
  if bitOf p.flags 0 then ⟨some (p.re, p.im), false⟩
  else if prov && bitOf p.flags 1 && !bitOf p.flags 2 then ⟨some (p.re, p.im), true⟩
  else ⟨none, false⟩

/-- A scalar entry, by gather index. -/
def gotSc (c : Tab Word) (b : Blank) (prov : Bool) (ch : Nat) : Got :=
  let p := Tab.get (fun _ => ⟨0, 0, 0, 0, 0, false⟩) b.preds ch
  if b.measured c ch then ⟨some (b.scalar ch, 0), false⟩
  else if prov && p.written && p.cls == 3 && b.envOf (envIdx ch) != 0x7C00 && !b.lost ch then ⟨some (b.scalar ch, 0), true⟩
  else ⟨none, false⟩

/-- The places of a block entry: phasors, frequency, ROCOF, analogs, digital words. -/
structure BlkGot where
  ph : List Got
  fr : Got
  ro : Got
  an : List Got
  dg : List (Option Nat)

def gotBlk (c : Tab Word) (b : Blank) (prov : Bool) (e : Nat) : BlkGot :=
  let st := bkStream c e
  let here := bitOf (b.hdrOf st).sflags 0
  ⟨(bkPh c e).map (gotPh b prov), gotSc c b prov (chFr + st), gotSc c b prov (chRo + st),
   (bkAn c e).map (fun a => gotSc c b prov (chAn + a)), (bkDg c e).map (fun d => if here then some (b.dgOf d) else none)⟩

/-- Values of a block that may be predictions. -/
def BlkGot.vals (g : BlkGot) : List Got := g.ph ++ [g.fr, g.ro] ++ g.an
/-- Has the block any value at all? -/
def BlkGot.any (g : BlkGot) : Bool := g.vals.any (fun x => x.v.isSome) || g.dg.any (fun x => x.isSome)
/-- Is the block substituted? (R190) -/
def BlkGot.subst (g : BlkGot) : Bool := g.vals.any (fun x => x.pred)

/-- STAT of an output block (R318, R319). -/
def outStat (b : Blank) (st : Nat) (g : BlkGot) (armed : Bool) : Nat :=
  if !g.any then 0x8000
  else
    let h := b.hdrOf st
    let w := if bitOf h.sflags 0 then h.stat % 65536 else 0
    let w := clrBitN w 12
    let w := if armed then setBitN w 10 else w
    if g.subst then setBitN w 9 else w

/-- The missing pattern of a float field. -/
abbrev missF : Nat := 0x7FC00000

/-- The octets of one block of a C37.118 data frame (R317). -/
def c37Block (c : Tab Word) (b : Blank) (prov polar armed : Bool) (e : Nat) : List Nat :=
  let g := gotBlk c b prov e
  let f1 (x : Got) : List Nat := beBytes 4 (match x.v with | some v => v.1 | none => missF)
  let f2 (x : Got) : List Nat :=
    match x.v with
    | some v => if polar then beBytes 4 (modF .near v.1 v.2) ++ beBytes 4 (argN v.1 v.2) else beBytes 4 v.1 ++ beBytes 4 v.2
    | none => beBytes 4 missF ++ beBytes 4 missF
  beBytes 2 (outStat b (bkStream c e) g armed) ++ (g.ph.map f2).flatten ++ f1 g.fr ++ f1 g.ro ++ (g.an.map f1).flatten
    ++ (g.dg.map (fun d => beBytes 2 (d.getD 0))).flatten

/-- CRC-CCITT of C37.118.2: initial value all ones, polynomial 0x1021. -/
def crcCcitt (bs : List Nat) : Nat :=
  bs.foldl (fun c b => iter (fun x => if x / 2 ^ 15 % 2 = 1 then ((x * 2) ^^^ 0x11021) % 65536 else x * 2 % 65536) 8 (c ^^^ (b % 256 * 256))) 0xFFFF

/-- SOC and FRACSEC of blank `k` (R317). -/
def c37Time (s : State) (c : Tab Word) (k : Nat) : List Nat :=
  let r := blankRate s
  let tb := getC c Reg.OUT_TBASE 0 0 % 2 ^ 24
  beBytes 4 (utcOf s (k / r)) ++ [msgQuality s k] ++ beBytes 3 ((2 * (k % r) * tb + r) / (2 * r))

/-- A C37.118 frame: SYNC, FRAMESIZE, IDCODE, time, body and CHK. -/
def c37Frame (kind idcode : Nat) (time body : List Nat) : List Nat :=
  let f := [0xAA, kind * 16 + 2] ++ beBytes 2 (16 + body.length) ++ beBytes 2 idcode ++ time ++ body
  f ++ beBytes 2 (crcCcitt f)

/-- Ethernet bytes around a UDP payload: headers and FCS, without a redundancy trailer. -/
def ethBytes (c : Tab Word) (i payload : Nat) : Nat :=
  14 + 4 * bits (getC c Win.OUT_SX i 3) 15 15 + (if ssV6 c i then 40 else 20) + 8 + payload + 4

/-- Is a transaction that changes the session ARMED? (R319) -/
def sessArmed (s : State) (i : Nat) : Bool := fld s Reg.TXN_STATUS 3 0 == 3 && sessChanged s.cfg s.cfgPend i

/-- Quality of an R-SV member: 0 good, 1 questionable, 2 invalid, 3 good with test; 4 more where substituted (R324). -/
def rsvQual (derr : Nat) (g : Got) : Nat :=
  match g.v with
  | none => 2
  | some _ => if g.pred then 5 else match derr with | 0 => 0 | 1 => 1 | 3 => 2 | _ => 3

/-- The svID of a block: the octets of its entry before the first zero, at most 32 (R323). -/
def svIdOf (c : Tab Word) (e : Nat) : List Nat := (((List.range 8).map (fun j => leBytes 4 (getC c Win.OUT_SV e j))).flatten).takeWhile (· != 0)

/-- The members of one ASDU (R323): the number of svID octets and the octets, then each value and its quality. -/
def rsvAsdu (c : Tab Word) (b : Blank) (prov : Bool) (e : Nat) : List Nat :=
  let g := gotBlk c b prov e
  let derr := bits (b.hdrOf (bkStream c e)).stat 15 14
  let deg (x : Nat) : Nat := fxPack f32 .near ((dyOf f32 x).fx * 180 * fxOne / fxPi)
  let f2 (x : Got) (i : Nat) : List Nat :=
    match x.v with
    | some v => [modF .near v.1 v.2, ulp1 24 [v.1, v.2] (deg (argF v.1 v.2)), rsvQual (bits (b.phOf i).qual 1 0) x]
    | none => [missF, missF, 2]
  let f1 (x : Got) : List Nat := [match x.v with | some v => v.1 | none => missF, rsvQual derr x]
  (svIdOf c e).length :: svIdOf c e
    ++ ((g.ph.zip (bkPh c e)).map (fun (x, i) => f2 x i)).flatten ++ f1 g.fr ++ f1 g.ro ++ (g.an.map f1).flatten

/-- The SPDU number (R323). -/
def spduNo (k sub : Nat) : Nat := (k * 16 + sub) % 2 ^ 32

/-- The content of an R-SV frame (R323): session identifier, simulation bit 0, SPDU number, smpCnt, confRev, time, TimeQuality, smpSynch, the ASDUs. -/
def rsvBody (s : State) (c : Tab Word) (b : Blank) (i : Nat) (prov : Bool) (sub : Nat) : List Nat :=
  let r := blankRate s
  let k := b.epoch
  let frac := k % r * 2 ^ 24 / r
  let synch := if bit s Reg.TIME_STATUS 3 && !bit s Reg.TIME_STATUS 4 then 2 else 0
  [0xA1, 0, spduNo k sub, k % r * ssRate c i / r, (sessOf s i).cfgcnt, utcOf s (k / r), (frac + Config.ulp 23 [k, r] % 2) % 2 ^ 24, timeQuality s, synch]
    ++ ((ssBlocks c i).map (rsvAsdu c b prov)).flatten

/-- Authenticate and encrypt an R-SV frame under a key (R325): content or cipher text, key identifier, tag. -/
def rsvSeal (c : Tab Word) (i sub k : Nat) (cell : KeyCell) (body : List Nat) : List Nat :=
  let iv := Config.rsvIv (spduNo k sub)
  let short (t : Nat) : Nat := if ssF c i 1 25 25 = 1 then t / 2 ^ 64 else t
  if ssEncrypt c i then
    let hid := Config.rsvOctets 2 body
    gcmText cell.key iv hid ++ [cell.keyId, short (gcmTag cell.key iv (Config.rsvOctets 1 body) hid)]
  else body ++ [cell.keyId, short (gcmTag cell.key iv (Config.rsvOctets 0 body) [])]

/-! Session records for the host rings (R346, R347). -/

/-- The slot that a record carries. -/
def recSlot (prov : Bool) (p : PhSlot) : PhSlot :=
  if bitOf p.flags 0 then p
  else if prov && bitOf p.flags 1 && !bitOf p.flags 2 then p
  else { PhSlot.missing with flags := p.flags &&& (if prov then 0x204 else 0x200) }

/-- A section for one block. -/
def recSection (c : Tab Word) (b : Blank) (prov : Bool) (e : Nat) : List Nat :=
  let g := gotBlk c b prov e
  let st := bkStream c e
  let h := b.hdrOf st
  let sfl := if prov then h.sflags else clrBitN h.sflags 1
  let slot (p : PhSlot) : List Nat := leBytes 4 p.re ++ leBytes 4 p.im ++ leBytes 3 p.ofs ++ [p.qual] ++ leBytes 2 p.env ++ leBytes 2 p.flags
  let val (x : Got) : List Nat := leBytes 4 (match x.v with | some v => v.1 | none => missF)
  let env (x : Got) (ch : Nat) : List Nat := leBytes 2 (if x.v.isNone then 0x7C00 else if x.pred then b.envOf (envIdx ch) else 0)
  pad8 (leBytes 2 h.stat ++ leBytes 3 h.ofs ++ [sfl, h.seq, 0]
    ++ ((bkPh c e).map (fun i => slot (recSlot prov (b.phOf i)))).flatten
    ++ val g.fr ++ val g.ro ++ (g.an.map val).flatten
    ++ env g.fr (chFr + st) ++ env g.ro (chRo + st) ++ ((g.an.zip (bkAn c e)).map (fun (x, a) => env x (chAn + a))).flatten
    ++ (g.dg.map (fun d => leBytes 2 (d.getD 0))).flatten)

/-- Build a session record and hand it to its ring. -/
def sendRecord (s : State) (c : Tab Word) (b : Blank) (i kind amend ring : Nat) : State :=
  let (s, q) := nextRseq s
  let secs := ((ssBlocks c i).map (recSection c b (kind == 1))).flatten
  let h := leBytes 8 q ++ leBytes 8 b.epoch ++ leBytes 2 b.timeGen ++ [i, kind, amend % 256, b.cause] ++ leBytes 2 (ssF c i 2 17 6)
    ++ leBytes 4 (64 + secs.length) ++ leBytes 4 (ofsAfter s s.now b.epoch 0xFFFFFFFF) ++ leBytes 2 (sessOf s i).cfgcnt ++ List.replicate 26 0
  ringReady s ring ⟨q, h ++ leBytes 4 (crc32c (h ++ secs)) ++ secs⟩

/-! What a session sends. -/

/-- The PRP sequence number (R330). -/
def prpSeq (k sub : Nat) : Nat := (k % 4096 * 16 + sub) % 65536

/-- The headers of a session's frames, from its transport entry (R329). -/
def sessHead (c : Tab Word) (i : Nat) : EthHead :=
  let x (j : Nat) : Nat := getC c Win.OUT_SX i j
  { src := some (x 0 * 65536 + bits (x 1) 31 16), dst := some (x 2 * 65536 + bits (x 3) 31 16)
    tag := if bits (x 3) 15 15 = 1 then some (bits (x 3) 14 12, bits (x 3) 11 0) else none
    ip := some (if ssV6 c i then (List.range 4).foldl (fun a j => a * 2 ^ 32 + x (4 + j)) 0 else x 4)
    port := some (ssF c i 7 31 16) }

/-- Put a frame of a session on its ports, with the counts of drops. Answers whether some copy was queued. -/
def sendWire (s : State) (c : Tab Word) (i kind k amend sub udp payload : Nat) (body : List Nat) : State × Bool :=
  let f : TxFrame := ⟨kind, i, k, amend, none, (ssDst c i, udp), ethBytes c i payload, body, sessHead c i⟩
  let (s, n, d) := sendCopies s (ssPorts c i) (prpSeq k sub) f
  let s := addC s Reg.OUT_TX_DROP d
  (setSess s i { sessOf s i with txDrop := satAdd 16 (sessOf s i).txDrop d }, decide (0 < n))

/-- A blank not sent for want of a key (R326). -/
def keyDrop (s : State) (i : Nat) : State :=
  inc (setSess s i { sessOf s i with keyDrop := satAdd 16 (sessOf s i).keyDrop 1 }) Reg.OUT_KEY_DROP

/-- A session finds no live key for a blank (R326): the blank is counted, and the first of a run is told. -/
def noKey (s : State) (i : Nat) : State :=
  let s := keyDrop s i
  if (sessOf s i).keyWait then s else pushDev (setSess s i { sessOf s i with keyWait := true }) 0x0070 [i]

/-- The frame of a TYPE 0 or 1 session for a blank, if it goes: kind 0 final, 1 provisional, 2 amended (R310 to R316, R323 to R328). A keyed
session whose key has gone since the blank opened sends nothing for the blank (R326). -/
def sendFrame (s : State) (c : Tab Word) (b : Blank) (i kind amend : Nat) : State × Bool :=
  let k := b.epoch
  let prov := kind == 1
  let udp := if kind = 2 then ssF c i 7 15 0 else ssF c i 7 31 16
  let wire := if kind = 2 then 1 else 0
  if ssType c i = 0 then
    let body := c37Frame 0 (ssIdcode c i) (c37Time s c k) (((ssBlocks c i).map (c37Block c b prov (ssPolar c i) (sessArmed s i))).flatten)
    sendWire s c i wire k amend amend udp body.length body
  else
    let body := rsvBody s c b i prov amend
    if !ssKeyed c i then sendWire s c i wire k amend amend udp (Config.encSize 0 body) body
    else if !keyedHere s then (s, false)
    else
      match sessKey s c i k with
      | none => (noKey (onBlank s k (fun b => { b with mute := b.mute ++ [i] })) i, false)
      | some cell =>
        let s := useCell s c i k
        let body := rsvSeal c i amend k cell body
        sendWire s c i wire k amend amend udp (Config.encSize 0 body) body

/-- Count a data frame (OUT counters, session statistics). -/
def countSent (s : State) (i kind : Nat) : State :=
  let v := sessOf s i
  if kind = 2 then inc (setSess s i { v with amended := satAdd 16 v.amended 1 }) Reg.OUT_AMEND_FRAMES
  else
    let s := inc (setSess s i { v with frames := (v.frames + 1) % 2 ^ 32, prov := if kind = 1 then satAdd 16 v.prov 1 else v.prov }) Reg.OUT_FRAMES
    if kind = 1 then inc s Reg.OUT_PROV_FRAMES else s

/-- A frame that a legacy standby does not send, with the instant at which it would have sent (16 R472). -/
def skipSend (s : State) (k i kind amend : Nat) : State :=
  if mode s ≠ Mode.legacyStandby then s
  else { s with twn := { s.twn with skipped := s.twn.skipped.filter (fun e => decide (k < e.2.1 + 64)) ++ [(s.now, k, i, kind, amend)] } }

/-- A session sends for a blank: kind 0 final, 1 provisional. It sends once for each blank, in the modes that permit it (R310, R311, R315). -/
def sendSess (s : State) (k i kind : Nat) : State :=
  match blankOf s k with
  | none => s
  | some b =>
    let c := confOf s k
    if b.sent.contains i || !ssEn c i || !serves s c i k then s
    else
      let s := setBlank s { b with sent := b.sent ++ [i] }
      if b.mute.contains i || !sessDataOn s c i then s
      else if !runsOutput (mode s) then skipSend s k i kind 0
      else if ssType c i = 2 then countSent (sendRecord s c b i kind 0 (b2n (ssEarly c i))) i kind
      else
        let (s, ok) := sendFrame s c b i kind 0
        if ok then countSent s i kind else s

/-- A frame skipped as legacy standby is sent after all, from the blank as it stands, where the ring still holds it (16 R472). -/
def sendSkipped (s : State) (k i kind amend : Nat) : State :=
  match blankOf s k with
  | none => s
  | some b =>
    let c := confOf s k
    if ssType c i = 2 || (kind == 2 && ssAmend c i == 2) then
      countSent (sendRecord s c b i kind amend (if kind = 2 then 0 else b2n (ssEarly c i))) i kind
    else if ssKeyed c i then s
    else
      let (s, ok) := sendFrame s c b i kind amend
      if ok then countSent s i kind else s

/-- Every EARLY session sends at a provisional point, in ascending id (R311, R314). -/
def sendProv (s : State) (k : Nat) : State :=
  let c := confOf s k
  (sessions c).foldl (fun s i => if ssEarly c i then sendSess s k i 1 else s) s

/-- Every session that has not sent sends at the seal (R153, R311). -/
def sendSeal (s : State) (k : Nat) : State := (sessions (confOf s k)).foldl (fun s i => sendSess s k i 0) s

/-- Amended output at the evaluation point of amendment `n` (R313). -/
def sendAmended (s : State) (k n : Nat) : State :=
  match blankOf s k with
  | none => s
  | some b =>
    let c := confOf s k
    (sessions c).foldl (fun s i =>
      if ssAmend c i = 0 ∨ ssAmend c i = 3 ∨ !serves s c i k ∨ b.mute.contains i ∨ !sessDataOn s c i then s
      else if !runsOutput (mode s) then (if n ≤ 13 then skipSend s k i 2 n else s)
      else if 13 < n then inc s Reg.OUT_AMEND_UNSENT
      else if ssType c i = 2 ∨ ssAmend c i = 2 then countSent (sendRecord s c b i 2 n 0) i 2
      else
        let (s, ok) := sendFrame s c b i 2 n
        if ok then countSent s i 2 else s) s

/-- SESSION_FINAL_SEND (R153, R311): at the epoch instant plus the session's wait and the 5 µs drain time, a session that has not sent for
the blank sends it from measured values; one whose wait equals ALN_WAIT sends at the seal (R154). An EARLY session whose blank may still become PROVISIONAL waits for that. -/
def execSessionFinalSend (session epoch : Nat) (s : State) : Out :=
  match blankOf s epoch with
  | none => .next s
  | some b =>
    let c := confOf s epoch
    let mayProv := ssEarly c session && b.state == 1 && b.specEn && decide (getC c Reg.SPC_DEADLINE 0 0 % 2 ^ 22 < getC c Reg.ALN_WAIT 0 0 % 2 ^ 22)
    let atSeal := decide (getC c Reg.ALN_WAIT 0 0 % 2 ^ 22 ≤ ssWait c session)
    if 2 < b.state ∨ b.sent.contains session ∨ !ssEn c session ∨ mayProv ∨ atSeal then .next s
    else .next (sendSess (deadlineTo s epoch (ssWait c session)) epoch session 0)

/-- The newest open blank, or the epoch index of device time where none is open. -/
def newestOr (s : State) : Nat := s.aln.newest.getD (epochNow s)

/-- KEY_CELL_EPOCH_LIMIT (R327): a session that has used the cell of its slot for 2^27 epochs is suspended. -/
def execKeyCellEpochLimit (session : Nat) (s : State) : Out :=
  let n := ssSlot s.cfg session
  if usedUp (sessOf s session) n (slotOf s n).gen (newestOr s) ∧ !(sessOf s session).keyWait then
    .next (pushDev (setSess s session { sessOf s session with keyWait := true }) 0x0070 [session])
  else .next s

/-- What the opening of session blank `k` settles for a session: a data command takes effect, and a keyed session without a key sends
nothing for this blank (R320, R326, R327). Answers whether it is mute. -/
def sessAtOpen (s : State) (c : Tab Word) (k i : Nat) : State × Bool :=
  if !serves s c i k then (s, false)
  else
    let v := sessOf s i
    let s := match v.want with
      | some w => setSess s i { v with dataOn := w, want := none }
      | none => s
    if ssType c i ≠ 1 ∨ !ssKeyed c i ∨ !keyedHere s ∨ !runsOutput (mode s) then (s, false)
    else
      let v := sessOf s i
      match cellFor s c i k (slotOf s (ssSlot c i)) with
      | some _ => (setSess s i { v with keyWait := false }, false)
      | none => (noKey s i, true)

/-! Commands of receivers (R320, R321). -/

/-- A name entry as 16 octets. -/
def nameOf (c : Tab Word) (n : Nat) : List Nat := ((List.range 4).map (fun j => leBytes 4 (getC c Win.OUT_NM n j))).flatten

/-- Nominal frequency code of a stream: stream 0 follows AFE_TRK.FNOM (04 R116). -/
def fnomOf (s : State) (c : Tab Word) (st : Nat) : Nat := if st = 0 then fld s Reg.AFE_TRK 8 8 else stF c st 6 25 25

/-- The part of a configuration frame for one block (R321). -/
def cfgBlock (s : State) (c : Tab Word) (i e : Nat) : List Nat :=
  let st := bkStream c e
  let nPh := bkF c e 1 31 24
  let nAn := bkF c e 1 15 10
  let nDg := bkF c e 1 3 0
  nameOf c (bkF c e 2 15 0) ++ beBytes 2 (bkF c e 0 15 0) ++ [0, 0x0E + b2n (ssPolar c i)] ++ beBytes 2 nPh ++ beBytes 2 nAn ++ beBytes 2 nDg
    ++ (((bkNames c e).drop 1).map (nameOf c)).flatten
    ++ ((bkPh c e).map (fun p => [bits (getC c Win.ING_DIR p 1) 30 30, 0, 0, 0])).flatten
    ++ ((bkAn c e).map (fun a => [bits (getC c Win.ING_DIR (chAn + a) 1) 30 29, 0, 0, 0])).flatten
    ++ ((bkDg c e).map (fun d => [0, 0] ++ beBytes 2 (bits (getC c Win.ING_DIR (chFr + d) 0) 15 0))).flatten
    ++ beBytes 2 (1 - fnomOf s c st) ++ beBytes 2 (sessOf s i).cfgcnt

/-- The content of CFG-1, CFG-2 and CFG-3, which is the same (R321). -/
def cfgBody (s : State) (c : Tab Word) (i : Nat) : List Nat :=
  beBytes 4 (getC c Reg.OUT_TBASE 0 0) ++ beBytes 2 (ssF c i 2 17 6) ++ ((ssBlocks c i).map (cfgBlock s c i)).flatten ++ beBytes 2 (ssRate c i)

/-- Send a configuration or header frame to the source of a command (R320, R330). -/
def sendReply (s : State) (c : Tab Word) (i kind sync sub srcIp udp : Nat) (body : List Nat) : State :=
  let k := newestOr s
  let f := c37Frame sync (ssIdcode c i) (c37Time s c k) body
  let fr : TxFrame := ⟨kind, i, k, 0, none, (srcIp, udp), ethBytes c i f.length, f, sessHead c i⟩
  let (s, _, d) := sendCopies s (ssPorts c i) (prpSeq k sub) fr
  setSess (addC s Reg.OUT_TX_DROP d) i { sessOf s i with txDrop := satAdd 16 (sessOf s i).txDrop d }

/-- A command frame for a session from its DST address (R320): firmware acts where CMD_EN is 1, and ignores any other command. -/
def c37Command (s : State) (i srcIp : Nat) (v6 : Bool) (udp cmd : Nat) : State :=
  let c := s.cfg
  if !ssEn c i ∨ ssType c i ≠ 0 ∨ ssDst c i ≠ srcIp ∨ ssF c i 0 19 19 ≠ b2n v6 then s
  else
    let s := inc s Reg.OUT_CMD_RX
    if !ssCmdEn c i then inc s Reg.OUT_CMD_IGNORED
    else
      match cmd with
      | 1 => setSess s i { sessOf s i with want := some false }
      | 2 => setSess s i { sessOf s i with want := some true }
      | 3 => if runsOutput (mode s) then sendReply s c i 3 1 15 srcIp udp (nameOf c (bkF c (ssF c i 2 31 18) 2 15 0)) else s
      | 4 => if runsOutput (mode s) then sendReply s c i 2 2 14 srcIp udp (cfgBody s c i) else s
      | 5 => if runsOutput (mode s) then sendReply s c i 2 3 14 srcIp udp (cfgBody s c i) else s
      | 6 => if runsOutput (mode s) then sendReply s c i 2 5 14 srcIp udp (cfgBody s c i) else s
      | _ => inc s Reg.OUT_CMD_IGNORED

/-- C37_DATA_OFF (R320). -/
def execC37DataOff (session : Nat) (src : IpAddr) (udp : Nat) (s : State) : Out := .next (c37Command s session src.addr src.v6 udp 1)
/-- C37_DATA_ON (R320). -/
def execC37DataOn (session : Nat) (src : IpAddr) (udp : Nat) (s : State) : Out := .next (c37Command s session src.addr src.v6 udp 2)
/-- C37_SEND_HEADER (R320). -/
def execC37SendHeader (session : Nat) (src : IpAddr) (udp : Nat) (s : State) : Out := .next (c37Command s session src.addr src.v6 udp 3)
/-- C37_SEND_CFG1 (R321). -/
def execC37SendCfg1 (session : Nat) (src : IpAddr) (udp : Nat) (s : State) : Out := .next (c37Command s session src.addr src.v6 udp 4)
/-- C37_SEND_CFG2 (R321). -/
def execC37SendCfg2 (session : Nat) (src : IpAddr) (udp : Nat) (s : State) : Out := .next (c37Command s session src.addr src.v6 udp 5)
/-- C37_SEND_CFG3 (R321). -/
def execC37SendCfg3 (session : Nat) (src : IpAddr) (udp : Nat) (s : State) : Out := .next (c37Command s session src.addr src.v6 udp 6)

/-- The data state follows START_ON where a commit enables the session or changes its IDCODE (R322). `a` is the former copy, `b` the new one. -/
def sessData (s : State) (a b : Tab Word) : State :=
  (sessions b).foldl (fun s i =>
    if !ssEn a i || ssIdcode a i != ssIdcode b i then setSess s i { sessOf s i with dataOn := ssF b i 0 18 18 == 1, want := none } else s) s

/-- What a commit does to sessions: CFGCNT counts a change of the entry, its blocks or their names, and a change of OUT_TBASE for every session
(R321, R13); the data state follows (R322). -/
def sessCommit (s : State) (a b : Tab Word) : State :=
  let base := getC a Reg.OUT_TBASE 0 0 != getC b Reg.OUT_TBASE 0 0
  sessData ((List.range 256).foldl (fun s i =>
    if decide (1 ≤ i) && (base || cfgChanged a b i) then setSess s i { sessOf s i with cfgcnt := satAdd 16 (sessOf s i).cfgcnt 1 } else s) s) a b

end Sys2Proof.Machine
end

