-- ==== Sys2Proof/Machine/Ingest.lean ====
section
/-! DEFINITION. Stream ingest (04_ingest_streams.md): ports, parsers, the stream table's lookup, conversions, acceptance, the resampler bank,
stream health; and what an arrival does to its blank (05_lathe_alignment.md R143 to R150). -/

namespace Sys2Proof.Machine

/-! Stream health (R132, R133, R541). -/

/-- The health entry of a stream that nothing has reached. -/
def Health.zero : Health := ⟨0, 0, 0, 0, 0, 0, 0, 0, 0, 0, 0, false, false, false, false, 0⟩

def healthOf (s : State) (i : Nat) : Health := Tab.get (fun _ => Health.zero) s.ing.health i
def setHealthOf (s : State) (i : Nat) (h : Health) : State :=
  { s with ing := { s.ing with health := Tab.set (fun _ => Health.zero) s.ing.health i h } }
/-- What this cycle's events have made of an entry that held nothing (R133). -/
def healthNow (s : State) (i : Nat) : Health := Tab.get (fun _ => Health.zero) s.cyc.health i
/-- An event changes a health entry; the cycle's record holds the same change of an empty entry. -/
def onHealth (s : State) (i : Nat) (f : Health → Health) : State :=
  let s := { s with cyc := { s.cyc with health := Tab.put s.cyc.health i (f (healthNow s i)) } }
  setHealthOf s i (f (healthOf s i))

/-- The item of a change of SILENT or CFGCHG (R132). -/
def healthItem (s : State) (i : Nat) : State :=
  pushDev s 0x0010 [i + 2 ^ 16 * b2n (healthOf s i).silent + 2 ^ 17 * b2n (healthOf s i).cfgchg]

/-- SILENT takes a value (R541, R132). -/
def setSilent (s : State) (i : Nat) (v : Bool) : State :=
  if (healthOf s i).silent = v then s else healthItem (onHealth s i (fun h => { h with silent := v })) i

/-- The 9 newest sealed blanks of a stream, newest first, with their arrival marks. -/
def silWin (s : State) (i : Nat) : List (Nat × Bool) := Tab.get (fun _ => []) s.ing.silWin i

/-- Put the window back and judge SILENT by it (R541). -/
def setSilWin (s : State) (i : Nat) (w : List (Nat × Bool)) : State :=
  let s := { s with ing := { s.ing with silWin := Tab.set (fun _ => []) s.ing.silWin i w } }
  setSilent s i (decide (9 ≤ w.length) && w.all (fun p => !p.2))

/-- A stream arrives in blank `k`: its mark in the window. -/
def silArrive (s : State) (i k : Nat) : State := setSilWin s i ((silWin s i).map (fun p => if p.1 = k then (k, true) else p))

/-- A blank seals: it joins the window of every stream that its configuration enables, with the mark of one that came too late for it too. -/
def silSeal (s : State) (b : Blank) : State :=
  (enabledStreams (confOf s b.epoch)).foldl (fun s i =>
    setSilWin s i (((b.epoch, bitOf b.arrivedMap i || bitOf b.lateMap i) :: silWin s i).take 9)) s

/-- A stream's counters and CFGCHG are cleared, but for what this cycle's events have counted and set (R133). -/
def clearHealth (s : State) (i : Nat) : State :=
  let h := healthOf s i
  setHealthOf s i { healthNow s i with lastEpoch := h.lastEpoch, silent := h.silent, dataErr := h.dataErr, syncErr := h.syncErr, lastOfs := h.lastOfs }

/-- A write of ING_SHCLR (R133): one stream's counters and CFGCHG, or every stream's. -/
def shClrWrite (s : State) (v : Nat) : State :=
  if bitOf v 31 then s.ing.health.foldl (fun s p => clearHealth s p.1) s else clearHealth s (bits v 12 0)

/-- STREAM_HEALTH_CLEAR (R133). -/
def execStreamHealthClear (v : Word) (s : State) : Out := .next (ungated s Reg.ING_SHCLR fun s => shClrWrite s v.toNat)

/-! Arrivals (05 R143 to R150). -/

/-- The fields of the last accepted block (R132). -/
def lastHealth (s : State) (blk : Block) : State :=
  onHealth s blk.stream (fun h => { h with
    lastEpoch := blk.epoch % 2 ^ 32
    dataErr := decide (bits blk.stat 15 14 ≠ 0)
    syncErr := bitOf blk.stat 13
    lastOfs := ofsAfter s blk.arrAt blk.epoch 0xFFFFFF })

/-- A block is accepted: FRAMES, CFGCHG and the fields of the last accepted block (R132). -/
def acceptHealth (s : State) (blk : Block) : State :=
  let chg := bitOf blk.stat 10 && !(healthOf s blk.stream).cfgchg
  let s := onHealth (lastHealth s blk) blk.stream (fun h => { h with
    frames := (h.frames + 1) % 2 ^ 32
    cfgchg := h.cfgchg || bitOf blk.stat 10 })
  if chg then healthItem s blk.stream else s

/-- A dropped arrival that came too late (R143, R122). -/
def tooLate (s : State) (blk : Block) : State :=
  inc (onHealth s blk.stream (fun h => { h with late := satAdd 16 h.late 1 })) Reg.ALN_TOO_LATE

/-- The data-error bits of a block. -/
def Block.derr (b : Block) : Nat := bits b.stat 15 14

/-- What R123 makes of a block after the first of its pair, given the first's data-error bits and LAN: none where it replaces it, else
whether it is a PRP duplicate. -/
def dupOf (first : Nat × Nat × Bool) (blk : Block) : Option Bool :=
  if first.1 ≠ 0 ∧ blk.derr = 0 then none
  else
    match blk.lan with
    | some l => some (decide (first.2.1 < 2) && decide (l ≠ first.2.1))
    | none => some false

/-- A duplicate is counted (R123). -/
def countDup (s : State) (i : Nat) (prp : Bool) : State :=
  onHealth s i (fun h => if prp then { h with prpDup := satAdd 16 h.prpDup 1 } else { h with dup := satAdd 16 h.dup 1 })

/-- A replacement is counted (R123). -/
def countRepaired (s : State) (i : Nat) : State := onHealth s i (fun h => { h with repaired := satAdd 16 h.repaired 1 })

/-- Write an arrival into an open blank (R143, R149). -/
def writeArrival (s : State) (blk : Block) : State :=
  let s := syncFill s blk.epoch s.cycle
  match blankOf s blk.epoch with
  | none => s
  | some b =>
    let st := blk.stream
    let first := !bitOf b.arrivedMap st
    let (s, b) := writeBlockIn s b blk 0
    let exp := first && bitOf b.expectMap st
    let b := { b with
      arrivedMap := setBitN b.arrivedMap st
      arrAll := b.arrAll + b2n first
      arrExp := b.arrExp + b2n exp
      fullAt := if exp && b.arrExp + 1 == b.expected then some s.cycle else b.fullAt }
    silArrive (setBlank s b) st blk.epoch

/-- A late arrival waits for an amendment, or is dropped (R146, R157); the stream has arrived in its blank all the same (R541). -/
def queueLate (s : State) (b : Blank) (blk : Block) : State :=
  let s := silArrive (setBlank s { b with lateArr := satAdd 16 b.lateArr 1, lateMap := setBitN b.lateMap blk.stream }) blk.stream b.epoch
  if b.amendMax ≤ b.amendCount then inc s Reg.ALN_AMEND_LIMIT
  else if s.aln.amendQ.length ≥ 4096 then inc s Reg.ALN_AMEND_OVF
  else { s with aln := { s.aln with amendQ := s.aln.amendQ ++ [blk] } }

/-- Is a block in time for its blank: judged before the seal, and not after the system wait (R143; 01 R25)? -/
def inTime (s : State) (b : Blank) (blk : Block) : Bool :=
  let w := getC (confOf s b.epoch) Reg.ALN_WAIT 0 0 % 2 ^ 22
  decide (b.state < 3) && decide (blk.judge * blankRate s ≤ (b.epoch * 1000000 + w * blankRate s) * 1000 * nsU)

/-- A block is written into its blank, or waits for an amendment of it (R143). -/
def placeBlock (s : State) (blk : Block) : State :=
  match blankOf s blk.epoch with
  | some b => if inTime s b blk then writeArrival s blk else queueLate s b blk
  | none => s

/-- The block that counts for a stream in a blank is this one from now on (R123). -/
def dupMark (s : State) (blk : Block) : State :=
  onBlank s blk.epoch (fun b => { b with dup := Tab.put b.dup blk.stream (blk.derr, blk.lan.getD 2, blk.repaired) })

/-- A block of this cycle is noted as accepted for a blank or a sample number, after the pair's first block if there was one (R124). -/
def tookNote (s : State) (n : Nat) (blk : Block) (was : Option (Nat × Nat × Bool)) : State :=
  if blk.early then s else { s with cyc := { s.cyc with took := (n, blk, was) :: s.cyc.took } }

/-- The block of a higher-numbered parser that this cycle has already accepted for the same pair, with the pair's first block before it. -/
def tookOver (s : State) (n : Nat) (blk : Block) : Option (Block × Option (Nat × Nat × Bool)) :=
  if blk.early then none
  else (s.cyc.took.find? (fun x => x.1 == n && x.2.1.stream == blk.stream && decide (blk.port < x.2.1.port))).map (fun x => x.2)

/-- What becomes of a pair for which a higher-numbered parser's block `h` has been accepted in this cycle, and which this block comes before (R124): the
counts of R123 with this block first, and the block whose content stands, where that is not `h` as it was written. `was` is the pair's first
block before the cycle. -/
def takeFirst (s : State) (blk h : Block) (was : Option (Nat × Nat × Bool)) : State × Option Block :=
  match was with
  | none =>
    match dupOf (blk.derr, blk.lan.getD 2, false) h with
    | some prp => (countDup (lastHealth s blk) blk.stream prp, some blk)
    | none => (countRepaired (lastHealth (acceptHealth s blk) h) blk.stream, some { h with repaired := true })
  | some f =>
    match dupOf f blk with
    | some prp => (countDup s blk.stream prp, none)
    | none => (countDup (lastHealth s blk) blk.stream ((dupOf (blk.derr, blk.lan.getD 2, false) h).getD false), some { blk with repaired := true })

/-- A block meets its blank in the ring: the duplicate check, then the state decides (R123, R124, R143). -/
def meetBlank (s : State) (b : Blank) (blk : Block) : State :=
  let st := blk.stream
  match tookOver s blk.epoch blk with
  | some (h, was) =>
    match takeFirst s blk h was with
    | (s, none) => s
    | (s, some x) =>
      let s := if s.aln.amendQ.contains h then onBlank s b.epoch (fun b => { b with lateArr := b.lateArr - 1 }) else s
      let s := { s with aln := { s.aln with amendQ := s.aln.amendQ.filter (fun y => y != h) } }
      placeBlock (tookNote (dupMark s x) blk.epoch x was) x
  | none =>
    let was := if Tab.has b.dup st then some (Tab.get (fun _ => (0, 2, false)) b.dup st) else none
    let go (s : State) (blk : Block) : State := placeBlock (tookNote (dupMark (acceptHealth s blk) blk) blk.epoch blk was) blk
    match was with
    | none => go s blk
    | some f =>
      match dupOf f blk with
      | some prp => countDup s st prp
      | none => go (countRepaired s st) { blk with repaired := true }

/-- Has index `k` still to be opened? -/
def notOpened (s : State) (k : Nat) : Bool :=
  match s.aln.newest with
  | some n => decide (n < k)
  | none => decide (epochNow s ≤ k)

/-- An arrival reaches the Lathe (R143, R144). -/
def latheArrive (s : State) (blk : Block) : State :=
  match blankOf s blk.epoch with
  | some b => meetBlank s b blk
  | none =>
    if notOpened s blk.epoch then
      if s.aln.earlyQ.length ≥ 16384 then inc s Reg.ALN_EARLY_OVF
      else
        let q := match tookOver s blk.epoch blk with
          | some (h, _) => s.aln.earlyQ.takeWhile (fun x => x != h) ++ blk :: s.aln.earlyQ.dropWhile (fun x => x != h)
          | none => s.aln.earlyQ ++ [blk]
        inc (tookNote { s with aln := { s.aln with earlyQ := q } } blk.epoch blk none) Reg.ALN_EARLY
    else tooLate (acceptHealth s blk) blk

/-! The resampler bank (R126 to R131). -/

/-- Is a stream resampled under a configuration? (R126) -/
def isResampled (s : State) (c : Tab Word) (i : Nat) : Bool := decide (stFmt c i < 3) && rateOf (stF c (headOf c i) 0 19 16) != blankRate s

/-- LEAD of a coefficient set, 0 to 8. -/
def rsLead (s : State) (set : Nat) : Nat := min 8 (fld s (Reg.ING_RSSET set) 3 0)

/-- A stream that has resampled nothing. -/
def Rsm.zero : Rsm := ⟨[], none, [], []⟩
def rsmOf (s : State) (i : Nat) : Rsm := Tab.get (fun _ => Rsm.zero) s.ing.rs i
def setRsm (s : State) (i : Nat) (r : Rsm) : State := { s with ing := { s.ing with rs := Tab.set (fun _ => Rsm.zero) s.ing.rs i r } }

/-- n_k (R127). -/
def rsBase (s : State) (f k : Nat) : Nat := k * f / blankRate s

/-- The numbers of the 16 inputs of blank `k`, x[n_k + L − i] for i = 0 to 15; none where one lies before 0. -/
def rsInputs (s : State) (f lead k : Nat) : Option (List Nat) :=
  let top := rsBase s f k + lead
  if top < 15 then none else some ((List.range 16).map (fun i => top - i))

/-- Are all inputs of blank `k` in a tap history? -/
def rsReady (s : State) (taps : List Tap) (f lead k : Nat) : Bool :=
  match rsInputs s f lead k with
  | some ns => ns.all (fun n => taps.any (fun t => t.n == n))
  | none => false

/-- Has blank `k` been retired or skipped? -/
def isPast (s : State) (k : Nat) : Bool := (blankOf s k).isNone && !notOpened s k

/-- Blanks whose output uses input `n`. -/
def rsBlanks (s : State) (f lead n : Nat) : List Nat :=
  let r := blankRate s
  let lo := (n - lead) * r / f
  ((List.range (17 * r / f + 3)).map (fun i => lo + i)).filter (fun k =>
    decide (rsBase s f k + lead ≥ n) && decide (rsBase s f k + lead ≤ n + 15) && !isPast s k)

/-- The coefficient set of a stream. -/
def rsSet (c : Tab Word) (i : Nat) : Nat := stF c i 7 16 14

/-- An input sample is accepted into a tap history; the outputs that it completes, or repairs, fall due (R128, R129). -/
def tapInput (s : State) (c : Tab Word) (blk : Block) (n : Nat) : State :=
  let i := blk.stream
  let f := rateOf (stF c (headOf c i) 0 19 16)
  let lead := rsLead s (rsSet c i)
  let r := rsmOf s i
  let hold (s : State) (blk : Block) : State :=
    let oldest := newestOr s - 32
    let taps := (r.taps.filter (fun t => t.n != n && decide (rsBase s f oldest + lead ≤ t.n + 15))) ++ [⟨n, blk⟩]
    let due := (rsBlanks s f lead n).filter (fun k => rsReady s taps f lead k && !r.due.any (fun d => d.1 == k))
    setRsm s i { r with taps := taps, due := r.due ++ due.map (fun k => (k, s.cycle + 1)) }
  match tookOver s n blk with
  | some (h, was) =>
    match takeFirst s blk h was with
    | (s, none) => s
    | (s, some x) => hold (tookNote s n x was) x
  | none =>
    let was := (r.taps.find? (fun t => t.n == n)).map (fun t => (t.block.derr, t.block.lan.getD 2, false))
    let put (s : State) (blk : Block) : State := hold (tookNote (acceptHealth s blk) n blk was) blk
    match was with
    | some first =>
      match dupOf first blk with
      | some prp => countDup s i prp
      | none => put (countRepaired s i) { blk with repaired := true }
    | none => put s blk

/-- A float32 multiply-accumulate: whether the product is rounded before the addition is free (log 136). -/
def fmac (t x y : Nat) : Nat :=
  let p := fmul f32 .near x y
  if !Config.macFused || !isFin f32 t || !isFin f32 x || !isFin f32 y then fadd f32 .near t p
  else
    let z := ((dyOf f32 x).mul (dyOf f32 y)).add (dyOf f32 t)
    if z.m = 0 then fadd f32 .near t p else z.pack f32 .near

/-- One output sum of R127: float32 multiply-accumulate in order. -/
def macSum (hs xs : List Nat) : Nat := (hs.zip xs).foldl (fun t p => fmac t p.1 p.2) 0

/-- The 16 coefficients of a phase of a set. -/
def rsCoef (s : State) (set phase : Nat) : List Nat :=
  (List.range 16).map (fun i => getN s Win.ING_RSC (set * 128 + phase * 2 + i / 8) (i % 8))

/-- The output of a stream for blank `k` from its 16 inputs, newest first (R127). -/
def rsCompute (s : State) (set f k : Nat) (ins : List Block) (base : Block) : Block :=
  let r := blankRate s
  let phi := 64 * (k * f - rsBase s f k * r) / r
  let hs := rsCoef s set phi
  let col (g : Block → Nat) : Nat := macSum hs (ins.map g)
  { base with
    ph := base.ph.zipIdx.map (fun (p, j) => (col (fun b => (b.ph.getD j (0, 0, 0)).1), col (fun b => (b.ph.getD j (0, 0, 0)).2.1), p.2.2))
    freq := col (fun b => b.freq)
    rocof := col (fun b => b.rocof)
    an := base.an.zipIdx.map (fun (_, j) => col (fun b => b.an.getD j 0)) }

/-- RESAMPLER_OUTPUT (R128, R129, R131): an output that is due is computed, or held while the bank is stopped, and reaches the Lathe. -/
def execResamplerOutput (stream epoch : Nat) (s : State) : Out :=
  let r := rsmOf s stream
  match r.due.find? (fun d => d.1 == epoch) with
  | none => .next s
  | some (_, cyc) =>
    let s := passCyc s cyc
    let c := confOf s epoch
    let f := rateOf (stF c (headOf c stream) 0 19 16)
    let set := rsSet c stream
    let r' := { r with due := r.due.filter (fun d => d.1 != epoch) }
    let ins := ((rsInputs s f (rsLead s set) epoch).getD []).filterMap (fun n => (r.taps.find? (fun t => t.n == n)).map (·.block))
    match r.taps.find? (fun t => t.n == rsBase s f epoch), ins.foldl (fun o b => match o with
        | none => some b
        | some x => if x.judge ≤ b.judge then some b else some x) (none : Option Block) with
    | some t0, some last =>
      if ins.length < 16 then .next (setRsm s stream r')
      else
        let mk (b : Block) : Block := { b with epoch := epoch, arrAt := last.arrAt, judge := last.judge, resampled := true, early := false,
                                               lan := none, repaired := r.done.contains epoch }
        if s.ing.rsRun then
          let y := mk (rsCompute s set f epoch ins t0.block)
          let s := setRsm s stream { r' with last := some y, done := (r'.done.filter (fun k => k != epoch && decide (epoch ≤ k + 64))) ++ [epoch] }
          .next (outArrive s y)
        else
          match r.last with
          | none => .next (setRsm s stream r')
          | some p =>
            let y := mk { p with held := true }
            let s := setRsm s stream { r' with done := (r'.done.filter (fun k => k != epoch && decide (epoch ≤ k + 64))) ++ [epoch] }
            .next (outArrive s y)
    | _, _ => .next (setRsm s stream r')
where
  /-- An output reaches its blank: its inputs have passed the duplicate check already. -/
  outArrive (s : State) (y : Block) : State :=
    match blankOf s y.epoch with
    | some b => if inTime s b y then writeArrival s y else queueLate s b y
    | none =>
      if notOpened s y.epoch then
        if s.aln.earlyQ.length ≥ 16384 then inc s Reg.ALN_EARLY_OVF
        else inc { s with aln := { s.aln with earlyQ := s.aln.earlyQ ++ [y] } } Reg.ALN_EARLY
      else tooLate s y

/-! Conversions (R119, R120). -/

/-- A pattern moved by at most two places, freely (R120, log 8). -/
def ulp2 (kind : Nat) (args : List Nat) (x : Nat) : Nat :=
  if !isFin f32 x then x
  else match Config.ulp kind args % 5 with
    | 0 => x
    | 1 => fnext f32 x
    | 2 => fprev f32 x
    | 3 => fnext f32 (fnext f32 x)
    | _ => fprev f32 (fprev f32 x)

/-- SCALE times a binary32 value. -/
def scaled (sc x : Nat) : Nat := ulp2 40 [sc, x] (fmul f32 .near sc x)

/-- SCALE times magnitude times a cosine or sine of an angle in fixed point. -/
def polarPart (sc m : Nat) (th : Int) (f : Int → Int) : Nat :=
  if !isFin f32 sc || !isFin f32 m then fmul f32 .near (fmul f32 .near sc m) (fxPack f32 .near (f th))
  else ulp2 41 [sc, m, (th % (2 ^ 400 : Nat)).toNat] ((((dyOf f32 sc).mul (dyOf f32 m)).mul (ofFx (f th))).pack f32 .near)

/-- A phasor in polar form. -/
def polarPh (sc m : Nat) (th : Int) : Nat × Nat := (polarPart sc m th fxCos, polarPart sc m th fxSin)

/-- The integer of a 16-bit field as binary32, exact. -/
def i16 (x : Nat) : Nat := fofInt f32 (sext 16 x)

/-- A phasor of a C37.118 block: FORMAT bit 0 polar, bit 1 float32. An angle that is infinite or NaN gives NaN (DESIGN CHOICE, log 139). -/
def convPh (fmt sc : Nat) (p : Nat × Nat) : Nat × Nat :=
  if bitOf fmt 1 then
    if bitOf fmt 0 then (if isFin f32 p.2 then polarPh sc p.1 (dyOf f32 p.2).fx else (f32.nan, f32.nan)) else (scaled sc p.1, scaled sc p.2)
  else if bitOf fmt 0 then polarPh sc (fofInt f32 (p.1 % 65536 : Nat)) (sext 16 p.2 * fxOne / 10000)
  else (scaled sc (i16 p.1), scaled sc (i16 p.2))

/-- A rational number as binary32. -/
def ratF (num : Int) (den : Nat) : Nat := ulp2 42 [toU 64 num, den] (divRnd f32 .near (Dy.ofInt num) (Dy.ofInt den))

/-- Quality byte from a STAT word (05 R164). -/
def qualOf (stat : Nat) : Nat :=
  bits stat 11 11 * 128 + bits stat 8 6 * 16 + bits stat 9 9 * 8 + bits stat 13 13 * 4 + bits stat 15 14

/-- Nominal frequency of a stream, Hz. -/
def fnomHz (s : State) (c : Tab Word) (i : Nat) : Int := if fnomOf s c i = 1 then 60 else 50

/-- SCALE of a directory entry. -/
def dirScale (c : Tab Word) (i : Nat) : Nat := getC c Win.ING_DIR i 0

/-- A C37.118 block converted for stream `i`. -/
def convC37 (s : State) (c : Tab Word) (i arr judge : Nat) (lan : Option Nat) (port : Nat) (x : C37Block) : Block :=
  let fmt := stF c i 7 20 17
  let q := qualOf x.stat
  let ph := x.ph.zipIdx.map (fun (p, j) => let v := convPh fmt (dirScale c (phBase c i + j)) p; (v.1, v.2, q))
  let freq := if bitOf fmt 3 then x.freq else ratF (fnomHz s c i * 1000 + sext 16 x.freq) 1000
  let rocof := if bitOf fmt 3 then x.dfreq else ratF (sext 16 x.dfreq) 100
  let an := x.an.zipIdx.map (fun (a, j) => scaled (dirScale c (chAn + anBase c i + j)) (if bitOf fmt 2 then a else i16 a))
  let dg := x.dg.zipIdx.map (fun (d, j) => (d % 65536) &&& bits (getC c Win.ING_DIR (chFr + dgBase c i + j) 0) 15 0)
  ⟨i, 0, arr, judge, x.stat % 65536, ph, freq, rocof, an, dg, lan, port, false, false, false, false⟩

/-- Data-error bits of an R-SV quality: good, questionable, invalid, test (R120). -/
def rsvDerr (q : Nat) : Nat := match q with | 0 => 0 | 1 => 1 | 2 => 3 | _ => 2

/-- An R-SV ASDU converted for stream `i` (R114, R119; 05 R164, R166). -/
def convRsv (c : Tab Word) (i arr judge : Nat) (lan : Option Nat) (port : Nat) (a : RsvAsdu) : Block :=
  let sync := b2n (a.smpSynch == 0)
  let worst := ((a.ph.map (fun p => rsvDerr p.2.2)) ++ [rsvDerr a.freq.2, rsvDerr a.rocof.2] ++ a.an.map (fun x => rsvDerr x.2)).foldl max 0
  let ph := a.ph.zipIdx.map (fun (p, j) =>
    let sc := dirScale c (phBase c i + j)
    let v := if isFin f32 p.2.1 then polarPh sc p.1 ((dyOf f32 p.2.1).fx * fxPi / (180 * fxOne)) else (f32.nan, f32.nan)
    (v.1, v.2, sync * 4 + rsvDerr p.2.2))
  let an := a.an.zipIdx.map (fun (x, j) => scaled (dirScale c (chAn + anBase c i + j)) x.1)
  ⟨i, 0, arr, judge, worst * 2 ^ 14 + sync * 2 ^ 13, ph, a.freq.1, a.rocof.1, an, [], lan, port, false, false, false, false⟩

/-! Lookup and acceptance (R117, R542, Frame acceptance). -/

/-- The source address of an entry. -/
def stSrc (c : Tab Word) (i : Nat) : Nat :=
  if stF c i 0 28 28 = 1 then (List.range 4).foldl (fun a j => a * 2 ^ 32 + getC c Win.ING_ST i (1 + j)) 0 else getC c Win.ING_ST i 1

/-- May frames of a parser match an entry? 4 is the internal path. -/
def portOk (c : Tab Word) (i port : Nat) : Bool := if port = 4 then stF c i 0 23 23 == 1 else bitOf (stF c i 0 27 24) port

/-- The head entry that a key matches, and whether the port is allowed; `rsv` selects the FMT class. -/
def lookup (c : Tab Word) (rsv v6 : Bool) (src id port : Nat) : Option (Nat × Bool) :=
  let es := (enabledStreams c).filter (fun i => !stCont c i && (if rsv then stFmt c i == 2 else decide (stFmt c i < 2))
    && (stF c i 0 28 28 == b2n v6) && stSrc c i == src && stF c i 0 15 0 == id)
  match es.find? (fun i => portOk c i port) with
  | some i => some (i, true)
  | none => es.head?.map (fun i => (i, false))

/-- A frame time as TAI, a fraction of whole units over `den`; where the resulting instant lies before a leap that has been applied, the offset before
it is used (R121). -/
def taiOf (s : State) (utc num den : Nat) : Nat × Nat :=
  let ofs := sext 16 (fld s Reg.TIME_LEAP 15 0)
  let back := s.time.leaps.reverse.foldl (fun (o : Int) l =>
    if ((utc : Int) + o) * (den : Int) + (num : Int) < ((l.1 * den : Nat) : Int) then (if l.2 then o - 1 else o + 1) else o) ofs
  (((utc : Int) + back).toNat * den + num, den)

/-- The sample number that a time rounds to at a rate. -/
def snapTo (t : Nat × Nat) (f : Nat) : Nat := (2 * t.1 * f + t.2) / (2 * t.2)

/-- The time of a C37.118 frame under an entry; none where its TIME_BASE is 0. -/
def c37TimeOf (s : State) (c : Tab Word) (e : Nat) (f : C37Frame) : Option (Nat × Nat) :=
  let tb := fld s (Reg.ING_TBASE0 + 4 * stF c e 6 27 26) 23 0
  if tb = 0 then none else some (taiOf s f.soc (f.fracsec % 2 ^ 24) tb)

/-- The blank that a time selects under an entry. -/
def selects (s : State) (c : Tab Word) (e : Nat) (t : Nat × Nat) : Nat :=
  let f := rateOf (stF c e 0 19 16)
  snapTo t f * blankRate s / f

/-- The entry of a frame and the copy it is handled under (R542); `time` gives the frame's time under an entry. -/
def findEntry (s : State) (look : Tab Word → Option (Nat × Bool)) (time : Tab Word → Nat → Option (Nat × Nat)) : Option (Tab Word × Nat × Bool) :=
  match s.cfgRet with
  | none => (look s.cfg).map (fun (e, ok) => (s.cfg, e, ok))
  | some r =>
    let inNew := match look s.cfg with
      | some (e, ok) => match time s.cfg e with
        | some t => if r.target ≤ selects s s.cfg e t then some (s.cfg, e, ok) else none
        | none => none
      | none => none
    match inNew with
    | some x => some x
    | none =>
      match look r.tab with
      | some (e, ok) => match time r.tab e with
        | some t => if selects s r.tab e t < r.target then some (r.tab, e, ok) else none
        | none => none
      | none => none

/-- A check of acceptance fails: the head stream's counter. -/
def misaligned (s : State) (e : Nat) : State := onHealth s e (fun h => { h with misalign := satAdd 16 h.misalign 1 })

/-- The time checks of acceptance, then every block of the frame (R121 to R123). -/
def acceptBlocks (s : State) (c : Tab Word) (e : Nat) (t : Option (Nat × Nat)) (arr : Nat) (blks : List Block) : State :=
  match t with
  | none => misaligned s e
  | some t =>
    let f := rateOf (stF c e 0 19 16)
    let n := snapTo t f
    let tol := min 1000 (rd s Reg.ING_ALIGN_TOL)
    let off := ((t.1 * f : Nat) : Int) - ((n * t.2 : Nat) : Int)
    if tol * t.2 * f < off.natAbs * 1000000 then misaligned s e
    else if (arr + 2 * secU) * f < n * secU then onHealth s e (fun h => { h with future := satAdd 16 h.future 1 })
    else blks.foldl (fun s b =>
      if isResampled s c b.stream then tapInput s c { b with epoch := n * blankRate s / f } n else latheArrive s { b with epoch := n }) s

/-! Firmware's receive queue (R134). -/

/-- An unknown-source frame is offered where UNK_FW is 1, at most 100 a second on a port. -/
def unknownOffer (s : State) (f : FwFrame) : State :=
  if !bit s (ethReg f.port 0) 25 then s
  else
    let l := (s.ing.unk.getD f.port []).filter (fun c => decide (s.cycle < c + cycSec))
    if l.length ≥ 100 then s
    else (fwOffer { s with ing := { s.ing with unk := s.ing.unk.set f.port (l ++ [s.cycle]) } } f).1

/-! C37.118 frames (R113). -/

/-- The expected size of a data frame under a head entry. -/
def c37Size (c : Tab Word) (e : Nat) : Nat :=
  16 + ((List.range (stF c e 5 31 25)).map (fun j =>
    let i := e + j
    let fmt := stF c i 7 20 17
    2 + phCnt c i * (if bitOf fmt 1 then 8 else 4) + (if bitOf fmt 3 then 8 else 4) + anCnt c i * (if bitOf fmt 2 then 4 else 2) + dgCnt c i * 2)).sum

/-- Has each block the counts of its entry? -/
def c37Shape (c : Tab Word) (e : Nat) (f : C37Frame) : Bool :=
  f.blocks.length == stF c e 5 31 25 &&
    f.blocks.zipIdx.all (fun (b, j) => b.ph.length == phCnt c (e + j) && b.an.length == anCnt c (e + j) && b.dg.length == dgCnt c (e + j))

/-- The SYNC version that an entry's FMT asks for. -/
def fmtVersion (fmt : Nat) : Nat := if fmt = 1 then 1 else 2

/-- A command frame that firmware has received, to the sessions of its IDCODE (10 R320). -/
def c37Commands (s : State) (f : C37Frame) (src : Nat) (v6 : Bool) (udp : Nat) : State :=
  ((sessions s.cfg).filter (fun i => ssIdcode s.cfg i == f.idcode)).foldl (fun s i => c37Command s i src v6 udp f.cmd) s

/-- A C37.118 frame in a parser, 4 for the internal path; a command frame that firmware's queue drops has no effect. -/
def c37Receive (s : State) (f : C37Frame) (src : Nat) (v6 : Bool) (udp port arr judge len : Nat) (lan : Option Nat) : State :=
  let fw : FwFrame := ⟨len, port, arr, .frame (.c37 f)⟩
  if !f.chkOk || (f.version != 1 && f.version != 2) then inc s (if port = 4 then Reg.ING_INT_CHK_ERR else Reg.ETH_C37_CHK_ERR port)
  else if f.ftype = 2 ∨ f.ftype = 3 ∨ ((f.ftype = 1 ∨ f.ftype = 5) ∧ f.version = 2) then (fwOffer s fw).1
  else if f.ftype = 4 ∧ f.version = 2 then
    (match fwOffer s fw with
    | (s, true) => c37Commands s f src v6 udp
    | (s, false) => s)
  else
    match findEntry s (fun c => lookup c false v6 src f.idcode port) (fun c e => c37TimeOf s c e f) with
    | none => if port = 4 then inc s Reg.ING_INT_UNKNOWN else unknownOffer (inc s (Reg.ETH_UNKNOWN port)) fw
    | some (c, e, ok) =>
      if !ok then onHealth s e (fun h => { h with wrongPort := satAdd 16 h.wrongPort 1 })
      else if f.ftype ≠ 0 ∨ f.size ≠ c37Size c e ∨ !c37Shape c e f ∨ f.version ≠ fmtVersion (stFmt c e) then
        onHealth s e (fun h => { h with fmtErr := satAdd 16 h.fmtErr 1 })
      else
        acceptBlocks s c e (c37TimeOf s c e f) arr (f.blocks.zipIdx.map (fun (b, j) => convC37 s c (e + j) arr judge lan port b))

/-! R-SV frames (R114, R115). -/

/-- Does an R-SV frame pass the authentication that an entry asks for? -/
def rsvAuth (s : State) (c : Tab Word) (e : Nat) (f : RsvFrame) : Bool :=
  if stF c e 7 22 22 = 0 then true
  else
    match f.sig with
    | none => false
    | some (kid, tag) =>
      match rsvCell s (stF c e 7 31 23) kid with
      | none => false
      | some cell => decide (tag = gcmTag cell.key f.iv f.body [] / 2 ^ (if stF c e 7 21 21 = 1 then 64 else 0))

/-- One ASDU of an R-SV frame, handled as a frame. -/
def asduReceive (s : State) (f : RsvFrame) (src : Nat) (v6 : Bool) (port arr judge len : Nat) (lan : Option Nat) (a : RsvAsdu) : State :=
  let time : Tab Word → Nat → Option (Nat × Nat) := fun _ _ => some (taiOf s a.sec (a.frac % 2 ^ 24) (2 ^ 24))
  match findEntry s (fun c => lookup c true v6 src f.appid port) time with
  | none => unknownOffer (inc s (Reg.ETH_UNKNOWN port)) ⟨len, port, arr, .frame (.rsv f)⟩
  | some (c, e, ok) =>
    if !ok then onHealth s e (fun h => { h with wrongPort := satAdd 16 h.wrongPort 1 })
    else if a.ph.length ≠ phCnt c e ∨ a.an.length ≠ anCnt c e then onHealth s e (fun h => { h with fmtErr := satAdd 16 h.fmtErr 1 })
    else if !rsvAuth s c e f then onHealth s e (fun h => { h with authFail := satAdd 16 h.authFail 1 })
    else acceptBlocks s c e (time c e) arr [convRsv c e arr judge lan port a]

/-- An R-SV frame in a parser. One that R114 drops, whatever for, is counted in RSV_ERR (DESIGN CHOICE, log 140). -/
def rsvReceive (s : State) (f : RsvFrame) (src : Nat) (v6 : Bool) (port arr judge len : Nat) (lan : Option Nat) : State :=
  if !f.decodeOk || f.sid != 0xA1 || !f.svPayload || f.encrypted || f.asdus.isEmpty || decide (8 < f.asdus.length)
      || (f.sim && !bit s Reg.ING_CTRL 0) then inc s (Reg.ETH_RSV_ERR port)
  else f.asdus.foldl (fun s a => asduReceive s f src v6 port arr judge len lan a) s

/-! Ports (R108 to R112). -/

/-- The arrival time of a frame whose delimiter passes now, corrected, within the port's uncertainty (03 R92, R93). -/
def arrivalOf (s : State) (port : Nat) : State × Nat :=
  around s (s.now - fld s (Reg.TIME_PLAT port) 15 0 * (nsU / 16)) (stampTol s port)

/-- The parser's time for a frame, in fabric cycles: 10 Gbit/s and 600,000 frames a second at most (Supported frames, log 141). -/
def parseCycles (len : Nat) : Nat := max (ceilDiv (len * 2) 5) 834

/-- A frame enters its port's receive FIFO, where there is room for it (R111): the frames that the parser has not taken are ahead of it. -/
def fifoIn (s : State) (p len : Nat) : Option State :=
  let q := (s.ing.rxFifo.getD p []).filter (fun x => decide (s.cycle < x.1))
  if 65536 < (q.map (·.2)).sum + len then none
  else
    let from_ := match q.getLast? with | some x => x.1 | none => s.cycle
    some { s with ing := { s.ing with rxFifo := s.ing.rxFifo.set p (q ++ [(from_ + parseCycles len, len)]) } }

/-- Does a frame pass R109 apart from FCS and length? -/
def rxFilter (s : State) (port : Nat) (f : EthFrame) : Bool :=
  bit s (ethReg port 0) 31 && runsLathe (mode s)
    && (match f.dst with | .own => true | .broadcast => true | .multicast => bit s (ethReg port 0) 26 | .foreign => false)
    && decide (f.tags ≤ 1) && f.ipOk && !f.fragment
    && (f.udpDst == fld s (Reg.ETH_UDP port) 15 0 || f.udpDst == fld s (Reg.ETH_UDP port) 31 16)

/-- ETH_FRAME_RECEIVE (R109 to R123): a frame from ETHn is judged by its corrected delimiter time (01 R26). Where C37_PORT and RSV_PORT are equal it
is taken as C37.118 (DESIGN CHOICE, log 142). -/
def execEthFrameReceive (port : Fin 4) (f : EthFrame) (s : State) : Out :=
  let p := port.val
  if gated s Reg.ETH0_CFG then .next s
  else if !f.fcsOk || decide (f.len < 64) || decide (maxLen s p < f.len) then .next (inc s (Reg.ETH_RX_FCS_ERR p))
  else if !rxFilter s p f then .next (inc s (Reg.ETH_RX_FILTERED p))
  else match fifoIn s p f.len with
  | none => .next (inc s (Reg.ETH_RX_OVF p))
  | some s =>
    let s := inc s (Reg.ETH_RX_FRAMES p)
    let prp := decide (p < 2) && prpOn s
    let s := if prp && f.rct.isNone then inc s (Reg.ETH_PRP_BAD_RCT p) else s
    let lan : Option Nat := if prp then f.rct.map (·.val) else none
    let (s, arr) := arrivalOf s p
    let isC37 := f.udpDst == fld s (Reg.ETH_UDP p) 15 0
    match f.payload, isC37 with
    | .c37 x, true => .next (c37Receive s x f.srcIp f.ipv6 f.udpSrc p arr arr f.len lan)
    | .rsv x, false => .next (rsvReceive s x f.srcIp f.ipv6 p arr arr f.len lan)
    | _, true => .next (inc s (Reg.ETH_C37_CHK_ERR p))
    | _, false => .next (inc s (Reg.ETH_RSV_ERR p))

/-- INTERNAL_FRAME_DELIVER (R112, R543): the frame's arrival time lies `ageNs` ns before its delivery, by which it is judged. While the mode stops
ingest it is dropped and counted nowhere (DESIGN CHOICE, log 143). -/
def execInternalFrameDeliver (f : C37Frame) (srcIp : Nat) (ipv6 : Bool) (ageNs : Nat) (s : State) : Out :=
  if gated s Reg.ING_CTRL ∨ !runsLathe (mode s) then .next s
  else .next (c37Receive (inc s Reg.ING_INT_FRAMES) f srcIp ipv6 0 4 (s.now - ageNs * nsU) s.now f.size none)

/-- What a write of ETH_CFG does (R108): SPEED changes only where receive and transmit were both off; PRP is ETH0's. -/
def ethCfgWrite (s : State) (p v : Nat) : State :=
  ungated s Reg.ETH0_CFG fun s =>
    let off := ethReg p 0
    let was := rd s off
    let v' := putBits (putBits was 31 30 (bits v 31 30)) 26 25 (bits v 26 25)
    let v' := putBits v' 13 0 (bits v 13 0)
    let v' := if bitOf was 31 || bitOf was 30 then v' else putBits v' 29 28 (bits v 29 28)
    if p = 0 then
      setB (wr s off (putBits v' 27 27 (bits v 27 27))) Reg.ETH1_CFG 27 (bitOf v 27)
    else wr s off v'

/-- ETH_CFG_WRITE (R108). -/
def execEthCfgWrite (port : Fin 4) (v : Word) (s : State) : Out := .next (ethCfgWrite s port v.toNat)

/-- What a write of ING_RS_CTRL does: the bank follows RUN at the next opening (R130). -/
def rsAtOpen (s : State) : State :=
  let run := bit s Reg.ING_RS_CTRL 0
  setB { noteReg s Reg.ING_RS_STATUS 0 0 with ing := { s.ing with rsRun := run } } Reg.ING_RS_STATUS 0 (!run)

/-- Was STOPPED 1 at the start of this cycle (R130)? -/
def rsStopped (s : State) : Bool := bitOf (cycReg s Reg.ING_RS_STATUS).1 0

end Sys2Proof.Machine
end

