-- ==== Sys2Proof/Machine/Afe.lean ====
section
/-! DEFINITION. The local front end (12_local_front_end.md): modulator clock and start groups, the filter chain's arithmetic, control cycles,
frequency trackers, stream 0, digital inputs, and the local channels of disturbance capture. -/

namespace Sys2Proof.Machine

/-! Channel entries. -/

/-- A field of word `j` of a channel entry, as in use. -/
def afF (s : State) (ch j hi lo : Nat) : Nat := bits (getN s Win.AFE_CH ch j) hi lo
def afEn (s : State) (ch : Nat) : Bool := afF s ch 0 31 31 == 1
def afGroup (s : State) (ch : Nat) : Nat := afF s ch 0 30 28
def afSinc (s : State) (ch : Nat) : Nat := max 16 (afF s ch 0 23 16 + 1)
def afDec (s : State) (ch : Nat) : Nat := afF s ch 0 15 15
def afFir (s : State) (ch : Nat) : Nat := afF s ch 0 14 12
def afTlSh (s : State) (ch : Nat) : Nat := afF s ch 0 4 0

/-! Groups (R365, R368 to R371). -/

/-- Is a group armed, or running? -/
def grpRun (s : State) (g : Nat) : Bool := bit s Reg.AFE_GRP_CTRL g
def grpRunning (s : State) (g : Nat) : Bool := bit s Reg.AFE_GRP_STATUS g
def grpArmed (s : State) (g : Nat) : Bool := bit s Reg.AFE_GRP_STATUS (8 + g)

/-- Modes in which every group is stopped and RUN reads 0. -/
def afeOff (m : Nat) : Bool := decide (m < 3) || decide (9 ≤ m)

/-- MCLK_DIV as it acts. -/
def mclkDiv (s : State) : Nat := let d := fld s Reg.AFE_CTRL 5 0; if 5 ≤ d ∧ d ≤ 50 then d else 10

/-- The first cycle at or after `c` with a MODCLK rising edge: edges fall on multiples of the divider's period (log 26). -/
def modEdge (s : State) (c : Nat) : Nat := let p := 5 * mclkDiv s; ceilDiv c p * p

/-- Does the front end meet one channel's start limits? (R369) -/
def startOk (s : State) (ch : Nat) : Bool :=
  let d := mclkDiv s
  let r := afSinc s ch
  let lead := min 8 (fld s Reg.AFE_RSLEAD 11 8)
  let q := 4 * (1 + afDec s ch)
  decide (32000 * d * r ≤ 100000000) && decide (100000000 ≤ 2000000 * d * r)
    && decide (24000 * d * r * q ≤ 100000000) && decide (100000000 ≤ 400000 * d * r * q)
    && decide ((3 * (r - 1) + 2 + 2 * (lead + 1) * r) * d ≤ 6000) && decide (fld s (Reg.AFE_FIRGD (afFir s ch)) 7 0 ≤ 254)

/-- Enabled channels of a group. -/
def grpChans (s : State) (g : Nat) : List Nat := (List.range 24).filter (fun ch => afEn s ch && afGroup s ch == g)

/-- A running group stops now; it is armed again where its RUN bit is 1. -/
def grpHalt (s : State) (g : Nat) : State :=
  let a := s.afe
  let s := setB s Reg.AFE_GRP_STATUS g false
  setB { s with afe := { a with stopAt := a.stopAt.set g none, lastStop := a.lastStop.set g (some s.now) } } Reg.AFE_GRP_STATUS (8 + g) (grpRun s g)

/-- Every group stops (R371). -/
def afeStop (s : State) : State :=
  let s := wr s Reg.AFE_GRP_CTRL 0
  let s := (List.range 8).foldl (fun s g => if grpRunning s g then grpHalt s g else s) s
  setF { s with afe := { s.afe with startAt := List.replicate 8 none, stopAt := List.replicate 8 none } } Reg.AFE_GRP_STATUS 15 8 0

/-- A start event for a group (R368, R370). -/
def grpFire (s : State) (g : Nat) : State :=
  if !grpRun s g || grpRunning s g then inc s Reg.AFE_GRP_REFIRE
  else if (s.afe.startAt.getD g none).isSome then s
  else { s with afe := { s.afe with startAt := s.afe.startAt.set g (some s.cycle) } }

/-- What a write of AFE_GRP_CTRL does to one group. -/
def grpWrite (v : Nat) (s : State) (g : Nat) : State :=
  let was := grpRun s g
  let now := bitOf v g
  let s := setB s Reg.AFE_GRP_CTRL g now
  let s :=
    if was && !now then
      if grpRunning s g then { s with afe := { s.afe with stopAt := s.afe.stopAt.set g (some s.cycle) } }
      else setB { s with afe := { s.afe with startAt := s.afe.startAt.set g none } } Reg.AFE_GRP_STATUS (8 + g) false
    else if now && !was && !grpRunning s g then setB s Reg.AFE_GRP_STATUS (8 + g) true
    else s
  if bitOf v (8 + g) then grpFire s g else s

/-- A write of AFE_GRP_CTRL. -/
def grpCtrlWrite (s : State) (v : Nat) : State :=
  ungated s Reg.AFE_GRP_CTRL fun s =>
    let v := if afeOff (mode s) then v / 256 % 256 * 256 else v
    (List.range 8).foldl (grpWrite v) s

/-- GROUP_RUN_WRITE (R368, R371). -/
def execGroupRunWrite (v : Word) (s : State) : Out := .next (grpCtrlWrite s v.toNat)
/-- GROUP_IMM_START (R368, R370). -/
def execGroupImmStart (v : Word) (s : State) : Out := .next (grpCtrlWrite s v.toNat)

/-- Does a circuit use a channel of a group? -/
def circUses (s : State) (c g : Nat) : Bool :=
  (List.range (max 1 (bits (getN s Win.NRG_CIR c 0) 29 28))).any (fun e =>
    let w := getN s Win.NRG_CIR c (1 + e)
    let i := bits w 5 0
    let roots := if i < 24 then [i] else (List.range 8).map (fun k =>
      bits (getN s Win.AFE_MX (4 * ((i - 24) / 3) + 3) (1 + k / 4)) (8 * (k % 4) + 4) (8 * (k % 4)))
    (bits w 20 16 :: roots).any (fun ch => afEn s ch && afGroup s ch == g))

/-- A group start: its circuits have no full cycle before it (13_energy_metering.md R392). -/
def nrgRestart (s : State) (g : Nat) : State :=
  { s with nrg := { s.nrg with circ := s.nrg.circ.zipIdx.map (fun (c, i) => if circUses s i g then { c with lastFull := none, next := none } else c) } }

/-- GROUP_START (R368, R369): the start edge, the first at least 20 ns after the start event. -/
def execGroupStart (g : Fin 8) (s : State) : Out :=
  match s.afe.startAt.getD g none with
  | none => .next s
  | some c =>
    if !bit s Reg.AFE_CTRL 31 || grpRunning s g then .next s
    else
      let s := passCyc s (modEdge s (c + 10))
      let s := setB { s with afe := { s.afe with startAt := s.afe.startAt.set g none } } Reg.AFE_GRP_STATUS (8 + g.val) false
      if (grpChans s g).all (startOk s) then
        .next (nrgRestart (setB { s with afe := { s.afe with runFrom := s.afe.runFrom.set g (some (s.now, s.cycle)) } } Reg.AFE_GRP_STATUS g true) g)
      else .next (setB (setB s Reg.AFE_GRP_CTRL g false) Reg.AFE_GRP_STATUS (16 + g.val) true)

/-- GROUP_STOP (R371): the first edge after the write that cleared RUN. -/
def execGroupStop (g : Fin 8) (s : State) : Out :=
  match s.afe.stopAt.getD g none with
  | none => .next s
  | some c => .next (grpHalt (passCyc s (modEdge s (c + 1))) g)

/-- A write of AFE_CTRL (R365). -/
def mclkWrite (s : State) (v : Nat) : State :=
  ungated s Reg.AFE_CTRL fun s =>
    let w := bits v 31 31 * 2 ^ 31 + bits v 5 0
    if w = rd s Reg.AFE_CTRL then s
    else if rd s Reg.AFE_GRP_CTRL % 256 ≠ 0 ∨ fld s Reg.AFE_GRP_STATUS 7 0 ≠ 0 then setB s Reg.AFE_STATUS 0 true
    else
      let s := wr s Reg.AFE_CTRL w
      { s with pins := { s.pins with modclk := bitOf w 31 } }

/-- MCLK_CONFIG_WRITE (R365). -/
def execMclkConfigWrite (v : Word) (s : State) : Out := .next (mclkWrite s v.toNat)

/-! Loading (R388). -/

/-- A write is discarded. -/
def afeRefuse (s : State) : State := setB s Reg.AFE_STATUS 0 true

/-- Does any group run? -/
def anyRunning (s : State) : Bool := fld s Reg.AFE_GRP_STATUS 7 0 != 0

/-- Has a running group an enabled channel with a FIR set? -/
def firBusy (s : State) (k : Nat) : Bool := (List.range 24).any (fun ch => afEn s ch && afFir s ch == k && grpRunning s (afGroup s ch))

/-- The front-end cycle: 10 ns, five fabric cycles. The device time at its start. -/
def feCycle (s : State) : Nat := s.cycle / 5
def feNow (s : State) : Nat := s.now - s.cycle % 5 * s.time.addend

/-- A staged value, and that of the start of the front-end cycle (R378). -/
def stagedOf (s : State) (k : Nat) : Nat := Tab.get (fun _ => 0) s.afe.staged k
def stagedThen (s : State) (k : Nat) : Nat :=
  let p := Tab.get (fun _ => (feCycle s + 1, 0)) s.afe.stagedWas k
  if p.1 = feCycle s then p.2 else stagedOf s k

/-- A staging write (R377). -/
def stage (s : State) (w i j v : Nat) : State :=
  let k := cfgKey w i j
  { s with afe := { s.afe with staged := Tab.set (fun _ => 0) s.afe.staged k v, stagedWas := Tab.put s.afe.stagedWas k (feCycle s, stagedThen s k) } }

/-- A word comes into use, from device time `t` on; the word it replaces is remembered for what began before. -/
def changeFrom (s : State) (t w i j v : Nat) : State :=
  let k := cfgKey w i j
  let was := getN s w i j
  if v = was then s
  else
    let l := (t, was) :: (Tab.get (fun _ => []) s.afe.old k).filter (fun p => decide (s.now ≤ p.1 + secU))
    putN { s with afe := { s.afe with old := Tab.put s.afe.old k l } } w i j v

/-- A word comes into use now. -/
def changeWord (s : State) (w i j v : Nat) : State := changeFrom s s.now w i j v

/-- A write of a front-end window. -/
def afeWinWrite (s : State) (w i : Nat) (data : List Nat) : State :=
  let d (j : Nat) : Nat := data.getD j 0
  let all (s : State) (n : Nat) : State := (List.range n).foldl (fun s j => putN s w i j (d j)) s
  if w = Win.AFE_CH then
    let s := stage (stage s w i 2 (d 2)) w i 3 (d 3 % 2 ^ 24)
    let d0 := d 0 - bits (d 0) 25 24 * 2 ^ 24 - bits (d 0) 7 5 * 32
    let d1 := bits (d 1) 28 24 * 2 ^ 24 + bits (d 1) 20 16 * 2 ^ 16 + bits (d 1) 12 8 * 2 ^ 8 + bits (d 1) 4 0
    if d0 = getN s w i 0 ∧ d1 = getN s w i 1 then s
    else if grpRunning s (afGroup s i) then afeRefuse s
    else putN (putN s w i 0 d0) w i 1 d1
  else if w = Win.AFE_FIR then
    if firBusy s (i / 16) then afeRefuse s
    else (List.range 8).foldl (fun s j => putN s w i j (toU 32 (sext 20 (d j)))) s
  else if w = Win.AFE_RSC then (if anyRunning s then afeRefuse s else all s 8)
  else if w = Win.AFE_MX ∧ i % 4 < 3 then (List.range 8).foldl (fun s j => stage s w i j (d j)) s
  else if w = Win.AFE_PHS then all (changeWord s w i 0 (d 0)) 8
  else all s 8

/-- A write of AFE_TRK: a new REF is noted (R383, R384), a new FNOM refused while any group runs. -/
def afeTrkWrite (s : State) (v : Nat) : State :=
  let w := bits v 8 8 * 256 + bits v 4 0
  let ref (w : Nat) : Nat := if w % 32 < 24 then w % 32 else 0
  if w / 256 ≠ rd s Reg.AFE_TRK / 256 ∧ anyRunning s then afeRefuse s
  else
    let was := ref (rd s Reg.AFE_TRK)
    let s := if ref w = was then s
      else { s with afe := { s.afe with refAt := (s.now, was) :: s.afe.refAt.filter (fun p => decide (s.now ≤ p.1 + secU)) } }
    wr s Reg.AFE_TRK w

/-- A write of AFE_FIRGDn or AFE_RSLEAD. -/
def afeFirgdWrite (s : State) (n v : Nat) : State := if firBusy s n then afeRefuse s else wr s (Reg.AFE_FIRGD n) (v % 256)
def afeRsleadWrite (s : State) (v : Nat) : State :=
  if anyRunning s then afeRefuse s else wr s Reg.AFE_RSLEAD (bits v 11 8 * 256 + bits v 3 0)

/-! Control cycles (R377, R378). -/

/-- A staged word, as it stood at the start of this front-end cycle, comes into use for what is converted from the next on (R377, R378). -/
def applyWord (s : State) (w i j : Nat) : State :=
  changeFrom s (feNow s + 5 * s.time.addend) w i j (stagedThen s (cfgKey w i j))

/-- Apply control cycle `n`; of the applications of one front-end cycle AFE_CC_LAST shows the one of the highest number (R378). -/
def applyCc (s : State) (n : Nat) : State :=
  let s := (List.range 24).foldl (fun s ch => if afF s ch 0 11 8 = n then applyWord (applyWord s Win.AFE_CH ch 2) Win.AFE_CH ch 3 else s) s
  let s := (List.range 8).foldl (fun s st =>
    if bits (getN s Win.AFE_MX (4 * st + 3) 0) 27 24 = n then
      (List.range 3).foldl (fun s r => (List.range 8).foldl (fun s j => applyWord s Win.AFE_MX (4 * st + r) j) s) s
    else s) s
  let n := if s.afe.ccAt = some (feCycle s) then max n (fld s Reg.AFE_CC_LAST 3 0) else n
  let s := { s with afe := { s.afe with ccAt := some (feCycle s) } }
  setF (setF s Reg.AFE_CC_LAST 3 0 n) Reg.AFE_CC_LAST 31 16 (fld s Reg.AFE_CC_LAST 31 16 + 1)

/-- CONTROL_CYCLE_APPLY (R377): a write of AFE_CC_CMD. -/
def execControlCycleApply (v : Word) (s : State) : Out := .next (ungated s Reg.AFE_CC_CMD fun s => applyCc s (bits v.toNat 3 0))

/-! The filter chain (R372 to R375). -/

/-- Coefficients of the half-band stages. -/
def halfBand : List Int := [-5, 0, 49, 0, -245, 0, 1225, 2048, 1225, 0, -245, 0, 49, 0, -5]

/-- A value limited to 24 bits, signed. -/
def sat24 (x : Int) : Int := max (-8388608) (min 8388607 x)

/-- A stage's sum before the limit: shifted right with rounding. -/
def stageShift (sh : Nat) (acc : Int) : Int := if sh = 0 then acc else (acc + (2 ^ (sh - 1) : Nat)) / (2 ^ sh : Nat)

/-- The shift of a stage. -/
def stageSh (s : State) (ch stg : Nat) : Nat := afF s ch 1 (28 - 8 * stg) (24 - 8 * stg)

/-- A list convolved with `r` ones: a moving sum. -/
def boxSum (r : Nat) (l : List Int) : List Int := (List.range (l.length + r - 1)).map (fun k => ((l.take (k + 1)).drop (k + 1 - r)).sum)

/-- The weights of the bits in a sinc³ output: three moving sums over R bits. -/
def sincTaps (r : Nat) : List Int := boxSum r (boxSum r (List.replicate r 1))

/-- The 128 coefficients of a FIR set, 20 bits, signed. -/
def firTaps (s : State) (set : Nat) : List Int := (List.range 128).map (fun j => sext 20 (getN s Win.AFE_FIR (set * 16 + j / 8) (j % 8)))

/-- The exact sum that a stage forms from its newest inputs `xs`, newest first: the bits of stage 0 count as +1 and -1 (R366, R372, R373). -/
def stageAcc (s : State) (ch stage : Nat) (xs : List Int) : Int :=
  let dot (h x : List Int) : Int := ((h.zip x).map (fun p => p.1 * p.2)).sum
  match stage with
  | 0 => dot (sincTaps (afSinc s ch)) (xs.map (fun b => if 0 < b then 1 else -1))
  | 1 => dot halfBand xs
  | 2 => dot halfBand xs
  | _ => dot (firTaps s (afFir s ch)) xs

/-- The recent clips of a channel, newest first. -/
def clipsOf (s : State) (c : Nat) : List Nat := Tab.get (fun _ => []) s.afe.clipAt c

/-- FILTER_STAGE_CLIP (R373): a stage of an enabled channel of a running group forms its sum from its newest inputs `xs`. -/
def execFilterStageClip (ch : Fin 24) (stage : Fin 4) (xs : List Int) (s : State) : Out :=
  let c := ch.val
  let y := stageShift (stageSh s c stage) (stageAcc s c stage xs)
  if !afEn s c || !grpRunning s (afGroup s c) || sat24 y = y then .next s
  else
    let first := !bit s Reg.AFE_CLIP c
    let s := inc (setB s Reg.AFE_CLIP c true) Reg.AFE_CLIP_CNT
    let s := { s with afe := { s.afe with clipAt := Tab.put s.afe.clipAt c (s.now :: (clipsOf s c).filter (fun t => decide (s.now ≤ t + secU))) } }
    .next (if first then pushDev s 0x0301 [c + 1024] else s)

/-- The recent times for which a channel was stuck, newest first. -/
def stuckOf (s : State) (c : Nat) : List (Nat × Option Nat) := Tab.get (fun _ => []) s.afe.stuckAt c

/-- CHANNEL_STUCK (R367): one level for 256 MODCLK cycles. -/
def execChannelStuck (ch : Fin 24) (s : State) : Out :=
  let c := ch.val
  if bit s Reg.AFE_STUCK c || !afEn s c || !grpRunning s (afGroup s c) then .next s
  else
    let l := (stuckOf s c).filter (fun p => match p.2 with | some e => decide (s.now ≤ e + secU) | none => true)
    let s := { s with afe := { s.afe with stuckAt := Tab.put s.afe.stuckAt c ((s.now, none) :: l) } }
    .next (pushDev (setB s Reg.AFE_STUCK c true) 0x0301 [c + 256])

/-- CHANNEL_UNSTUCK (R367): the sinc³ stage has taken 3 × SINC_R fresh bits. -/
def execChannelUnstuck (ch : Fin 24) (s : State) : Out :=
  let c := ch.val
  if !bit s Reg.AFE_STUCK c then .next s
  else
    let l := (stuckOf s c).map (fun p => match p.2 with | some e => (p.1, some e) | none => (p.1, some s.now))
    let s := { s with afe := { s.afe with stuckAt := Tab.put s.afe.stuckAt c l } }
    .next (pushDev (setB s Reg.AFE_STUCK c false) 0x0301 [c + 512])

/-! Samples of a channel (R375, R376, R379, R381; log 6: a command gives the outputs of the filter chain that a grid sample takes). -/

/-- A staged word as it was in use at an instant. -/
def wordAt (s : State) (w i j t : Nat) : Nat :=
  match ((Tab.get (fun _ => []) s.afe.old (cfgKey w i j)).filter (fun p => decide (t < p.1))).getLast? with
  | some p => p.2
  | none => getN s w i j

/-- Did a group run at an instant? -/
def grpRanAt (s : State) (g t : Nat) : Bool :=
  match s.afe.runFrom.getD g none with
  | none => false
  | some (a, _) => decide (a ≤ t) && (grpRunning s g || (match s.afe.lastStop.getD g none with | some e => decide (t < e) | none => false))

/-- Was a channel stuck at some time from `a` to `b`? -/
def stuckIn (s : State) (ch a b : Nat) : Bool :=
  (stuckOf s ch).any (fun p => decide (p.1 ≤ b) && (match p.2 with | some e => decide (a < e) | none => true))

/-! Sample instants (R366, R374). -/

/-- The captured device time of MODCLK edge `i` of a running or stopped group, its start edge being edge 0: within 2 ns of the edge (R366). -/
def edgeTime (s : State) (g i : Nat) : Nat :=
  let c := (match s.afe.runFrom.getD g none with | some (_, c) => c | none => 0) + 5 * mclkDiv s * i
  timeAt s c + Config.edgeErr c % (4 * nsU + 1) - 2 * nsU

/-- The last MODCLK edge of sinc³ output `m`. -/
def sincEdge (s : State) (ch m : Nat) : Nat := (m + 1) * afSinc s ch - 1

/-- The instant of sinc³ output `m`: midway between the first and the last edge of its 3 × (SINC_R − 1) + 1 input bits. -/
def sincInstant (s : State) (ch m : Nat) : Nat :=
  let e := sincEdge s ch m
  (edgeTime s (afGroup s ch) (e - 3 * (afSinc s ch - 1)) + edgeTime s (afGroup s ch) e) / 2

/-- The newest of the 15 inputs of output `r` of a half-band stage, which halves the rate; its centre input is the 7th before. -/
def halfNewest (r : Nat) : Nat := 2 * r + 1
def halfCentre (r : Nat) : Nat := halfNewest r - 7

/-- The instant of output `q` of stage 2: that of its centre input, whose instant is that of its own. -/
def halfInstant (s : State) (ch q : Nat) : Nat := sincInstant s ch (halfCentre (halfCentre q))

/-- The newest input of FIR output `p`. -/
def firNewest (s : State) (ch p : Nat) : Nat := (p + 1) * (1 + afDec s ch) - 1

/-- The instant of FIR output `p`: that of the input AFE_FIRGD / 2 before its newest, interpolated where AFE_FIRGD is odd. -/
def firInstant (s : State) (ch p : Nat) : Nat :=
  let gd := fld s (Reg.AFE_FIRGD (afFir s ch)) 7 0
  let h := firNewest s ch p - gd / 2
  if gd % 2 = 0 then halfInstant s ch h else (halfInstant s ch h + halfInstant s ch (h - 1)) / 2

/-- The instant of an input of a channel's resampler: a sinc³ output on the time-locked branch, else a FIR output. -/
def tapInstant (s : State) (tl : Bool) (ch n : Nat) : Nat := if tl then sincInstant s ch n else firInstant s ch n

/-- When it is converted: at the last edge of its newest bit. -/
def tapDone (s : State) (tl : Bool) (ch n : Nat) : Nat :=
  edgeTime s (afGroup s ch) (sincEdge s ch (if tl then n else halfNewest (halfNewest (firNewest s ch n))))

/-- An output of a MOD channel's filter chain, converted at `t`, as binary32: of stage 3, or (`tl`) of stage 0 (R375). What is converted while the
channel is stuck is NaN (R367). -/
def modSample (s : State) (tl : Bool) (ch t : Nat) (y : Int) : Nat :=
  if !afEn s ch || !grpRanAt s (afGroup s ch) t || stuckIn s ch t t then f32.nan
  else
    let gain := wordAt s Win.AFE_CH ch 2 t
    let ofs : Int := sext 24 (wordAt s Win.AFE_CH ch 3 t)
    if !isFin f32 gain then fmul f32 .near gain ((Dy.mk y 0).pack f32 .near)
    else ((dyOf f32 gain).mul ((Dy.mk y (if tl then -(afTlSh s ch : Int) else 0)).sub (Dy.ofInt ofs))).pack f32 .near

/-- Word `j` of the set and row of a derived channel; its inputs. -/
def mxSet (ch : Nat) : Nat := (ch - 24) / 3
def mxRow (ch : Nat) : Nat := (ch - 24) % 3
def mxNin (s : State) (st : Nat) : Nat := max 1 (min 8 (bits (getN s Win.AFE_MX (4 * st + 3) 0) 19 16))
def mxNout (s : State) (st : Nat) : Nat := max 1 (bits (getN s Win.AFE_MX (4 * st + 3) 0) 21 20)
def mxInput (s : State) (st i : Nat) : Nat := bits (getN s Win.AFE_MX (4 * st + 3) (1 + i / 4)) (8 * (i % 4) + 4) (8 * (i % 4))
def mxIns (s : State) (st : Nat) : List Nat := (List.range (mxNin s st)).map (mxInput s st)

/-- Do the inputs of a set share one sample instant? -/
def mxShared (s : State) (st : Nat) : Bool :=
  match mxIns s st with
  | [] => true
  | a :: l => l.all (fun b => afGroup s a == afGroup s b && afSinc s a == afSinc s b && afDec s a == afDec s b && afFir s a == afFir s b)

/-- An input of a channel's resampler, channel 0 to 47: a derived channel takes one integer for each input (R376). -/
def chInput (s : State) (tl : Bool) (ch t : Nat) (ys : List Int) : Nat :=
  if ch < 24 then modSample s tl ch t (ys.getD 0 0)
  else
    let st := mxSet ch
    let ins := mxIns s st
    let on := bitOf (getN s Win.AFE_MX (4 * st + 3) 0) 31 && decide (mxRow ch < mxNout s st) && mxShared s st && ins.all (fun i => decide (i < 24))
    if !on then f32.nan
    else
      let vs := ins.zipIdx.map (fun (c, i) => fmul f32 .near (wordAt s Win.AFE_MX (4 * st + mxRow ch) i t) (modSample s tl c t (ys.getD i 0)))
      vs.foldl (fadd f32 .near) 0

/-- 100 MHz over the rate of the samples that the resampler of a channel takes: the sinc rate on the time-locked branch, else the output rate. -/
def chDiv (s : State) (tl : Bool) (ch : Nat) : Nat :=
  let m := if ch < 24 then ch else (mxIns s (mxSet ch)).getD 0 0
  mclkDiv s * afSinc s m * (if tl then 1 else 4 * (1 + afDec s m))

/-- The 16 coefficients of a phase: set 0 for the tracking resampler, set 1 for the time-locked branch. -/
def afeCoef (s : State) (tl : Bool) (phase : Nat) : List Nat :=
  (List.range 16).map (fun i => getN s Win.AFE_RSC (b2n tl * 128 + phase * 2 + i / 8) (i % 8))

/-- A sample of channel 0 to 47 on the tracking grid or (`tl`) the time-locked one, at the instant `t`: 16 inputs, numbered by their sample instants, by
R127's arithmetic (R374, R379, R381). -/
def chSample (s : State) (tl : Bool) (ch t : Nat) (g : GridTaps) : Nat :=
  let m := if ch < 24 then ch else (mxIns s (mxSet ch)).getD 0 0
  let lead := min 8 (if tl then fld s Reg.AFE_RSLEAD 11 8 else fld s Reg.AFE_RSLEAD 3 0)
  let phi := min 63 (64 * (t - tapInstant s tl m g.newest) * 100000000 / (secU * chDiv s tl ch))
  macSum (afeCoef s tl phi) ((List.range 16).map (fun i =>
    chInput s tl ch (tapDone s tl m (g.newest + lead - i)) (g.taps.map (fun l => l.getD i 0))))

/-- The samples of a channel at a list of instants. -/
def chSamples (s : State) (tl : Bool) (ch : Nat) (ts : List Nat) (gs : List GridTaps) : List Nat :=
  ts.zipIdx.map (fun (t, i) => chSample s tl ch t (gs.getD i ⟨0, []⟩))

/-- The newest samples of a channel on the time-locked grid, oldest first, the last of them sample number `n` (R379). -/
def lockedSamples (s : State) (ch n : Nat) (gs : List GridTaps) : List Nat :=
  chSamples s true ch ((List.range gs.length).map (fun i => (n + 1 + i - gs.length) * secU / 24000)) gs

/-- The MOD channels that a channel rests on. -/
def chRoots (s : State) (ch : Nat) : List Nat := if ch < 24 then [ch] else mxIns s (mxSet ch)

/-- The RMS of samples. -/
def rmsAll (l : List Nat) : Nat :=
  if l.any (fun x => !isFin f32 x) || l.isEmpty then f32.nan
  else
    let d := l.foldl (fun d x => d.add ((dyOf f32 x).mul (dyOf f32 x))) (Dy.ofInt 0)
    ulp1 52 l (sqrtRnd f32 .near ⟨d.m * (2 ^ 128 : Nat) / (l.length : Nat), d.e - 128⟩)

/-! Frequency trackers (R380). -/

/-- AFE_TRK.REF as it acts, and as it acted at a time. -/
def trkRef (s : State) : Nat := let r := fld s Reg.AFE_TRK 4 0; if r < 24 then r else 0
def trkRefAt (s : State) (t : Nat) : Nat :=
  match (s.afe.refAt.filter (fun p => decide (t < p.1))).getLast? with
  | some p => p.2
  | none => trkRef s
/-- Nominal frequency, Hz. -/
def fnom (s : State) : Nat := if bit s Reg.AFE_TRK 8 then 60 else 50

def trkOf (s : State) (ch : Nat) : Trk := s.afe.trk.getD ch ⟨none, 0, 0, [], []⟩
def setTrk (s : State) (ch : Nat) (t : Trk) : State := { s with afe := { s.afe with trk := s.afe.trk.set ch t } }

/-- Is a tracker locked? -/
def trkLocked (s : State) (ch : Nat) : Bool := bit s Reg.AFE_TRK_LOCK ch

/-- The lock state of a tracker takes a value. -/
def setLock (s : State) (ch : Nat) (v : Bool) : State :=
  if trkLocked s ch = v then s
  else
    let s := setB s Reg.AFE_TRK_LOCK ch v
    let k := trkOf s ch
    let s := setTrk s ch { k with locks := (s.now, v) :: k.locks.filter (fun p => decide (s.now ≤ p.1 + secU)) }
    if ch = trkRef s then pushDev (if v then s else inc s Reg.AFE_TRK_UNLOCKS) 0x0302 [ch + 256 * b2n v]
    else s

/-- Was a tracker unlocked at some time from `a` to `b`? -/
def unlockedIn (s : State) (ch a b : Nat) : Bool :=
  let l := (trkOf s ch).locks
  l.any (fun p => !p.2 && decide (a ≤ p.1) && decide (p.1 ≤ b)) ||
    (match l.find? (fun p => decide (p.1 ≤ a)), l.getLast? with
      | some p, _ => !p.2
      | none, some p => p.2
      | none, none => !trkLocked s ch)

/-- AFE_TRK_FREQ follows the reference tracker. -/
def trkShow (s : State) : State :=
  wr s Reg.AFE_TRK_FREQ (if trkLocked s (trkRef s) then (trkOf s (trkRef s)).freq else 0)

/-- A cycle of `d` ticks of 1/65,536 ns after one of `d0`: 45 to 65 Hz, and less than 0.5 Hz from it. -/
def cycleGood (d : Nat) (d0 : Option Nat) : Bool :=
  let k := 65536 * 1000000000
  decide (45 * d ≤ k) && decide (k ≤ 65 * d) &&
    (match d0 with | some e => decide (2 * k * (max d e - min d e) < d * e) | none => false)

/-- Sample `i` of a list less the mean of the 480 samples before it, or of as many as the list has, times their number: that number and the product. -/
def lessMean (xs : List Nat) (i : Nat) : Nat × Dy :=
  let l := (xs.take i).drop (i - 480)
  let m := max 1 l.length
  (m, ((Dy.ofInt (m : Nat)).mul (dyOf f32 (xs.getD i 0))).sub (l.foldl (fun d x => d.add (dyOf f32 x)) (Dy.ofInt 0)))

/-- The last two of a list of samples, each less the mean of those before it, on one scale. -/
def lastTwo (xs : List Nat) : Dy × Dy :=
  let a := lessMean xs (xs.length - 2)
  let b := lessMean xs (xs.length - 1)
  ((Dy.ofInt (b.1 : Nat)).mul a.2, (Dy.ofInt (a.1 : Nat)).mul b.2)

/-- The instant of the positive-going crossing between samples `n` − 1 and `n` of the time-locked grid, by linear interpolation; `xs` are the channel's
newest samples up to `n`. None where there is none. -/
def crossing (n : Nat) (xs : List Nat) : Option Nat :=
  let y := lastTwo xs
  if xs.length < 2 ∨ xs.any (fun x => !isFin f32 x) ∨ 0 ≤ y.1.m ∨ y.2.m < 0 then none
  else some (crossAt 24000 (n - 1) n (Dy.ofInt 0) y.1 y.2)

/-- TRACKER_CROSSING (R380): a positive-going crossing between samples `n` − 1 and `n` of the time-locked grid; `samples` are the newest up to `n`. The
RMS of the cycle that it ends is that of its samples (log 157). -/
def execTrackerCrossing (ch : Fin 24) (n : Nat) (samples : List GridTaps) (s : State) : Out :=
  let c := ch.val
  let xs := lockedSamples s c n samples
  match (if !afEn s c || !grpRunning s (afGroup s c) then none else crossing n xs) with
  | none => .next s
  | some t =>
    let s := passTo s (ceilDiv (n * secU) 24000)
    let k := trkOf s c
    match k.last with
    | none => .next (setTrk s c { k with last := some t })
    | some p =>
      if t ≤ p then .next s
      else
        let d := (t - p) / 2 ^ 32
        let d0 := match k.cycs with | (a, b, _) :: _ => if b = p then some ((b - a) / 2 ^ 32) else none | [] => none
        let rms := rmsAll (xs.drop (xs.length - min xs.length (n - p * 24000 / secU)))
        let good := cycleGood d d0 && flt f32 (rd s Reg.AFE_TRK_MIN) rms
        let f := divRnd f32 .near (Dy.ofInt ((65536 * 1000000000 : Nat) : Int)) (Dy.ofInt d)
        let g := if good then k.good + 1 else 0
        let s := setTrk s c { k with last := some t, freq := f, good := g, cycs := (p, t, f) :: k.cycs.filter (fun x => decide (t ≤ x.2.1 + secU)) }
        let s := setLock s c (if trkLocked s c then good else decide (4 ≤ g))
        .next (trkShow s)

/-- TRACKER_TIMEOUT (R380): 25 ms without a crossing. -/
def execTrackerTimeout (ch : Fin 24) (s : State) : Out :=
  let c := ch.val
  match trkLocked s c, (trkOf s c).last with
  | true, some p =>
    let s := passTo s (p + 25 * msU)
    .next (trkShow (setLock (setTrk s c { trkOf s c with good := 0 }) c false))
  | _, _ => .next s

/-! Stream 0 (R382 to R385). -/

/-- The window function in fixed point: 0.5 (1 + cos(π n / N)). -/
def hann (n : Int) (big : Nat) : Int := (fxOne + fxCos (fxPi * n / (big : Int))) / 2

/-- The phasor of samples x[−N..N] at the frequency `fe` (R382): each part within one place of its exact value (log 8). -/
def phasorOf (fe : Nat) (big : Nat) (xs : List Nat) : Nat × Nat :=
  if xs.any (fun x => !isFin f32 x) then (f32.nan, f32.nan)
  else
    let w := 2 * fxPi * (dyOf f32 fe).fx / fxOne
    let part (f : Int → Int) : Dy := xs.zipIdx.foldl (fun d (x, i) =>
      let n : Int := (i : Int) - big
      d.add ((dyOf f32 x).mul (ofFx (fxMul (hann n big) (f (w * n / 24000)))))) (Dy.ofInt 0)
    let out (k : Nat) (d : Dy) : Nat := ulp1 k (fe :: xs) (divRnd f32 .near (d.mul (ofFx (fxSqrt (2 * fxOne)))) (Dy.ofInt big))
    (out 50 (part fxCos), out 51 (part (fun a => -fxSin a)))

/-- RMS of x[−N..N−1] (R382). -/
def rmsOf (big : Nat) (xs : List Nat) : Nat := rmsAll (xs.take (2 * big))

/-- FREQ: the mean of the cycle frequencies of the reference channel `ref` whose crossings lie in a window (R382). -/
def meanFreq (s : State) (ref a b : Nat) : Nat :=
  let l := (trkOf s ref).cycs.filter (fun c => decide (a ≤ c.1) && decide (c.2.1 ≤ b))
  if l.isEmpty then f32.nan
  else ulp1 53 [a, b] (divRnd f32 .near (l.foldl (fun d c => d.add (dyOf f32 c.2.2)) (Dy.ofInt 0)) (Dy.ofInt l.length))

/-- Sources of stream 0 in use at a time: phasors, then analogs (R383). -/
def s0Sources (s : State) (c : Tab Word) (t : Nat) : List Nat × List Nat :=
  let src (i : Nat) : Nat := bits (wordAt s Win.AFE_PHS i 0 t) 5 0
  ((List.range (min 32 (phCnt c 0))).map src, (List.range (min 24 (anCnt c 0))).map (fun j => src (32 + j)))

/-- The debounced input levels at an instant. -/
def dinAt (s : State) (t : Nat) : Nat :=
  match s.afe.dinLog.find? (fun p => decide (p.1 ≤ t)) with
  | some p => p.2
  | none => 0

/-- STAT of a record whose window runs from `a` to `b` (R385). -/
def s0Stat (s : State) (srcs : List Nat) (a b : Nat) : Nat :=
  let roots := (srcs.map (chRoots s)).flatten
  let bad := roots.any (fun ch => (clipsOf s ch).any (fun t => decide (a ≤ t) && decide (t ≤ b)) || stuckIn s ch a b)
  (if bad || unlockedIn s (trkRefAt s b) a b then 0x4000 else 0) + (if !bit s Reg.TIME_STATUS 3 || bit s Reg.TIME_STATUS 4 then 0x2000 else 0)

/-- Were the inputs of a channel's samples there, from the first sample `g` at `a` to the last `h` at `b`? (R384) -/
def s0Ran (s : State) (ch a b : Nat) (g h : GridTaps) : Bool :=
  let lead := min 8 (fld s Reg.AFE_RSLEAD 11 8)
  let m := if ch < 24 then ch else (mxIns s (mxSet ch)).getD 0 0
  (chRoots s ch).all (fun r => grpRanAt s (afGroup s r) a && grpRanAt s (afGroup s r) b && grpRanAt s (afGroup s r) (tapDone s true m (h.newest + lead))) &&
    decide (15 ≤ g.newest + lead)

/-- STREAM0_RECORD_WRITE (R382 to R385): `samples` holds, for each source in use, phasors first, its samples n = −N to N. -/
def execStream0RecordWrite (epoch : Nat) (samples : List (List GridTaps)) (s : State) : Out :=
  let c := confOf s epoch
  let done := match s.afe.s0 with | some (k, _) => decide (epoch ≤ k) | none => false
  if !stEn c 0 || done || !runsLathe (mode s) then .next s
  else
    let r := blankRate s
    let f := fnom s
    let big := 24000 / f
    let s := passTo s (ceilDiv (secU * (epoch * f + r) + 50000 * nsU * r * f) (r * f))
    let t0 := epoch * secU / r
    let a := t0 - secU / f
    let b := t0 + secU / f
    let (phs, ans) := s0Sources s c b
    let srcs := phs ++ ans
    let tap (i n : Nat) : GridTaps := (samples.getD i []).getD n ⟨0, []⟩
    let ran := srcs.zipIdx.all (fun (ch, i) => s0Ran s ch a b (tap i 0) (tap i (2 * big)))
    let moved := s.afe.refAt.any (fun p => decide (a ≤ p.1) && decide (p.1 ≤ b))
    let ref := trkRefAt s b
    let freq := meanFreq s ref a b
    let prev := match s.afe.s0 with | some (k, x) => if k + 1 = epoch then x else f32.nan | none => f32.nan
    let s := { s with afe := { s.afe with s0 := some (epoch, freq) } }
    if !ran || moved then .next (inc s Reg.AFE_S0_SKIPPED)
    else
      let ts := (List.range (2 * big + 1)).map (fun i => a + i * secU / 24000)
      let fe := if trkLocked s ref then (trkOf s ref).freq else fofInt f32 f
      let xs := srcs.zipIdx.map (fun (ch, i) => chSamples s true ch ts (samples.getD i []))
      let stat := s0Stat s srcs a b
      let q := qualOf stat
      let ph := (xs.take phs.length).map (fun x => let p := phasorOf fe big x; (p.1, p.2, q))
      let an := (xs.drop phs.length).map (rmsOf big)
      let rocof := fmul f32 .near (fsub f32 .near freq prev) (fofInt f32 r)
      let lv := dinAt s t0
      .next (latheArrive s ⟨0, epoch, s.now, s.now, stat, ph, freq, rocof, an, [lv % 65536, lv / 65536], none, 4, false, false, false, false⟩)

/-! Digital inputs (R386, R387). -/

/-- An event enters the DIN FIFO, before those of this front-end cycle with a higher input number; what then stands past 256 entries is dropped (R387). -/
def dinPush (s : State) (e : Nat × Nat × Nat) : State :=
  let n := if s.afe.dinNow.1 = feCycle s then s.afe.dinNow.2 else 0
  let l := s.afe.dinFifo
  let (was, own) := l.splitAt (l.length - n)
  let q := was ++ own.filter (fun x => decide (x.2.1 ≤ e.2.1)) ++ e :: own.filter (fun x => decide (e.2.1 < x.2.1))
  let s := { s with afe := { s.afe with dinFifo := q.take 256, dinNow := (feCycle s, min (n + 1) 256) } }
  if 256 < q.length then inc (setB s Reg.AFE_DINEV_TAG 30 true) Reg.AFE_DIN_OVF else s

/-- DIN_CHANGE_ACCEPT (R386, R387; 14 R407): the debounced level of an input changes. -/
def execDinChangeAccept (input : Fin 32) (s : State) : Out :=
  let i := input.val
  let e := getN s Win.AFE_DIN i 0
  if !bitOf e 31 || gated s Reg.AFE_DIN_LEVEL then .next s
  else
    let up := !bit s Reg.AFE_DIN_LEVEL i
    let deb := bits e 15 0
    let tag := feNow s - (if deb = 0 then 10 else deb * 1000) * nsU
    let s := setB s Reg.AFE_DIN_LEVEL i up
    let log := (tag, rd s Reg.AFE_DIN_LEVEL) :: s.afe.dinLog
    let keep := log.filter (fun p => decide (s.now ≤ p.1 + secU))
    let s := { s with afe := { s.afe with dinLog := keep ++ ((log.drop keep.length).take 1) } }
    let s := setLvl s (8 + i) (b2n up) none tag
    let s := if bitOf (bits (cw s Win.CAP_IN (8 + i) 0) 29 28) (if up then 0 else 1) then capEventAt s s.cycle (8 + i) tag none else s
    if !bitOf (bits e 29 28) (if up then 0 else 1) then .next s
    else
      let t := tag / nsU
      let s := dinPush s (t, i, b2n up)
      .next (if bitOf e 27 then (pushItem s (fld s Reg.AFE_DIN_CHUTE 1 0) ⟨0, 0, none, 0x0300, 3, t, [i + 256 * b2n up]⟩).1 else s)

/-- A full read of AFE_DINEV_TAG: the oldest entry is popped and its time latched (R387). -/
def dinPop (s : State) : State × Nat :=
  let ovf := b2n (bit s Reg.AFE_DINEV_TAG 30) * 2 ^ 30
  match s.afe.dinFifo with
  | [] =>
    (notePop (wr s Reg.AFE_DINEV_TAG ovf) Reg.AFE_DINEV_TAG ovf, ovf)
  | (t, i, l) :: q =>
    let s := { s with afe := { s.afe with dinFifo := q } }
    let sec := t / 1000000000
    let s := wr (wr (wr s Reg.AFE_DINEV_SEC_LO (sec % 2 ^ 32)) Reg.AFE_DINEV_SEC_HI (sec / 2 ^ 32)) Reg.AFE_DINEV_NS (t % 1000000000)
    let v := 2 ^ 31 + ovf + q.length * 512 + l * 256 + i
    (notePop (wr s Reg.AFE_DINEV_TAG v) Reg.AFE_DINEV_TAG v, v)

/-- DIN_EVENT_POP (R387). -/
def execDinEventPop (s : State) : Out :=
  if gated s Reg.AFE_DINEV_TAG then .next { s with hostData := 0 }
  else
    let (s, w) := dinPop s
    .next { s with hostData := BitVec.ofNat 32 w }

/-! Local threshold units and capture channels (14_capture.md R408, R418). -/

/-- What a local unit tests: the newest sample of its source, or the RMS of the newest 24,000 / FNOM, or of as many as there are (log 157). -/
def thrValue (s : State) (u n : Nat) (gs : List GridTaps) : Nat :=
  let d0 := cw s Win.CAP_TH u 0
  let xs := lockedSamples s (bits d0 17 0) n gs
  if bits d0 27 26 = 1 then rmsAll (xs.drop (xs.length - 24000 / fnom s)) else xs.getLast?.getD f32.nan

/-- Sample number `n` of the time-locked grid, the last of `gs`, reaches a threshold unit of the local domain (R408). -/
def thrStep (s : State) (u n : Nat) (gs : List GridTaps) : State :=
  if 47 < bits (cw s Win.CAP_TH u 0) 17 0 then s else thrSample (passTo s (ceilDiv (n * secU) 24000)) u n (thrValue s u n gs)

/-- THRESHOLD_CROSSING_LOCAL (R408). -/
def execThresholdCrossingLocal (unit : Fin 64) (n : Nat) (samples : List GridTaps) (s : State) : Out := .next (thrStep s unit n samples)

/-- THRESHOLD_UNIT_ARM (R408). -/
def execThresholdUnitArm (unit : Fin 64) (n : Nat) (samples : List GridTaps) (s : State) : Out := .next (thrStep s unit n samples)

/-- SHAVING_STORE: sample number `n` of the time-locked grid reaches a capture channel of the local domain. -/
def execShavingStore (ch : Fin 256) (n : Nat) (sample : GridTaps) (s : State) : Out :=
  let w := cw s Win.CAP_CH ch 0
  let src := bits w 17 0
  if !bitOf w 31 || bitOf w 30 || n % (bits w 25 18 + 1) != 0 || decide (47 < src) then .next s
  else
    let s := passTo s (ceilDiv (n * secU) 24000)
    let t := n * secU / 24000
    if (chRoots s src).all (fun m => grpRanAt s (afGroup s m) t) then
      .next (shave s ch (n * 1000000000 / 24000) (chSample s true src t sample))
    else .next s

end Sys2Proof.Machine
end

