-- ==== Sys2Proof/Machine/Alarms.lean ====
section
/-! DEFINITION. The alarm block and GOOSE (09_detectors_alarms.md R299 to R308): latches, pins, the data set and its messages. -/

namespace Sys2Proof.Machine

/-! Pins (R299, R303; 02 R43). -/

/-- The levels that the alarm lines show: active where latched in a mode that permits it, inactive otherwise. -/
def alarmLevel (s : State) : Nat :=
  let pol := fld s Reg.DET_ALM_CFG 31 16
  let lat := if runsAlarms (mode s) then fld s Reg.DET_ALM_STATE 15 0 else 0
  (List.range 16).foldl (fun v n => if bitOf lat n = bitOf pol n then setBitN v n else v) 0

/-- The pins follow latches, polarity and mode; in LAST-GASP they keep their levels. -/
def alarmPins (s : State) : State :=
  if mode s = Mode.lastGasp ∨ mode s = Mode.boot then s
  else { s with pins := { s.pins with alarm := alarmLevel s, alarmDriven := true } }

/-! GOOSE (R304 to R308). -/

/-- Units out of service that are configured (R305 bit 8): oscillation units and the island unit. -/
def detOos (s : State) : Bool :=
  (List.range 9).any (fun u => bitOf s.sys.oosUnit u &&
    (if u < 8 then bitOf (getC s.cfg Win.DET_OSC u 0) 31 else bitOf (getC s.cfg Reg.DET_ISL_CFG 0 0) 31))

/-- The lines that may be latched: a write of DET_ALM_CFG applies from the cycle after it (R303). -/
def almEn (s : State) : Nat := (s.cyc.almCfg.getD (rd s Reg.DET_ALM_CFG)) % 65536

/-- The data set: bits 0 to 15 the lines that are latched and enabled, bits 16 to 24 the status bits (R305). -/
def gooseData (s : State) : Nat :=
  let h (b : Nat) := b2n (bit s Reg.SYS_HEALTH b)
  let st := h Health.logFault + 2 * h Health.timeHoldover + 4 * h Health.twinStale + 8 * h Health.twinLinkDown + 16 * b2n (twinRole s == 3)
    + 32 * b2n (bit s Reg.SYS_STATUS 13) + 64 * h Health.eccUe + 128 * h Health.selftestFail + 256 * b2n (detOos s)
  (fld s Reg.DET_ALM_STATE 15 0 &&& fld s Reg.DET_ALM_CFG 15 0) + st * 65536

/-- T1 and T0 in ms (DET_GS_TIMING): T1 at least 1 and at most T0. -/
def gsT0 (s : State) : Nat := max 10 (min 60000 (fld s Reg.DET_GS_TIMING 31 16))
def gsT1 (s : State) : Nat := max 1 (min (gsT0 s) (fld s Reg.DET_GS_TIMING 15 0))

/-- One octet string: up to the first zero octet (R304). -/
def gsString (s : State) (i : Nat) : List Nat :=
  let bs := ((List.range 16).map (fun j => leBytes 4 (getN s Win.DET_GS_STR (2 * i + j / 8) (j % 8)))).flatten
  bs.takeWhile (fun b => b != 0)

/-- The 802.1Q tag of a message, TPID 0x8100 with PCP and VID, or 0 where it carries none (R304). -/
def gooseTag (s : State) : Nat :=
  if bit s Reg.DET_GS_CFG 29 then 0x81000000 + fld s Reg.DET_GS_CFG 28 26 * 2 ^ 13 + fld s Reg.DET_GS_CFG 11 0 else 0

/-- Content of a message: tag, APPID, Reserved1, destination, the strings, t and its quality, stNum, sqNum, confRev, timeAllowedtoLive, the data.
The fraction of t is rounded either way (log 8). -/
def gooseBody (s : State) : List Nat :=
  let t := s.det.gsT
  let frac := t % 1000000000 * 2 ^ 24 / 1000000000 + Config.ulp 25 [t] % 2
  let sec := t / 1000000000 + frac / 2 ^ 24
  [gooseTag s, fld s Reg.DET_GS_APPID 15 0, 0x8000 * b2n (bit s Reg.DET_GS_CFG 30), rd s Reg.DET_GS_DST_LO, rd s Reg.DET_GS_DST_HI]
    ++ gsString s 0 ++ [0] ++ gsString s 1 ++ [0] ++ gsString s 2 ++ [0]
    ++ [utcOf s sec, frac % 2 ^ 24, timeQuality s, rd s Reg.DET_GS_STNUM, rd s Reg.DET_GS_SQNUM,
      rd s Reg.DET_GS_CONFREV, 2 * s.det.gsIvl, 17, gooseData s]

/-- Bytes of a message on the wire, a redundancy control trailer apart. -/
def gooseBytes (s : State) (body : List Nat) : Nat := Config.encSize 1 body + (if bit s Reg.DET_GS_CFG 29 then 4 else 0)

/-- The headers of a GOOSE message: destination and 802.1Q tag of DET_GS_CFG (R304). -/
def gooseHead (s : State) : EthHead :=
  { EthHead.bare with
    src := if s.sys.twinMode = 0 then none else some (rd s Reg.TWN_MAC_LO + fld s Reg.TWN_MAC_HI 15 0 * 2 ^ 32)
    dst := some (rd s Reg.DET_GS_DST_LO + rd s Reg.DET_GS_DST_HI * 2 ^ 32)
    tag := if bit s Reg.DET_GS_CFG 29 then some (fld s Reg.DET_GS_CFG 28 26, fld s Reg.DET_GS_CFG 11 0) else none }

/-- Send one message on the configured ports (R304, R307); its PRP sequence number, which no rule gives, is a free value (log 22). -/
def gooseSend (s : State) : State :=
  let body := gooseBody s
  let f : TxFrame := ⟨4, 0, newestOr s, 0, none, (0, 0), gooseBytes s body, body, gooseHead s⟩
  let (s, q) := fresh s 65536
  let (s, n, _) := sendCopies s (fld s Reg.DET_GS_CFG 25 22) q f
  { addC s Reg.DET_GS_SENT n with det := { s.det with gsAt := s.cycle } }

/-- A 32-bit GOOSE number counts on: 0xFFFF_FFFF is followed by 1. -/
def gsNext (n : Nat) : Nat := if n = 2 ^ 32 - 1 then 1 else n + 1

/-- A state change: stNum counts, and its first message goes out (R306). -/
def gooseChange (s : State) (d : Nat) : State :=
  let g := s.det
  let n := if g.gsDs = none then 1 else gsNext (rd s Reg.DET_GS_STNUM)
  let t := gooseSend { wr (wr s Reg.DET_GS_STNUM n) Reg.DET_GS_SQNUM 0 with det := { g with gsDs := some d, gsT := nowNs s, gsIvl := gsT1 s } }
  { t with cyc := { t.cyc with goose := some ⟨g.gsDs, rd s Reg.DET_GS_STNUM, rd s Reg.DET_GS_SQNUM, g.gsT, g.gsAt, g.gsIvl,
      rd t Reg.DET_GS_SENT - rd s Reg.DET_GS_SENT, gooseBody t⟩ } }

/-- The data set changes again in the cycle of a state change: the two are one (R306). The message, still queued, carries the later value; where
that is the value before the cycle there is no state change, and the message is taken back. -/
def gooseAgain (s : State) (w : GsWas) (d : Nat) : State :=
  let mine (f : TxFrame) : Bool := f.kind == 4 && f.body == w.body
  if w.ds = some d then
    let s := wr (wr (subC s Reg.DET_GS_SENT w.sent) Reg.DET_GS_STNUM w.stNum) Reg.DET_GS_SQNUM w.sqNum
    { s with
      out := { s.out with tx := s.out.tx.map (fun q => q.filter (fun f => !mine f)) }
      det := { s.det with gsDs := w.ds, gsT := w.t, gsAt := w.at_, gsIvl := w.ivl }
      cyc := { s.cyc with goose := none } }
  else
    let s := { s with det := { s.det with gsDs := some d } }
    let body := gooseBody s
    let size (f : TxFrame) : Nat := f.size - gooseBytes s w.body + gooseBytes s body
    { s with
      out := { s.out with tx := s.out.tx.map (fun q => q.map (fun f => if mine f then { f with body := body, size := size f } else f)) }
      cyc := { s.cyc with goose := some { w with body := body } } }

/-- A change of the data set is one state change (R306); the first message after GOOSE is enabled carries stNum 1. Outside the modes that
permit GOOSE stNum and sqNum are held (R307). -/
def gooseCheck (s : State) : State :=
  if !bit s Reg.DET_GS_CFG 31 || gated s Reg.DET_GS_CFG then { s with det := { s.det with gsDs := none }, cyc := { s.cyc with goose := none } }
  else if !runsAlarms (mode s) then s
  else
    let d := gooseData s
    if s.det.gsDs = some d then s
    else match s.cyc.goose with
      | some w => gooseAgain s w d
      | none => gooseChange s d

/-- A write of DET_GS_CFG: while EN is 1 it changes only EN. -/
def gsCfgWrite (s : State) (v : Nat) : State :=
  gooseCheck (if bit s Reg.DET_GS_CFG 31 then setF s Reg.DET_GS_CFG 31 31 (v / 2 ^ 31) else wr s Reg.DET_GS_CFG (v / 2 ^ 22 * 2 ^ 22 + v % 4096))

/-- GOOSE_RETRANSMIT (R306): an interval after the last send without a state change the message is repeated with sqNum + 1. -/
def execGooseRetransmit (s : State) : Out :=
  if !bit s Reg.DET_GS_CFG 31 || gated s Reg.DET_GS_CFG || !runsAlarms (mode s) || s.det.gsDs.isNone then .next s
  else
    let s := passCyc s (s.det.gsAt + s.det.gsIvl * 500000)
    let s := wr s Reg.DET_GS_SQNUM (gsNext (rd s Reg.DET_GS_SQNUM))
    .next (gooseSend { s with det := { s.det with gsIvl := min (2 * s.det.gsIvl) (gsT0 s) } })

/-! Latches (R299 to R302). -/

/-- The source record of an assertion: TYPE, POINT, ID_A, ID_B. -/
def almSrc (ty point a b : Nat) : Nat := ty * 2 ^ 30 + point % 4 * 2 ^ 28 + a % 4096 * 2 ^ 12 + b % 4096

/-- The place of a source in the order of R300. -/
def almRank (src : Nat) : Nat := if src / 2 ^ 30 = 2 then 0 else if src / 2 ^ 30 = 1 then 1 + bits src 23 12 else 200 + bits src 23 12

/-- The source record of a line (R300). -/
def almRecord (s : State) (line src epoch : Nat) : State :=
  let s := setB s Reg.DET_ALM_STATE (16 + line) (bits src 29 28 == 0)
  let s := wr (wr s (Reg.DET_ALM_SRC line) src) (Reg.DET_ALM_EPOCH line) epoch
  { s with
    det := { s.det with almEpoch := Tab.set (fun _ => 0) s.det.almEpoch line epoch }
    cyc := { s.cyc with lines := Tab.put s.cyc.lines line (almRank src) } }

/-- Payload of a latch's Drill Log record. -/
def almPayload (line src epoch : Nat) : List Nat := [line] ++ leBytes 4 src ++ leBytes 8 epoch

/-- A line latches (R299, R302). -/
def latchLine (s : State) (line src epoch : Nat) : State :=
  let prov := bits src 29 28 == 0
  let s := inc (almRecord (setB s Reg.DET_ALM_STATE line true) line src epoch) Reg.DET_ALM_LATCHES
  let s := logAt s (nowNs s) 0x0050 prov (almPayload line src epoch)
  (pushItem s 0 ⟨0, 0, if prov then some epoch else none, 0x0050, 3, nowNs s, [line, src, epoch]⟩).1

/-- A source that goes before the one that has latched the line in this cycle takes its place: in the source record, and in the Drill Log record and
the chute item of the latch (R300, R302). -/
def relatchLine (s : State) (line src epoch : Nat) : State :=
  let was := (rd s (Reg.DET_ALM_SRC line), Tab.get (fun _ => 0) s.det.almEpoch line)
  let prov := b2n (bits src 29 28 == 0)
  let log (r : LogRec) : LogRec :=
    if r.code = 0x0050 ∧ r.payload = almPayload line was.1 was.2 then
      { r with payload := almPayload line src epoch, rflags := r.rflags / 2 * 2 + prov } else r
  let item (i : Item) : Item :=
    match i.words with
    | h :: q :: t :: w =>
      if bits h 31 16 = 0x0050 ∧ w = [line, was.1, was.2] then { i with words := putBits h 51 51 prov :: q :: t :: [line, src, epoch] } else i
    | _ => i
  let c := chuteOf s 0
  almRecord { s with
    nvs := { s.nvs with queue := s.nvs.queue.map log }
    chutes := s.chutes.set 0 { c with
      items := c.items.map item
      coming := c.coming.map (fun e => { e with item := item e.item })
      behind := c.behind.map (fun e => { e with item := item e.item }) } } line src epoch

/-- An assertion for a line reaches the alarm block from an evaluation point of a blank (R299, R300). Of several that latch a line in one cycle, those
that the source record does not name count as neither latch nor repeat (log 145). -/
def assertLine (s : State) (line src epoch : Nat) : State :=
  let point := bits src 29 28
  let s := if point = 0 then onBlank s epoch (fun b => { b with provAlarm := true }) else s
  let recent := s.twn.asserts.filter (fun a => decide (epoch < a.2.2 + 32))
  let s := if s.sys.twinMode = 0 then s else { s with twn := { s.twn with asserts := recent ++ [(line, src, epoch)] } }
  if !bitOf (almEn s) line then inc s Reg.DET_ALM_DISABLED
  else if !bit s Reg.DET_ALM_STATE line then gooseCheck (alarmPins (latchLine s line src epoch))
  else if Tab.has s.cyc.lines line then
    (if almRank src < Tab.get (fun _ => 0) s.cyc.lines line then relatchLine s line src epoch else s)
  else
    let was := Tab.get (fun _ => []) s.cyc.asserted line
    inc { s with cyc := { s.cyc with asserted := Tab.put s.cyc.asserted line (was ++ [(src, epoch)]) } } Reg.DET_ALM_REPEAT

/-- A kernel's alarm request (07 R231). -/
def kernelAlarm (s : State) (v : Inv) (line : Nat) : State := if v.quiet then s else assertLine s line (almSrc 3 v.point v.entry 0) v.epoch

/-- The assertion that the source record is to name, of several (R300). -/
def almFirst (l : List (Nat × Nat)) : Option (Nat × Nat) :=
  l.foldl (fun o a => match o with | some b => if almRank a.1 < almRank b.1 then some a else o | none => some a) none

/-- One line is acknowledged (R301, R302). A line that has latched in this very cycle stays so; an assertion of this cycle that found the line
latched latches it again, and is no repeat. -/
def ackLine (s : State) (n : Nat) : State :=
  if !bit s Reg.DET_ALM_STATE n || Tab.has s.cyc.lines n then s
  else
    let s := logRec (setB (setB s Reg.DET_ALM_STATE n false) Reg.DET_ALM_STATE (16 + n) false) 0x0051
      (almPayload n (rd s (Reg.DET_ALM_SRC n)) (Tab.get (fun _ => 0) s.det.almEpoch n))
    let l := Tab.get (fun _ => []) s.cyc.asserted n
    match almFirst l with
    | some a => latchLine (subC s Reg.DET_ALM_REPEAT l.length) n a.1 a.2
    | none => s

/-- A write of DET_ALM_ACK (R301, R302). -/
def alarmAckWrite (s : State) (v : Nat) : State :=
  gooseCheck (alarmPins ((List.range 16).foldl (fun s n => if bitOf v n then ackLine s n else s) s))

/-- A write of DET_ALM_CFG: assertions take it from the next cycle on (R303). -/
def almCfgWrite (s : State) (v : Nat) : State :=
  let was := s.cyc.almCfg.getD (rd s Reg.DET_ALM_CFG)
  gooseCheck (alarmPins (wr { s with cyc := { s.cyc with almCfg := some was } } Reg.DET_ALM_CFG v))

/-- ALARM_ACK (R301). -/
def execAlarmAck (v : Word) (s : State) : Out := .next (ungated s Reg.DET_ALM_ACK fun s => alarmAckWrite s v.toNat)

end Sys2Proof.Machine
end

