-- ==== Sys2Proof/Machine/Detect.lean ====
section
/-! DEFINITION. Oscillation and island detection (09_detectors_alarms.md R280 to R298). -/

namespace Sys2Proof.Machine

/-! Configuration. -/

/-- A field of word `j` of oscillation unit `u`. -/
def oscF (c : Tab Word) (u j hi lo : Nat) : Nat := bits (getC c Win.DET_OSC u j) hi lo
def oscEn (c : Tab Word) (u : Nat) : Bool := oscF c u 0 31 31 == 1
def oscOrder (c : Tab Word) (u : Nat) : Nat := oscF c u 0 30 26
def oscNsig (c : Tab Word) (u : Nat) : Nat := oscF c u 0 25 16
def oscHold (c : Tab Word) (u : Nat) : Nat := oscF c u 0 15 8
def oscWin (c : Tab Word) (u : Nat) : Nat := oscF c u 1 20 10
/-- Word `j` of band `b` of unit `u`. -/
def bandW (c : Tab Word) (u b j : Nat) : Nat := getC c Win.DET_BAND (u * 16 + b) j
def bandEn (c : Tab Word) (u b : Nat) : Bool := bitOf (bandW c u b 0) 31
/-- Word `j` of signal `i` of unit `u`. -/
def sigW (c : Tab Word) (u i j : Nat) : Nat := getC c Win.DET_SIG (u * 512 + i) j

/-- Is unit `u` (8 the island unit) configured, in service and powered? (R280; 02 R74) -/
def detRuns (s : State) (c : Tab Word) (u : Nat) : Bool :=
  !bitOf s.sys.oosUnit u &&
    (if u < 8 then oscEn c u && domOn s (14 + u) else bitOf (getC c Reg.DET_ISL_CFG 0 0) 31 && domOn s 22)

def oscOf (s : State) (u : Nat) : OscU := s.det.osc.getD u OscU.reset
def setOsc (s : State) (u : Nat) (o : OscU) : State := { s with det := { s.det with osc := s.det.osc.set u o } }

/-- The initial adaptive state (R293); outcome records and the last sealed values stay. -/
def oscInit (c : Tab Word) (u : Nat) (o : OscU) : OscU :=
  let p := oscOrder c u
  let pm := (List.range (p * p)).map (fun i => if i / p = i % p then getC c Win.DET_OSC u 3 else 0)
  { o with a := List.replicate p 0, pm := pm, mu := [], nf := getC c Win.DET_OSC u 4, ys := [], steps := 0, everyRun := 0, hist := [] }

/-- Is the unit warming up? (R293) -/
def oscWarm (c : Tab Word) (u : Nat) (o : OscU) : Bool := decide (o.steps < max (oscWin c u) (4 * oscOrder c u))

/-! Recursive least squares (R287), once for points and for intervals (R288). -/

/-- The arithmetic of a track. -/
structure Arith (α : Type) where
  add : α → α → α
  sub : α → α → α
  mul : α → α → α
  div : α → α → α
  pt : Nat → α

/-- Points in binary32; each result may be its neighbour, for no rule gives the rounding of the track (log 21). -/
def ptArith : Arith Nat where
  add x y := ulp1 30 [x, y] (fadd f32 .near x y)
  sub x y := ulp1 31 [x, y] (fsub f32 .near x y)
  mul x y := ulp1 32 [x, y] (fmul f32 .near x y)
  div x y := ulp1 33 [x, y] (fdiv f32 .near x y)
  pt x := x

/-- Intervals under R249. -/
def ivArith : Arith VEl where
  add := lift2 elRadd
  sub := lift2 elRsub
  mul := lift2 elRmul
  div := lift2 elRdiv
  pt := elFromf

/-- A dot product, in rising order. -/
def Arith.dot {α : Type} (r : Arith α) (x y : List α) : α := (x.zip y).foldl (fun s p => r.add s (r.mul p.1 p.2)) (r.pt 0)

/-- A model: coefficients and the matrix Pm, row by row. -/
structure Rls (α : Type) where
  a : List α
  pm : List α

/-- One step of the update; answers the prediction error too. -/
def Arith.step {α : Type} (r : Arith α) (lam : Nat) (m : Rls α) (phi : List α) (y : α) : Rls α × α :=
  let p := phi.length
  let rows := (List.range p).map (fun i => (m.pm.drop (i * p)).take p)
  let pphi := rows.map (fun row => r.dot row phi)
  let den := r.add (r.pt lam) (r.dot phi pphi)
  let g := pphi.map (fun x => r.div x den)
  let e := r.sub y (r.dot m.a phi)
  let phiP := (List.range p).map (fun j => r.dot phi (rows.map (fun row => row.getD j (r.pt 0))))
  let a := (m.a.zip g).map (fun (x, gi) => r.add x (r.mul gi e))
  let pm := ((rows.zip g).map (fun (row, gi) => (row.zip phiP).map (fun (x, q) => r.div (r.sub x (r.mul gi q)) (r.pt lam)))).flatten
  (⟨a, pm⟩, e)

/-! Signals and the driving sample (R285, R286). -/

/-- The interval of a signal in blank `k`. -/
def sigEl (s : State) (c : Tab Word) (u k i : Nat) : VEl :=
  let w := sigW c u i 0
  let x := gatherEl s k (bits w 17 0)
  match bits w 31 30 with
  | 0 => lift1 elAbs x
  | 1 => lift2 elArgd x (gatherEl s k (oscF c u 7 17 0))
  | _ => lift1 elRe x

/-- The signals of a unit in blank `k`. -/
def sigEls (s : State) (c : Tab Word) (u k : Nat) : List VEl := (List.range (oscNsig c u)).map (sigEl s c u k)

/-- The driving sample of a list of signal intervals. -/
def driving (c : Tab Word) (u : Nat) (o : OscU) (xs : List VEl) : VEl :=
  xs.zipIdx.foldl (fun y (x, i) =>
    let w := sigW c u i 1
    if fabs f32 w = 0 then y
    else ivArith.add y (ivArith.mul (elFromf w) (ivArith.sub x (elFromf (Tab.get (fun _ => 0) o.mu i))))) (elFromf 0)

/-! Modes and bands (R289, R290). -/

/-- 2 π as an interval. -/
def twoPi : VEl := ⟨0x40C90FDB, 0, 0x34800000⟩

/-- The natural logarithm of a positive interval. -/
def elLn (x : VEl) : VEl :=
  match x.lo, x.hi with
  | .num l, .num h => if l.m ≤ 0 then .every else rPat (outDown 150 [x.re, x.env] (fxLn l)) (outUp 151 [x.re, x.env] (fxLn h))
  | _, _ => .every

/-- A disc of the root enclosure as frequency and damping intervals, and whether it is certain to hold one root with Im z > 0. -/
structure Root where
  f : VEl
  z : VEl
  sure : Bool

/-- An exact complex number. -/
abbrev CDy := Dy × Dy
def CDy.mul (a b : CDy) : CDy := ((a.1.mul b.1).sub (a.2.mul b.2), (a.1.mul b.2).add (a.2.mul b.1))
def CDy.sub (a b : CDy) : CDy := (a.1.sub b.1, a.2.sub b.2)
/-- The square of a modulus. -/
def CDy.sq (a : CDy) : Dy := (a.1.mul a.1).add (a.2.mul a.2)
def cdy (z : Nat × Nat) : CDy := (dyOf f32 z.1, dyOf f32 z.2)

/-- The disc about approximation `i`, of radius P |p(z_i) / Π (z_i − z_j)|: together such discs hold every root of every polynomial that the
coefficient intervals admit, and one apart from the others holds exactly one. p(z) = z^P − Σ a_j z^(P−j). -/
def rootDisc (a : List VEl) (zs : List (Nat × Nat)) (i : Nat) : VEl :=
  let w := zs.getD i (0, 0)
  let z := cdy w
  let p := a.foldl (fun v x => CDy.sub (CDy.mul v z) (dyOf f32 x.re, Dy.ofInt 0)) (Dy.ofInt 1, Dy.ofInt 0)
  let m := dyOf f32 (sqrtRnd f32 .up (CDy.sq z))
  let e := a.foldl (fun t x => (t.mul m).add (dyOf f32 x.env)) (Dy.ofInt 0)
  let q := zs.zipIdx.foldl (fun t (y, j) => if j = i then t else CDy.mul t (CDy.sub z (cdy y))) (Dy.ofInt 1, Dy.ofInt 0)
  let num := addU (sqrtRnd f32 .up (CDy.sq p)) (e.pack f32 .up)
  mkEl w.1 w.2 (mulU (fofInt f32 a.length) (fdiv f32 .up num (sqrtRnd f32 .down (CDy.sq q))))

/-- Do two discs have a point in common? One that stands for every value has. -/
def discsMeet (a b : VEl) : Bool :=
  let r := (dyOf f32 a.env).add (dyOf f32 b.env)
  a.isEvery || b.isEvery || (CDy.sq (CDy.sub (cdy (a.re, a.im)) (cdy (b.re, b.im)))).le (r.mul r)

/-- Frequency and damping of the roots above the real axis in a disc, at a blank rate. -/
def rootOf (rate : Nat) (sure : Bool) (d : VEl) : Root :=
  let ang := lift1 elArg d
  let ln := lift1 elLn (lift1 elAbs d)
  let sq (x : VEl) : VEl := let y := lift1 elRabs x; ivArith.mul y y
  ⟨ivArith.div (ivArith.mul ang (elFromi rate)) twoPi,
   ivArith.div (lift1 (fun x => ⟨fneg f32 x.re, 0, x.env⟩) ln) (lift1 elRsqrt (ivArith.add (sq ln) (sq ang))), sure⟩

/-- The roots of a model with Im z > 0, each in a disc (R289). No disc where a coefficient stands for every value. A disc about a real number,
apart from the others, holds a real root. One that reaches across the real axis stands for its part above: it is mirrored up. -/
def rootsOf (rate : Nat) (a : List VEl) : List Root :=
  let zs := Config.roots (a.map (fun x => (x.re, x.env)))
  if a.any VEl.isEvery then []
  else if zs.length ≠ a.length then [⟨.every, .every, false⟩]
  else
    let ds := (List.range zs.length).map (rootDisc a zs)
    ds.zipIdx.filterMap (fun (d, i) =>
      let alone := !ds.zipIdx.any (fun (e, j) => j != i && discsMeet d e)
      let im := dyOf f32 d.im
      let r := dyOf f32 d.env
      if d.isEvery then some ⟨.every, .every, false⟩
      else if (im.add r).m ≤ 0 ∨ (alone ∧ im.m = 0) then none
      else some (rootOf rate (alone && decide (0 < (im.sub r).m)) ⟨d.re, fabs f32 d.im, d.env⟩))

def Root.inside (r : Root) (lo hi : Bnd) : Bool := r.sure && !r.f.isEvery && lo.le r.f.lo && r.f.hi.le hi
def Root.touches (r : Root) (lo hi : Bnd) : Bool := r.f.isEvery || (r.f.lo.le hi && lo.le r.f.hi)

/-- The least-damped inside root. -/
def leastDamped (rs : List Root) (lo hi : Bnd) : Option Root :=
  (rs.filter (fun r => r.inside lo hi)).foldl (fun o r => match o with
    | none => some r
    | some q => if flt f32 r.z.re q.z.re then some r else some q) none

/-- The bounds of the damping interval of a band; none where it is EVERY (R289). -/
def bandZeta (rs : List Root) (lo hi : Bnd) : Option (Bnd × Bnd) :=
  let t := rs.filter (fun r => r.touches lo hi)
  if t.isEmpty || t.any (fun r => r.z.isEvery) then none
  else
    let l := t.foldl (fun b r => b.min r.z.lo) .pinf
    let h := (t.filter (fun r => r.inside lo hi)).foldl (fun b r => b.min r.z.hi) .pinf
    some (l, h)

/-- The frequency at which a band's amplitude is taken (R290). -/
def bandFreq (c : Tab Word) (u b : Nat) (rs : List Root) : Nat :=
  let lo := bandW c u b 1
  let hi := bandW c u b 2
  match leastDamped rs (Bnd.of lo) (Bnd.of hi) with
  | some r => r.f.re
  | none => fmul f32 .near 0x3F000000 (fadd f32 .near lo hi)

/-- The amplitude interval over the newest samples, newest first (R290). -/
def amplitude (rate win f : Nat) (ys : List VEl) : VEl :=
  let ws := ys.take win
  if ws.any VEl.isEvery then .every
  else
    let sum := ws.zipIdx.foldl (fun t (y, n) =>
      let ang := ivArith.div (ivArith.mul twoPi (ivArith.mul (elFromf f) (elFromi n))) (elFromi rate)
      lift2 elAdd t (lift2 elRot ⟨y.re, 0, y.env⟩ ang)) (⟨0, 0, 0⟩ : VEl)
    ivArith.mul (ivArith.div (elFromi 2) (elFromi win)) (lift1 elAbs sum)

/-- The alarm condition of a band (R291). -/
def bandCond (c : Tab Word) (u b rate nf : Nat) (rs : List Root) (ys : List VEl) : Nat :=
  let lo := Bnd.of (bandW c u b 1)
  let hi := Bnd.of (bandW c u b 2)
  let th := Bnd.of (getC c Win.DET_OSC u 6)
  let damp := match bandZeta rs lo hi with
    | some (l, h) => kTest (h.lt th) (th.le l)
    | none => kU
  let a := amplitude rate (oscWin c u) (bandFreq c u b rs) ys
  kAnd damp (elCmp 0 a (ivArith.mul (elFromf (getC c Win.DET_OSC u 5)) (elFromf nf)))

/-! Outcome records and runs (R282, R283). -/

/-- The code of an outcome in a record. -/
def outCode (k : Nat) : Nat := if k = kT then 1 else if k = kF then 2 else 3

/-- The run of a record at blank `k`: consecutive ring blanks down from it whose entries read TRUE. -/
def runAt (s : State) (t : Tab Nat) (key : Nat) (k : Nat) : Nat :=
  ((List.range 32).takeWhile (fun i => decide (i ≤ k) && (blankOf s (k - i)).isSome && Tab.get (fun _ => 0) t (key * 32 + (k - i) % 32) == 1)).length

/-- A band's outcome for blank `k` is recorded, and its assertion passed on (R283, R299). -/
def oscOutcome (s : State) (c : Tab Word) (u b k point out : Nat) : State :=
  let o := oscOf s u
  let o := { o with outc := Tab.set (fun _ => 0) o.outc (b * 32 + k % 32) (outCode out), last := Tab.set (fun _ => 0) o.last b (outCode out) }
  let s := setOsc s u o
  if runAt s o.outc b k < max 1 (oscHold c u) then s
  else
    let s := setOsc s u { o with asserts := Tab.set (fun _ => 0) o.asserts b (satAdd 16 (Tab.get (fun _ => 0) o.asserts b) 1) }
    let w := bandW c u b 0
    if bitOf w 30 then assertLine s (bits w 23 20) (almSrc 1 point (u * 16 + b) 0) k else s

/-- Enabled bands of a unit. -/
def bandsOf (c : Tab Word) (u : Nat) : List Nat := (List.range 16).filter (bandEn c u)

/-- The replay from the committed state through blank `k`: the model, and the samples newest first (R288). -/
def replay (c : Tab Word) (u : Nat) (o : OscU) (k : Nat) : Rls VEl × List VEl :=
  let p := o.a.length
  let from_ := match o.c with | some e => e + 1 | none => 0
  let start : Rls VEl × List VEl := (⟨o.a.map elFromf, o.pm.map elFromf⟩, o.ys.map elFromf)
  (o.samp.filter (fun e => decide (from_ ≤ e.1) && decide (e.1 ≤ k))).foldl (fun (m, ys) e =>
    let m := if ys.length < p then m else (ivArith.step (getC c Win.DET_OSC u 2) m (ys.take p) e.2).1
    (m, e.2 :: ys)) start

/-- The evaluation of blank `k` by unit `u` with its driving sample stored: every band's outcome (R286, R288 to R291). -/
def oscJudge (s : State) (c : Tab Word) (u k point : Nat) (y : VEl) : State :=
  let o := oscOf s u
  let (m, ys) := replay c u o k
  let rate := blankRate s
  let rs := rootsOf rate m.a
  let blind := y.isEvery || oscWarm c u o
  (bandsOf c u).foldl (fun s b => oscOutcome s c u b k point (if blind then kU else bandCond c u b rate o.nf rs ys)) s

/-! The committed track (R287, R292, R294). -/

/-- A mode shape: the sliding DFT of each signal's midpoints at a frequency, divided by the one with the largest magnitude (R294). -/
def shapesOf (c : Tab Word) (u b rate f : Nat) (o : OscU) : Tab (Nat × Nat) :=
  let r := ptArith
  let dft (l : List Nat) : Nat × Nat := (l.take (oscWin c u)).zipIdx.foldl (fun (x, y) (v, n) =>
    let a := r.div (r.mul 0x40C90FDB (r.mul f (fofInt f32 n))) (fofInt f32 rate)
    (r.add x (r.mul v (cosF a)), r.add y (r.mul v (sinF a)))) (0, 0)
  let ds := (List.range (oscNsig c u)).map (fun j => dft (Tab.get (fun _ => []) o.hist j))
  let big := ds.foldl (fun (m : Nat × Nat) d => if flt f32 (modF .near m.1 m.2) (modF .near d.1 d.2) then d else m) (0, 0)
  let d2 := r.add (r.mul big.1 big.1) (r.mul big.2 big.2)
  ds.zipIdx.foldl (fun t (d, j) =>
    let z := cMul d.1 d.2 big.1 (fneg f32 big.2)
    Tab.set (fun _ => (0, 0)) t (b * 512 + j) (r.div z.1 d2, r.div z.2 d2)) o.shapes

/-- The outputs of a band after a committed step. -/
def modeOut (s : State) (c : Tab Word) (u k : Nat) (rs : List Root) (o : OscU) (b : Nat) : OscU :=
  let rate := blankRate s
  let old := Tab.get (fun _ => ⟨0, 0, 0, 0, 0, true⟩) o.modes b
  match leastDamped rs (Bnd.of (bandW c u b 1)) (Bnd.of (bandW c u b 2)) with
  | none => { o with modes := Tab.put o.modes b { old with stale := true } }
  | some r =>
    let a := amplitude rate (oscWin c u) r.f.re (o.ys.map elFromf)
    { o with modes := Tab.put o.modes b ⟨r.f.re, r.z.re, a.re, o.nf, k % 2 ^ 32, false⟩, shapes := shapesOf c u b rate r.f.re o }

/-- The committed-track step for blank `k` with its sealed signals. -/
def oscStep (s : State) (u k : Nat) (xs : List VEl) : State :=
  let c := confOf s k
  let o := oscOf s u
  let r := ptArith
  let held := (xs.zipIdx.filter (fun (x, i) => x.isEvery && Tab.has o.held i)).length
  let s := addC s Reg.DET_OSC_HELD held
  let xs' := xs.zipIdx.map (fun (x, i) => if x.isEvery && Tab.has o.held i then elFromf (Tab.get (fun _ => 0) o.held i) else x)
  let y0 := Tab.get (fun _ => VEl.every) o.samp k
  let y := if y0.isEvery then driving c u o xs' else y0
  let p := o.a.length
  let m : Rls Nat := ⟨o.a, o.pm⟩
  let phi := o.ys.take p
  let ready := !y.isEvery && decide (p ≤ o.ys.length) && !phi.any (isNaN f32)
  let (m, e) := if ready then r.step (getC c Win.DET_OSC u 2) m phi y.re else (m, 0)
  let frozen := (bandsOf c u).any (fun b => Tab.get (fun _ => 0) o.outc (b * 32 + k % 32) == 1)
  let s := if ready && frozen then inc s Reg.DET_OSC_NF_FROZEN else s
  let shift (n x : Nat) : Nat := r.div x (fofInt f32 (2 ^ n : Nat))
  let nf := if ready && !frozen then r.add o.nf (shift (oscF c u 0 7 4) (r.sub (fabs f32 e) o.nf)) else o.nf
  let mu := xs'.zipIdx.foldl (fun t (x, i) =>
    if x.isEvery then t
    else let v := Tab.get (fun _ => 0) t i
         Tab.set (fun _ => 0) t i (r.add v (shift (oscF c u 0 3 0) (r.sub x.re v)))) o.mu
  let o : OscU := { o with
    a := m.a, pm := m.pm, nf := nf, mu := mu
    ys := ((if y.isEvery then f32.nan else y.re) :: o.ys).take (oscWin c u + p)
    held := xs.zipIdx.foldl (fun t (x, i) => if x.isEvery then t else Tab.put t i x.re) o.held
    hist := xs'.zipIdx.foldl (fun t (x, i) =>
      Tab.put t i (((if x.isEvery then f32.nan else x.re) :: Tab.get (fun _ => []) t i).take (oscWin c u))) o.hist
    steps := o.steps + 1
    everyRun := if y.isEvery then o.everyRun + 1 else 0
    c := some k
    samp := o.samp.filter (fun e => decide (k < e.1))
    seals := o.seals.filter (fun e => decide (k < e.1)) }
  let o := if 8 ≤ o.everyRun then oscInit c u o else o
  let rs := rootsOf (blankRate s) (o.a.map elFromf)
  setOsc s u ((bandsOf c u).foldl (modeOut s c u k rs) o)

/-- Is an evaluation that is due the unit's at the seal point? -/
def sealOf (u : Nat) (d : Nat × Nat × Nat) : Bool := d.1 == u && d.2.1 == 1

/-- The next blank that the committed track may take: the oldest sealed one with no blank before it in the ring unsealed or still to be
evaluated at its seal. -/
def nextCommit (s : State) (u : Nat) : Option (Nat × List VEl) :=
  match (oscOf s u).seals with
  | [] => none
  | (k, xs) :: _ =>
    let blocked := s.aln.ring.any (fun o => match o with
      | some b => decide (b.epoch < k) && (decide (b.state < 3) || b.dets.any (sealOf u))
      | none => false)
    if blocked then none else some (k, xs)

/-- Take every step that is due; at most one for each ring slot and the blank just retired. -/
def commitSteps (s : State) (u : Nat) : Nat → State
  | 0 => s
  | n + 1 =>
    match nextCommit s u with
    | some (k, xs) => commitSteps (oscStep s u k xs) u n
    | none => s

/-- The sealed content of blank `k` is stored for the committed track, with the driving sample. -/
def oscSeal (s : State) (u k : Nat) (xs : List VEl) (y : VEl) : State :=
  let o := oscOf s u
  let late := match o.c with | some e => decide (k ≤ e) | none => false
  if late then s else setOsc s u { o with seals := Tab.put o.seals k xs, samp := Tab.put o.samp k y }

/-- The acknowledge bit of a unit out of service is set once no evaluation of it is left (02 R74). -/
def unitAck (s : State) : State :=
  (List.range 9).foldl (fun s u =>
    let busy := s.aln.ring.any (fun o => match o with | some b => b.dets.any (fun d => d.1 == u) | none => false)
    if bitOf s.sys.oosUnit u && !busy && !bit s Reg.SYS_OOS_ACK_UNIT u then govSettle (setB s Reg.SYS_OOS_ACK_UNIT u true) else s) s

/-- An evaluation of a unit leaves a blank's list. -/
def dropDet (s : State) (k : Nat) (d : Nat × Nat × Nat) : State := unitAck (onBlank s k (fun b => { b with dets := b.dets.erase d }))

/-- Does an evaluation, of an epoch index, go before another in a unit's queue: by the cycle of its point, provisional and seal points first, by
epoch index (R281)? -/
def detBefore (a b : Nat × Nat × Nat × Nat) : Bool :=
  let g (x : Nat × Nat × Nat × Nat) : Nat := if x.2.2.1 = 2 then 1 else 0
  if a.2.2.2 ≠ b.2.2.2 then decide (a.2.2.2 < b.2.2.2) else if g a ≠ g b then decide (g a < g b) else decide (a.1 < b.1)

/-- The evaluation at the front of a unit's queue: its epoch index, and the evaluation. -/
def detNext (s : State) (u : Nat) : Option (Nat × Nat × Nat × Nat) :=
  let all := (s.aln.ring.map (fun o => match o with
    | some b => (b.dets.filter (fun d => d.1 == u)).map (fun d => (b.epoch, d))
    | none => [])).flatten
  all.foldl (fun o x => match o with | some y => if detBefore x y then some x else o | none => some x) none

/-- An oscillation unit evaluates a blank at a provisional or seal point (R285 to R291). -/
def oscEval (s : State) (u k p : Nat) : State :=
  let c := confOf s k
  let xs := sigEls s c u k
  let o := oscOf s u
  let y := driving c u o xs
  let s := if p = 1 then oscSeal s u k xs y else setOsc s u { o with samp := Tab.put o.samp k y }
  let s := inc (oscJudge s c u k p y) Reg.DET_OSC_EVALS
  if p = 1 then commitSteps s u 33 else s

/-- OSC_EVALUATION (R280, R281): the evaluation at the front of the unit's queue, where it is one of this blank; no other may run before it. -/
def execOscEvaluation (unit : Fin 8) (epoch : Nat) (s : State) : Out :=
  match detNext s unit.val with
  | none => .next s
  | some (k, d) => .next (if k = epoch then oscEval (dropDet s k d) unit.val k d.2.1 else s)

/-- A blank that is retired during its seal evaluation still takes its committed-track step (R284). -/
def oscRetire (s : State) (b : Blank) : State :=
  (List.range 8).foldl (fun s u =>
    match b.dets.find? (sealOf u) with
    | some d =>
      let c := confOf s b.epoch
      let xs := sigEls s c u b.epoch
      let s := oscSeal s u b.epoch xs (driving c u (oscOf s u) xs)
      commitSteps (dropDet s b.epoch d) u 33
    | none => s) s

/-! The island unit (R295 to R298). -/

/-- Members of a group: phasor slot and weight. -/
def members (c : Tab Word) (g : Nat) : List (Nat × Nat) :=
  let n := bits (getC c Win.DET_GRP g 0) 15 8
  (List.range (if n = 0 then 256 else n)).map (fun m => (bits (getC c Win.DET_MEM (g * 256 + m) 0) 17 0, getC c Win.DET_MEM (g * 256 + m) 1))

/-- A weighted average over the members present; EVERY where too little weight is present (R295). -/
def groupAvg (minW : Nat) (xs : List (VEl × Nat)) : VEl :=
  let sum (l : List (VEl × Nat)) : Dy := l.foldl (fun d x => if isFin f32 x.2 then d.add (dyOf f32 x.2) else d) (Dy.ofInt 0)
  let here := xs.filter (fun x => !x.1.isEvery)
  if here.isEmpty || ((sum here).mul (Dy.ofInt 100)).lt ((sum xs).mul (Dy.ofInt minW)) then .every
  else
    let num := here.foldl (fun t x => ivArith.add t (ivArith.mul (elFromf x.2) x.1)) (elFromf 0)
    let den := here.foldl (fun t x => ivArith.add t (elFromf x.2)) (elFromf 0)
    ivArith.div num den

/-- Frequency and angle of a group in blank `k`. -/
def groupVals (s : State) (c : Tab Word) (k g : Nat) : VEl × VEl :=
  let minW := bits (getC c Win.DET_GRP g 0) 6 0
  let ref := bits (getC c Reg.DET_ISL_CFG 0 0) 17 0
  let ms := members c g
  (groupAvg minW (ms.map (fun m => (lift1 elRe (gatherEl s k (chFr + dirStream c m.1)), m.2))),
   groupAvg minW (ms.map (fun m => (lift2 elArgd (gatherEl s k m.1) (gatherEl s k ref), m.2))))

/-- The divergence condition of two groups (R296). -/
def divergence (c : Tab Word) (a b : VEl × VEl) : Nat :=
  let test (x y : VEl) (th : Nat) : Nat := elCmp 0 (lift1 elRabs (ivArith.sub x y)) (elFromf th)
  let f := test a.1 b.1 (getC c Reg.DET_ISL_FTH 0 0)
  let t := test a.2 b.2 (getC c Reg.DET_ISL_ATH 0 0)
  match bits (getC c Reg.DET_ISL_CFG 0 0) 29 28 with
  | 0 => f
  | 1 => t
  | 2 => kOr f t
  | _ => kAnd f t

/-- The runs of a pair that have made their item, by their newest asserted blanks, once the outcome for blank `k` is recorded: one whose run, counted
at that blank, falls short of the hold count by it has ended, and one whose blank has left the ring can be met no more. -/
def islRuns (s : State) (hold k out : Nat) (l : List Nat) : List Nat :=
  l.filter (fun e => (blankOf s e).isSome && (out == kT || !(decide (k ≤ e) && decide (e < k + hold))))

/-- The outcome of a pair for blank `k` is recorded, and its assertion passed on (R297): one item for each run. -/
def islOutcome (s : State) (c : Tab Word) (a b k point out : Nat) : State :=
  let key := a * 64 + b
  let isl := Tab.set (fun _ => 0) s.det.isl (key * 32 + k % 32) (outCode out)
  let hold := max 1 (getC c Reg.DET_ISL_N 0 0 % 256)
  let runs := islRuns s hold k out (Tab.get (fun _ => []) s.det.islItem key)
  let s := { s with det := { s.det with isl := isl, islItem := Tab.set (fun _ => []) s.det.islItem key runs } }
  if runAt s isl key k < hold then s
  else
    let w := getC c Reg.DET_ISL_CFG 0 0
    let s := if bitOf w 30 then assertLine s (bits w 25 22) (almSrc 2 point a b) k else s
    let same (e : Nat) : Bool := if e ≤ k then decide (k - e < runAt s isl key k) else decide (e - k < runAt s isl key e)
    let newest := (runs.filter same).foldl max k
    let s := { s with det := { s.det with islItem := Tab.put s.det.islItem key (newest :: runs.filter (fun e => !same e)) } }
    if runs.any same then s
    else (pushItem s (bits w 27 26) ⟨3, 0, if point = 0 then some k else none, 0x0051, 2, nowNs s, [a + b * 256, k]⟩).1

/-- Enabled groups. -/
def groupsOf (c : Tab Word) : List Nat := (listed c Win.DET_GRP).filter (fun g => bitOf (getC c Win.DET_GRP g 0) 31)

/-- The island unit evaluates a blank (R295 to R297). -/
def islEval (s : State) (k p : Nat) : State :=
  let c := confOf s k
  let gs := (groupsOf c).map (fun g => (g, groupVals s c k g))
  let s := gs.foldl (fun s x => gs.foldl (fun s y =>
    if x.1 < y.1 then islOutcome s c x.1 y.1 k p (divergence c x.2 y.2) else s) s) s
  inc s Reg.DET_ISL_EVALS

/-- ISL_EVALUATION (R280, R281): the evaluation at the front of the island unit's queue, where it is one of this blank; no other may run before it. An
amendment evaluation that could not complete within 90 µs of its point is skipped. -/
def execIslEvaluation (epoch : Nat) (s : State) : Out :=
  match detNext s 8 with
  | none => .next s
  | some (k, d) =>
    if k ≠ epoch then .next s
    else if d.2.1 = 2 ∧ d.2.2 + 30000 < s.cycle then .next (inc (dropDet s k d) Reg.DET_ISL_AMEND_SKIP)
    else .next (islEval (dropDet s k d) k d.2.1)

/-! Openings, commits and returns to service. -/

/-- The entries of a ring slot are cleared when a blank opens in it (R282). -/
def detOpen (s : State) (k : Nat) : State :=
  let clr (t : Tab Nat) : Tab Nat := t.filter (fun p => p.1 % 32 != k % 32)
  { s with det := { s.det with isl := clr s.det.isl, osc := s.det.osc.map (fun o => { o with outc := clr o.outc }) } }

/-- The evaluations that an evaluation point starts: oscillation units at provisional and seal points, the island unit at all (R280). -/
def detsAt (s : State) (c : Tab Word) (point : Nat) : List (Nat × Nat × Nat) :=
  ((List.range 9).filter (fun u => detRuns s c u && (decide (u = 8) || decide (point < 2)))).map (fun u => (u, point, s.cycle))

/-- The island unit's initial adaptive state (R298). -/
def islInit (s : State) : State := { s with det := { s.det with isl := [], islItem := [] } }

/-- An oscillation unit enters its initial adaptive state with no driving sample kept of blanks still in the ring (R293). -/
def oscFresh (c : Tab Word) (u : Nat) (o : OscU) : OscU := { oscInit c u o with samp := [], seals := [] }

/-- A unit returns to service: its initial adaptive state (R293, R298). -/
def detReturn (s : State) (u : Nat) : State := if u < 8 then setOsc s u (oscFresh s.cfg u (oscOf s u)) else islInit s

/-- Do two copies differ in what resets an oscillation unit: EN, ORDER, WIN, REF or a signal entry? (R293) -/
def oscReset (a b : Tab Word) (u : Nat) : Bool :=
  oscEn a u != oscEn b u || oscOrder a u != oscOrder b u || oscWin a u != oscWin b u || oscF a u 7 17 0 != oscF b u 7 17 0
    || (List.range 512).any (fun i => !sameEntry a b Win.DET_SIG (u * 512 + i) 2)

/-- Do two copies differ in an island parameter? (R298) -/
def islChanged (a b : Tab Word) : Bool :=
  let isl (t : Tab Word) : Tab Word := t.filter (fun p =>
    let w := p.1 / 2 ^ 21
    w == Reg.DET_ISL_CFG || w == Reg.DET_ISL_FTH || w == Reg.DET_ISL_ATH || w == Reg.DET_ISL_N || w == Win.DET_GRP || w == Win.DET_MEM)
  isl a != isl b

/-- What a commit does to the detectors: assertion counts restart, and changed units enter their initial state. -/
def detCommit (s : State) (a b : Tab Word) : State :=
  let s := { s with det := { s.det with osc := s.det.osc.map (fun o => { o with asserts := [] }) } }
  let s := (List.range 8).foldl (fun s u => if oscReset a b u then setOsc s u { oscFresh b u (oscOf s u) with held := [] } else s) s
  if islChanged a b then islInit s else s

end Sys2Proof.Machine
end

