-- ==== Sys2Proof/Machine/CaptureBlank.lean ====
section
/-! DEFINITION. The blank domain of disturbance capture (14_capture.md R409, R418): threshold units and capture channels on blank data. -/

namespace Sys2Proof.Machine

/-- The real interval of a source of blank `k`: KIND 0 magnitude, 1 real value, 2 imaginary part, 3 angle relative to `ref`. -/
def srcEl (s : State) (k kind src ref : Nat) : VEl :=
  let x := gatherEl s k src
  match kind with
  | 0 => lift1 elAbs x
  | 1 => lift1 elRe x
  | 2 => lift1 elIm x
  | _ => lift2 elArgd x (gatherEl s k ref)

/-- The instant of a crossing between the epoch instants of blanks k - 1 and k (R409). -/
def crossBlank (s : State) (th : ThrU) (k : Nat) (level : Nat) : Nat :=
  let r := blankRate s
  let tk := k * secU / r
  if k = 0 ∨ !Tab.has th.mids (k - 1) ∨ !Tab.has th.mids k then tk
  else
    let x1 := Tab.get (fun _ => f32.nan) th.mids (k - 1)
    let x2 := Tab.get (fun _ => f32.nan) th.mids k
    if !isFin f32 x1 || !isFin f32 x2 || feq f32 x1 x2 then tk
    else max ((k - 1) * secU / r) (min tk (crossAt r (k - 1) k (dyOf f32 level) (dyOf f32 x1) (dyOf f32 x2)))

/-- One unit evaluates its source at a provisional or seal point (R409). -/
def thrBlankUnit (s : State) (k point u : Nat) : State :=
  let d0 := cw s Win.CAP_TH u 0
  let dir := bits d0 29 28
  let kind := if bits d0 27 26 = 2 then 3 else bits d0 27 26
  let level := cw s Win.CAP_TH u 1
  let hyst := elFromf (cw s Win.CAP_TH u 2)
  let x := srcEl s k kind (bits d0 17 0) (bits (cw s Win.CAP_TH u 3) 17 0)
  let lv := elFromf level
  let rise := elCmp 0 x lv
  let lvl := if dir = 1 then elCmp 2 x lv else rise
  let nearLow := elCmp 3 x (elRsub lv hyst) == kT
  let nearHigh := elCmp 1 x (elRadd lv hyst) == kT
  let th := thrOf s u
  let th := { th with mids := Tab.put (th.mids.filter (fun p => decide (k ≤ p.1 + 64))) k (if x.isEvery then f32.nan else x.re) }
  let hit := if dir = 0 then rise == kT else if dir = 1 then lvl == kT else if th.low then rise == kT else rise == kF
  let fires := th.armed && hit && th.fired != some k
  let arms := if dir = 0 then nearLow else if dir = 1 then nearHigh else nearLow || nearHigh
  let prov := if point = 0 then some k else none
  let th' := { th with
    armed := if fires then (decide (2 ≤ dir) && arms) else th.armed || arms
    low := if arms then nearLow else th.low
    fired := if fires then some k else th.fired }
  let s := setThr (setLvl s (0x40 + u) lvl prov s.now) u th'
  if fires then capEvent s (0x40 + u) (crossBlank s th k level) prov else s

/-- Every enabled unit of the blank domain, at a provisional or seal point. -/
def thrBlank (s : State) (k point : Nat) : State :=
  if !runsLathe (mode s) then s
  else ((listed s.cfg Win.CAP_TH).filter (fun u => bits (cw s Win.CAP_TH u 0) 31 30 == 3)).foldl (fun s u => thrBlankUnit s k point u) s

/-- The value of a blank channel at the seal, from measured values only. -/
def chanValue (s : State) (b : Blank) (d0 d3 : Nat) : Nat :=
  let c := confOf s b.epoch
  let src := bits d0 17 0
  let ref := bits d3 17 0
  if src ≥ chDg then
    let o := bits (getC c Win.ING_DIR (chFr + (src - chDg)) 0) 28 16
    if bitOf (b.hdrOf o).sflags 0 then fofInt f32 (b.dgOf (src - chDg)) else f32.nan
  else if !b.measured c src then f32.nan
  else
    let v := b.value src
    match bits d0 29 28 with
    | 0 => modF .near v.1 v.2
    | 1 => v.1
    | 2 => v.2
    | _ =>
      if ref < chAn ∧ b.measured c ref then
        let w := b.value ref
        let z := cMul v.1 v.2 w.1 (fneg f32 w.2)
        argF z.1 z.2
      else f32.nan

/-- Every enabled blank channel gives one value at the seal (R418). -/
def chanBlank (s : State) (b : Blank) : State :=
  let t := b.epoch * 1000000000 / blankRate s
  ((listed s.cfg Win.CAP_CH).filter (fun i => bits (cw s Win.CAP_CH i 0) 31 30 == 3)).foldl
    (fun s i => shave s i t (chanValue s b (cw s Win.CAP_CH i 0) (cw s Win.CAP_CH i 3))) s

end Sys2Proof.Machine
end

