-- ==== Sys2Proof/Machine/Sched.lean ====
section
/-! DEFINITION. Kernel invocations and work items (07_suesk_programming_model.md R218 to R232): what an evaluation point starts, dispatch, the
ends of work items, result records, exceptions. -/

namespace Sys2Proof.Machine

/-! Kernel-table words. -/

/-- Fields of a kernel-table entry's words. -/
def ktEn (w : List Nat) : Bool := bitOf (w.getD 0 0) 31
def ktPoint (w : List Nat) : Nat := bits (w.getD 0 0) 30 29
def ktPrio (w : List Nat) : Nat := bits (w.getD 0 0) 28 27
def ktRing (w : List Nat) : Nat := bits (w.getD 0 0) 26 24
def ktChute (w : List Nat) : Nat := bits (w.getD 0 0) 23 22
def ktEntry (w : List Nat) : Nat := bits (w.getD 0 0) 17 0
def ktWork (w : List Nat) : Nat := bits (w.getD 1 0) 31 20 + 1
def ktCycles (w : List Nat) : Nat := bits (w.getD 1 0) 19 0
def ktAlarms (w : List Nat) : Nat := bits (w.getD 2 0) 31 16
def ktBudget (w : List Nat) : Nat := bits (w.getD 2 0) 15 0
def ktStSize (w : List Nat) : Nat := bits (w.getD 3 0) 31 16
def ktStBase (w : List Nat) : Nat := bits (w.getD 3 0) 11 0

/-- The words of a kernel-table entry in a configuration copy. -/
def ktWords (c : Tab Word) (e : Nat) : List Nat := (List.range 4).map (getC c Win.SSK_KT e)

/-- Enabled entries, ascending. -/
def ktEnabled (c : Tab Word) : List Nat := (listed c Win.SSK_KT).filter (fun e => ktEn (ktWords c e))

/-! Chucks (R234 to R238): INUSE, IDLE, RETIRING. -/

/-- The chuck under which a blank runs: the former one before TXN_TARGET of a swap, the one in use from it on. -/
def chuckOf (s : State) (epoch : Nat) : Nat :=
  let inuse := b2n (bit s Reg.SSK_CHUCK_SEL 0)
  let swapAt := rd s Reg.SSK_SWAP_AT_LO + rd s Reg.SSK_SWAP_AT_HI * 2 ^ 32
  if bit s Reg.SSK_CHUCK_SEL 2 && decide (epoch < swapAt) then 1 - inuse else inuse

/-! Processors. -/

def laneOf (s : State) (l : Nat) : ProcS := s.ssk.lanes.getD l (ProcS.reset false)
def setLane (s : State) (l : Nat) (p : ProcS) : State := { s with ssk := { s.ssk with lanes := s.ssk.lanes.set l p } }

def statOf (s : State) (e : Nat) : KStat := Tab.get (fun _ => ⟨0, 0, 0, 0, 0, 0⟩) s.ssk.stats e
def setStat (s : State) (e : Nat) (k : KStat) : State :=
  { s with ssk := { s.ssk with stats := Tab.set (fun _ => ⟨0, 0, 0, 0, 0, 0⟩) s.ssk.stats e k } }

def invOf (s : State) (id : Nat) : Option Inv := s.ssk.invs.find? (fun i => i.id == id)
def setInv (s : State) (v : Inv) : State :=
  { s with ssk := { s.ssk with invs := s.ssk.invs.map (fun i => if i.id = v.id then v else i) } }

/-- Is the invocation provisional? (R228) -/
def Inv.prov (v : Inv) : Option Nat := if v.point = 0 then some v.epoch else none

/-! Result records (R228, R229). -/

/-- The bytes of a result record. -/
def resBytes (q : Nat) (v : Inv) (item tag flags : Nat) (payload : List Nat) : List Nat :=
  let h := leBytes 8 q ++ leBytes 8 v.epoch ++ leBytes 2 v.timeGen ++ [v.point, (if v.point = 0 then 1 else 0) + 4 * v.chuck + flags,
    v.entry, v.amend % 256] ++ leBytes 2 item ++ leBytes 2 payload.length ++ leBytes 2 tag
  h ++ leBytes 4 (crc32c (h ++ payload)) ++ payload

/-- Write a record to the entry's result ring, whole or not at all. Answers its RSEQ where it was written. -/
def writeRes (s : State) (v : Inv) (item tag flags : Nat) (payload : List Nat) : State × Option Nat :=
  if v.quiet then (s, none) else
  let r := ktRing v.words
  let size := bits (getC s.cfg (Reg.SSK_RRCFG r) 0 0) 27 16 * 65536
  let ring := s.ssk.rings.getD r []
  let used := (ring.map (fun x => x.bytes.length)).sum
  if size < used + 32 + payload.length then (inc s Reg.SSK_RES_OVF, none)
  else
    let (s, q) := nextRseq s
    let rec_ : RingRec := ⟨q, resBytes q v item tag flags payload⟩
    ({ s with ssk := { s.ssk with rings := s.ssk.rings.set r (ring ++ [rec_]) } }, some q)

/-! Invocations (R218). -/

/-- Make one invocation of an entry. -/
def makeInv (s : State) (c : Tab Word) (b : Blank) (point amend e : Nat) : State :=
  let w := ktWords c e
  let v : Inv := ⟨s.ssk.nextInv, e, w, b.epoch, point, amend, s.cycle, b.timeGen, chuckOf s b.epoch, 0, 0, false, false, false⟩
  let s := { s with ssk := { s.ssk with invs := s.ssk.invs ++ [v], nextInv := s.ssk.nextInv + 1 } }
  let k := statOf s e
  inc (setStat s e { k with invokes := (k.invokes + 1) % 2 ^ 32 }) Reg.SSK_INVOKES

/-- A kernel-table entry with a parity error is reloaded, before it is used, from the copy in the shadow of the chuck in use (R221). -/
def ktReload (s : State) (e : Nat) : State :=
  if !s.ssk.ktBad.contains e then s
  else
    let m := s.ssk.chucks.getD (b2n (bit s Reg.SSK_CHUCK_SEL 0)) []
    let cfg := (List.range 4).foldl (fun t j => putC t Win.SSK_KT e j (Memory.le Memory.zero m (0xFF000 + 16 * e + 4 * j) 4)) s.cfg
    { inc s Reg.SSK_KT_PARITY with cfg := cfg, ssk := { s.ssk with ktBad := s.ssk.ktBad.filter (fun x => x != e) } }

/-- One invocation of every enabled entry whose POINT matches; every entry is looked at, and so used. -/
def invoke (s : State) (b : Blank) (point amend : Nat) : State :=
  let s := s.ssk.ktBad.foldl ktReload s
  let c := confOf s b.epoch
  ((ktEnabled c).filter (fun e => ktPoint (ktWords c e) == point)).foldl (fun s e => makeInv s c b point amend e) s

/-- An invocation whose work items have all ended leaves; its run time is recorded. -/
def closeInv (s : State) (id : Nat) : State :=
  match invOf s id with
  | some v =>
    if v.running = 0 ∧ (v.cut ∨ v.sent = ktWork v.words) then
      let us := min ((s.cycle - v.evalAt) / 500) 65535
      let k := statOf s v.entry
      let s := if v.quiet then s else setStat s v.entry { k with lastRun := us, maxRun := max k.maxRun us }
      { s with ssk := { s.ssk with invs := s.ssk.invs.filter (fun i => i.id != id) } }
    else s
  | none => s

/-- The lane becomes idle: its acknowledge bit follows where it is out of service (02 R74). -/
def laneIdle (s : State) (l : Nat) : State :=
  if bitOf s.sys.oosLane l then govSettle (setB s Reg.SYS_OOS_ACK_LANE l true) else s

/-- A work item ends normally (END). -/
def endWork (s : State) (l : Nat) : State :=
  match (laneOf s l).item with
  | some (id, _) =>
    let s := setLane s l { laneOf s l with item := none, gath := [] }
    let s := match invOf s id with
      | some v => setInv s { v with running := v.running - 1 }
      | none => s
    laneIdle (closeInv s id) l
  | none => s

/-- What an exception records for its invocation (R232). -/
def excRecord (s : State) (v : Inv) (code : Nat) : State :=
  if v.quiet then s else
  let s := inc s Reg.SSK_EXC
  let k := statOf s v.entry
  let s := setStat s v.entry { k with exc := satAdd 16 k.exc 1, lastExc := code }
  if v.exc then s
  else
    let s := pushDev s 0x0040 [v.epoch, v.entry + code * 256]
    if v.point = 0 then s else logRec s 0x0040 (leBytes 8 v.epoch ++ [v.entry, code])

/-- A work item ends with an exception: its closing record and what R232 records (R230). -/
def excWork (s : State) (l code arg : Nat) : State :=
  match (laneOf s l).item with
  | some (id, item) =>
    match invOf s id with
    | some v =>
      let cutF := if code = 7 ∨ code = 8 then 2 else 0
      let s := (writeRes s v item (code + arg * 256) (8 + cutF) []).1
      let s := excRecord s v code
      endWork (setInv s { v with exc := true }) l
    | none => endWork s l
  | none => s

/-- Has a lane's work item of an invocation reached its cycle limit (R224); has the invocation reached its budget (R225)? -/
def cyclesDue (s : State) (v : Inv) (l : Nat) : Bool := decide ((laneOf s l).start + ktCycles v.words * 8 ≤ s.cycle)
def budgetDue (s : State) (v : Inv) : Bool := decide (v.evalAt + ktBudget v.words * 500 ≤ s.cycle)

/-- The code under which a lane's work item ends for a cause, or for another of this cycle with a lower code (R234). -/
def excCode (s : State) (v : Inv) (l code : Nat) : Nat := if cyclesDue s v l then min 6 code else if budgetDue s v then min 7 code else code

/-- Every running work item of an invocation ends with an exception. -/
def excAll (s : State) (v : Inv) (code : Nat) : State :=
  (List.range 32).foldl (fun s l => match (laneOf s l).item with
    | some (i, _) => if i = v.id then excWork s l (excCode s v l code) 0 else s
    | none => s) s

/-- WORK_ITEM_DISPATCH's order (R222): is `a` before `b`? -/
def invBefore (a b : Inv) : Bool :=
  if ktPrio a.words ≠ ktPrio b.words then decide (ktPrio b.words < ktPrio a.words)
  else if a.evalAt ≠ b.evalAt then decide (a.evalAt < b.evalAt)
  else if a.entry ≠ b.entry then decide (a.entry < b.entry)
  else if a.epoch ≠ b.epoch then decide (a.epoch < b.epoch)
  else decide (a.id < b.id)

/-- Of two invocations of one entry, is the first queued before the second: by evaluation point, then epoch index (05 R158)? -/
def invEarlier (a b : Inv) : Bool :=
  if a.evalAt ≠ b.evalAt then decide (a.evalAt < b.evalAt) else if a.epoch ≠ b.epoch then decide (a.epoch < b.epoch) else decide (a.id < b.id)

/-- May an invocation dispatch? It is not cut, has items left, and no other invocation of its entry has begun or goes before it (R223). -/
def invReady (s : State) (v : Inv) : Bool :=
  !v.cut && decide (v.sent < ktWork v.words) && !(s.ssk.invs.any (fun u => u.entry == v.entry && u.id != v.id && (decide (0 < u.sent) || (v.sent == 0 && invEarlier u v))))

/-- The invocation whose item is next. -/
def pickInv (s : State) : Option Inv :=
  (s.ssk.invs.filter (invReady s)).foldl (fun o v => match o with
    | none => some v
    | some u => if invBefore v u then some v else some u) none

/-- May a lane take work: idle, in service, powered, in a mode that runs kernels? -/
def laneFree (s : State) (l : Nat) : Bool :=
  (laneOf s l).item.isNone && !bitOf s.sys.oosLane l && !bitOf s.sys.laneFail l && domOn s (6 + l / 4) && runsLathe (mode s)

/-- Registers at the start of a work item (R210). -/
def startProc (s : State) (v : Inv) (item : Nat) : ProcS :=
  let s4 := v.point + v.amend % 256 * 256 + (if v.point = 0 then 65536 else 0)
  let regs := [(1, item), (2, ktWork v.words), (3, v.epoch), (4, s4), (5, v.timeGen)].filter (fun p => p.2 != 0)
  { ProcS.reset false with s := regs, pc := 0x20000000 + ktEntry v.words * 4, item := some (v.id, item), start := s.cycle }


/-- WORK_ITEM_DISPATCH (R222). -/
def execWorkItemDispatch (lane : Fin 32) (s : State) : Out :=
  let l := lane.val
  if !laneFree s l then .next s
  else
    match pickInv s with
    | none => .next s
    | some v =>
      let s := setLane (ktReload s v.entry) l (startProc s v v.sent)
      let s := { s with ssk := { s.ssk with scratch := s.ssk.scratch.set l [] } }
      .next (setInv s { v with sent := v.sent + 1, running := v.running + 1 })

/-- CYCLES_LIMIT (R224): a work item that has run for CYCLES × 16 core cycles, two a fabric cycle, ends with exception CYCLES. -/
def execCyclesLimit (lane : Fin 32) (s : State) : Out :=
  let p := laneOf s lane
  match p.item with
  | some (id, _) =>
    match invOf s id with
    | some v => .next (excWork (passCyc s (p.start + ktCycles v.words * 8)) lane 6 0)
    | none => .next s
  | none => .next s

/-- A cut of an invocation is counted, and its other work items are not dispatched (R225). -/
def markCut (s : State) (v : Inv) : State :=
  let s := inc (setInv s { v with cut := true }) Reg.SSK_BUDGET_CUT
  let k := statOf s v.entry
  setStat s v.entry { k with cuts := satAdd 16 k.cuts 1 }

/-- BUDGET_CUT (R225): BUDGET_US µs after its evaluation point an invocation is cut. -/
def execBudgetCut (inv : Nat) (s : State) : Out :=
  match invOf s inv with
  | none => .next s
  | some v => .next (closeInv (excAll (markCut (passCyc s (v.evalAt + ktBudget v.words * 500)) v) v 7) inv)

/-- A retired blank ends its invocations (05 R160): how many were ended. One whose budget ends in this cycle too is also cut (R225, R234). -/
def retireInvs (s : State) (k : Nat) : State × Nat :=
  let mine := s.ssk.invs.filter (fun v => v.epoch == k && !v.quiet)
  (mine.foldl (fun s v =>
    let s := match invOf s v.id with | some u => if budgetDue s u then markCut s u else setInv s { u with cut := true } | none => s
    closeInv (excAll s v 8) v.id) s, mine.length)

/-- TIMED_INVOCATION (R219): a compare fire invokes a TIMED entry on the newest AMENDABLE blank, or is refused. -/
def timedInvoke (s : State) (e : Nat) : State :=
  let s := ktReload s e
  let best := s.aln.ring.foldl (fun o b => match o, b with
    | some (x : Blank), some y => if y.state = 4 ∧ x.epoch < y.epoch then some y else some x
    | none, some y => if y.state = 4 then some y else none
    | o, none => o) none
  match best with
  | some b =>
    let w := ktWords (confOf s b.epoch) e
    if ktEn w && ktPoint w == 3 && runsLathe (mode s) then makeInv s (confOf s b.epoch) b 3 0 e else inc s Reg.SSK_TIMED_REFUSED
  | none => inc s Reg.SSK_TIMED_REFUSED

/-! Declared load (R226, R227). -/

/-- L, in core cycles per epoch. -/
def declaredLoad (s : State) (c : Tab Word) : Nat :=
  ((ktEnabled c).map (fun e =>
    let w := ktWords c e
    let n := if ktPoint w = 2 then fld s Reg.SSK_LOAD_CFG 11 8 else if ktPoint w = 3 then 0 else 1
    ktWork w * ktCycles w * 16 * n)).sum

/-- Lanes not requested out of service. -/
def lanesIn (s : State) : Nat := 32 - popCount 32 (rd s Reg.SYS_OOS_LANE)

/-- LOAD_MAX in percent, 1 to 100. -/
def loadMax (s : State) : Nat := max 1 (min 100 (fld s Reg.SSK_LOAD_CFG 6 0))

/-- Is a load over the limit of R226? -/
def overLoad (s : State) (l : Nat) : Bool := decide (lanesIn s * 1000000000 * loadMax s < l * blankRate s * 100)

/-- SSK_LOAD follows the table in use and the lanes in service; a change of OVERLOAD pushes an item (R227). -/
def loadUpdate (s : State) : State :=
  let l := declaredLoad s s.cfg
  let cap := lanesIn s * 1000000000
  let v := if cap = 0 then (if l = 0 then 0 else 2047) else min 2047 (l * blankRate s * 1000 / cap)
  let s := setF s Reg.SSK_LOAD 10 0 v
  let o := overLoad s l
  if bit s Reg.SSK_LOAD 31 = o then s else pushDev (setB s Reg.SSK_LOAD 31 o) 0x0041 [b2n o]

end Sys2Proof.Machine
end

