-- ==== Sys2Proof/Machine/Retire.lean ====
section
/-! DEFINITION. How blanks leave the ring (05_lathe_alignment.md R137, R160, R161), the registers that show the ring (R169 to R171), and the release
of a retiring configuration copy (02_modes_startup.md R64). -/

namespace Sys2Proof.Machine

/-- Blanks of the ring, in ascending epoch index. -/
def ringBlanks (s : State) : List Blank :=
  ((s.aln.ring.filterMap (fun o => o)).foldl (fun t b => Tab.put t b.epoch b) ([] : Tab Blank)).map (·.2)

/-- Does the blank of an epoch index run under the retiring configuration? (R63) -/
def oldCfg (s : State) (k : Nat) : Bool := match s.cfgRet with | some r => decide (k < r.target) | none => false

/-- ALN_BLANK_STATE and ALN_NEWEST follow the ring. -/
def alnShow (s : State) : State :=
  let nib (i : Nat) : Nat := match s.aln.ring.getD i none with | some b => b.state % 8 + 8 * b2n (oldCfg s b.epoch) | none => 0
  let s := (List.range 4).foldl (fun s n =>
    wr s (Reg.ALN_BLANK_STATE n) ((List.range 8).foldl (fun w m => w + nib (8 * n + m) * 16 ^ m) 0)) s
  match s.aln.newest with
  | some k => wr (wr s Reg.ALN_NEWEST_LO (k % 2 ^ 32)) Reg.ALN_NEWEST_HI (k / 2 ^ 32)
  | none => s

/-- The retiring copy is released; a chuck that was retiring is idle from then on (R64; 07 R237). -/
def releaseRet (s : State) : State :=
  setB (setB { s with cfgRet := none } Reg.TXN_STATUS 10 false) Reg.SSK_CHUCK_SEL 2 false

/-- Release the retiring copy where no blank can use it any more. -/
def releaseIfDone (s : State) : State :=
  match s.cfgRet with
  | none => s
  | some r =>
    let held := (ringBlanks s).any (fun b => decide (b.epoch < r.target))
    let past := match s.aln.newest with | some n => decide (r.target + 31 ≤ n) | none => true
    if !held && past then releaseRet s else s

/-- A blank is retired (R138, R146, R160, R161): its queued blocks are too late, what runs on it is ended, and a blank that has not sealed is
reported. -/
def retireBlank (s : State) (b : Blank) : State :=
  let k := b.epoch
  let unsealed := decide (b.state < 3)
  let late := s.aln.amendQ.filter (fun x => x.epoch == k)
  let s := setBlank { s with aln := { s.aln with amendQ := s.aln.amendQ.filter (fun x => x.epoch != k) } } { b with state := 5 }
  let s := late.foldl tooLate s
  let s := oscRetire s b
  let (s, n) := retireInvs s k
  let n := n + b.dets.length
  let s := addC s Reg.ALN_EVAL_CUT n
  let s := if 0 < n ∨ unsealed then pushDev s 0x0020 [k, b2n unsealed] else s
  let s := if unsealed then norecSealed (logRec (inc s Reg.ALN_UNSEALED_RETIRE) 0x0020 (leBytes 8 k)) k false else s
  let s := { s with aln := { s.aln with ring := s.aln.ring.set (k % 32) none } }
  unitAck ((List.range 8).foldl (fun s u => commitSteps s u 33) s)

/-- The Lathe stops (R137): every blank is retired, the queues are dropped as too late. -/
def latheStop (s : State) : State :=
  let s := (ringBlanks s).foldl retireBlank s
  let s := (s.aln.earlyQ ++ s.aln.amendQ).foldl tooLate s
  let s := { s with
    aln := { s.aln with newest := none, earlyQ := [], amendQ := [] }
    ing := { s.ing with silWin := [] }
    time := { s.time with openNow := 0 } }
  releaseIfDone (alnShow s)

end Sys2Proof.Machine
end

