-- ==== Sys2Proof/Machine/Validate.lean ====
section
/-! DEFINITION. What the participating blocks check in PREPARE (02_modes_startup.md R62, R73; the reject codes of each block's chapter). Each check
answers the first failing code of its block, 0 where the block accepts. -/

namespace Sys2Proof.Machine

/-- The first code whose check fails; 0 for none. -/
def firstCode (l : List (Nat × Bool)) : Nat := match l.find? (fun p => p.2) with | some p => p.1 | none => 0

/-- Do two runs of places meet? -/
def meets (a b : Nat × Nat) : Bool := decide (0 < a.2) && decide (0 < b.2) && decide (a.1 < b.1 + b.2) && decide (b.1 < a.1 + a.2)

/-- Does some pair of a list meet a condition? -/
def anyPair {α : Type} (p : α → α → Bool) : List α → Bool
  | [] => false
  | x :: xs => xs.any (p x) || anyPair p xs

/-! ING (04_ingest_streams.md R117, R126). -/

/-- The slot ranges of an entry as gather indices: phasors, analogs, digital words. -/
def stRanges (c : Tab Word) (i : Nat) : List (Nat × Nat) :=
  [(phBase c i, phCnt c i), (chAn + anBase c i, anCnt c i), (chFr + dgBase c i, dgCnt c i)]

/-- Do the chain rules hold for head entries, and has every continuation entry a head? -/
def chainOk (c : Tab Word) (es : List Nat) : Bool :=
  let nblk (h : Nat) : Nat := stF c h 5 31 25
  es.all (fun i =>
    if stCont c i then es.any (fun h => !stCont c h && decide (h < i) && decide (i < h + nblk h))
    else decide (0 < nblk i) && decide (i + nblk i ≤ 8192) &&
      (List.range (nblk i - 1)).all (fun j => stEn c (i + 1 + j) && stCont c (i + 1 + j)))

/-- May two head entries be told apart by their keys? -/
def keyClash (c : Tab Word) (a b : Nat) : Bool :=
  stSrc c a == stSrc c b && stF c a 0 28 28 == stF c b 0 28 28 && (stFmt c a == 2) == (stFmt c b == 2) && stF c a 0 15 0 == stF c b 0 15 0
    && ((stF c a 0 27 24 &&& stF c b 0 27 24) != 0 || (stF c a 0 23 23 == 1 && stF c b 0 23 23 == 1))

/-- Is a directory entry mapped to a stream whose range holds it? -/
def dirGood (c : Tab Word) (i : Nat) : Bool :=
  let st := dirStream c i
  stEn c st && (stRanges c st).any (fun r => decide (r.1 ≤ i) && decide (i < r.1 + r.2))

def checkIng (s : State) (c : Tab Word) : Nat :=
  let es := enabledStreams c
  let heads := es.filter (fun i => !stCont c i && decide (stFmt c i ≤ 2))
  let rs := es.filter (isResampled s c)
  let sum (f : Nat → Nat) : Nat := (rs.map f).sum
  firstCode [
    (0x10, anyPair (keyClash c) heads),
    (0x11, es.any (fun i => decide (131072 < phBase c i + phCnt c i) || decide (32768 < anBase c i + anCnt c i) || decide (16384 < dgBase c i + dgCnt c i))),
    (0x12, anyPair (fun a b => ((stRanges c a).zip (stRanges c b)).any (fun p => meets p.1 p.2)) es),
    (0x13, !chainOk c es),
    (0x14, heads.any (fun i => decide (12 ≤ stF c i 0 19 16))),
    (0x15, decide (2048 < rs.length) || decide (16384 < sum (phCnt c)) || decide (4096 < sum (anCnt c))),
    (0x16, (listed c Win.ING_DIR).any (fun i => dirMapped c i && !dirGood c i) ||
      es.any (fun i => (stRanges c i).any (fun r => (List.range r.2).any (fun j => !dirMapped c (r.1 + j))))),
    (0x17, stFmt c 0 != 3 || stCont c 0 || stF c 0 0 28 23 != 0 || stF c 0 0 15 0 != 0 || (List.range 4).any (fun j => getC c Win.ING_ST 0 (1 + j) != 0)),
    (0x18, es.any (fun i => stF c i 7 22 22 == 1 && (stFmt c i != 2 || (liveNow s (stF c i 7 31 23) Usage.rsvRx).isNone))),
    (0x19, heads.any (fun i => stF c i 0 27 23 == 0))]

/-! ALN, SPC (05_lathe_alignment.md R151, R152; 06_speculation.md R201). -/

def checkAln (s : State) (c : Tab Word) : Nat :=
  let w := getC c Reg.ALN_WAIT 0 0 % 2 ^ 22
  firstCode [
    (0x20, decide (w < 1000) || decide (31000000 / blankRate s < w)),
    (0x21, (sessions c).any (fun i => decide (w < ssWait c i)))]

def checkSpc (s : State) (c : Tab Word) : Nat :=
  let d := getC c Reg.SPC_DEADLINE 0 0 % 2 ^ 22
  let g := getC c Reg.SPC_GAIN 0 0 % 2 ^ 16
  firstCode [
    (0x30, decide (d < 100) || decide (31000000 / blankRate s < d)),
    (0x31, decide (g < 0x80) || decide (0x2000 < g))]

/-! SSK (07_suesk_programming_model.md R237; 16_twin_redundancy.md R467). -/

/-- The sections of the image in a chuck: type, offset, size. -/
def chuckSecs (s : State) (ch : Nat) : List (Nat × Nat × Nat) :=
  let m := s.ssk.chucks.getD ch []
  let le (a n : Nat) : Nat := Memory.le Memory.zero m a n
  if s.ssk.chuckSt.getD ch 0 ≠ 3 then []
  else (List.range (min 16 (le 0x18 4))).map (fun i => (le (0x40 + 16 * i) 2, le (0x44 + 16 * i) 4, le (0x48 + 16 * i) 4))

/-- TXN_TARGET. -/
def txnTarget (s : State) : Nat := rd s Reg.TXN_TARGET_LO + rd s Reg.TXN_TARGET_HI * 2 ^ 32

/-- SSK_SWAP_AT of a configuration copy. -/
def swapAt (c : Tab Word) : Nat := getC c Reg.SSK_SWAP_AT_LO 0 0 + getC c Reg.SSK_SWAP_AT_HI 0 0 * 2 ^ 32

/-- State areas and result rings of a copy, as byte ranges of the result store. -/
def stateSpans (c : Tab Word) : List (Nat × Nat) :=
  (ktEnabled c).map (fun e => let w := ktWords c e; (ktStBase w * 65536, ktWork w * ktStSize w * 64))
def ringSpans (c : Tab Word) : List (Nat × Nat) :=
  (List.range 8).map (fun n => let w := getC c (Reg.SSK_RRCFG n) 0 0; (bits w 11 0 * 65536, bits w 27 16 * 65536))

/-- Bytes of the state areas that a twin copies. -/
def kstateSize (c : Tab Word) : Nat := ((stateSpans c).map (·.2)).sum

def checkSsk (s : State) (c : Tab Word) : Nat :=
  let inuse := b2n (bit s Reg.SSK_CHUCK_SEL 0)
  let swap := swapAt c != 0
  let ch := if swap then 1 - inuse else inuse
  let code := (chuckSecs s ch).filter (fun x => x.1 == 1)
  let spans := stateSpans c
  let size := s.histPart.getD 1 0
  firstCode [
    (0x40, swap && swapAt c != txnTarget s),
    (0x41, swap && s.ssk.chuckSt.getD ch 0 != 3),
    (0x42, (ktEnabled c).any (fun e => !code.any (fun x => decide (x.2.1 ≤ ktEntry (ktWords c e) * 4) && decide (ktEntry (ktWords c e) * 4 < x.2.1 + x.2.2)))),
    (0x43, overLoad s (declaredLoad s c)),
    (0x44, anyPair meets spans || spans.any (fun a => (ringSpans c).any (meets a))
      || (spans ++ ringSpans c).any (fun a => decide (0 < a.2) && decide (size < a.1 + a.2))),
    (0x45, s.ssk.chuckSt.getD ch 0 == 3 && bitOf (Memory.le Memory.zero (s.ssk.chucks.getD ch []) 0xC 4) 1),
    (0x46, s.sys.twinMode != 0 && decide (7340032 < kstateSize c))]

/-! DET (09_detectors_alarms.md R309). -/

/-- Is a binary32 value within limits? -/
def fWithin (x lo hi : Nat) : Bool := !isNaN f32 x && !flt f32 x lo && !flt f32 hi x
/-- Is it above zero? -/
def fPos (x : Nat) : Bool := flt f32 0 x

def oscParamOk (c : Tab Word) (u : Nat) : Bool :=
  let w (j : Nat) : Nat := getC c Win.DET_OSC u j
  decide (4 ≤ oscOrder c u) && decide (oscOrder c u ≤ 24) && decide (1 ≤ oscNsig c u) && decide (oscNsig c u ≤ 512) && oscHold c u != 0
    && oscF c u 0 7 4 != 0 && oscF c u 0 3 0 != 0 && decide (16 ≤ oscWin c u) && decide (oscWin c u ≤ 1024)
    && fWithin (w 2) 0x3F666666 0x3F800000 && fPos (w 3) && fPos (w 4) && fWithin (w 5) 0x3F800000 0x447A0000 && fWithin (w 6) 0 0x3F800000
    && decide (oscF c u 7 17 0 < chAn)

/-- Is a phasor slot mapped? -/
def phMapped (c : Tab Word) (i : Nat) : Bool := decide (i < chAn) && dirMapped c i

/-- The checks of DET, each over the entries that its row of the table names: 0x51 over every signal entry, 0x52 over the enabled bands of every unit,
0x54 over the island registers whether or not the unit is configured (log 146). -/
def checkDet (s : State) (c : Tab Word) : Nat :=
  let us := (List.range 8).filter (oscEn c)
  let isl := getC c Reg.DET_ISL_CFG 0 0
  let half := fdiv f32 .near (fofInt f32 (blankRate s)) 0x40000000
  firstCode [
    (0x50, us.any (fun u => !oscParamOk c u)),
    (0x51, (listed c Win.DET_SIG).any (fun i =>
      let w := getC c Win.DET_SIG i 0
      decide (180223 < bits w 17 0) || bits w 31 30 == 3 || (bits w 31 30 == 1 && decide (chAn ≤ bits w 17 0)))),
    (0x52, (List.range 8).any (fun u => (bandsOf c u).any (fun b =>
      !flt f32 (bandW c u b 1) (bandW c u b 2) || flt f32 (bandW c u b 1) 0 || !flt f32 (bandW c u b 2) half))),
    (0x53, (groupsOf c).any (fun g => (members c g).any (fun m => !fPos m.2 || !phMapped c m.1))),
    (0x54, getC c Reg.DET_ISL_N 0 0 % 256 == 0 || !fPos (getC c Reg.DET_ISL_FTH 0 0) || !fPos (getC c Reg.DET_ISL_ATH 0 0)
      || !phMapped c (bits isl 17 0))]

/-! OUT (10_output_sessions.md R331, R334, R335). -/

/-- Ethernet bytes of a data frame of a session, without a redundancy trailer; the encoded size of an R-SV frame is free (log 6). -/
def sessBytes (c : Tab Word) (i : Nat) : Nat :=
  let n (e : Nat) : Nat := 2 + 8 * bkF c e 1 31 24 + 8 + 4 * bkF c e 1 15 10 + 2 * bkF c e 1 3 0
  if ssType c i = 0 then ethBytes c i (16 + ((ssBlocks c i).map n).sum)
  else ethBytes c i (Config.encSize 2 (i :: ((ssBlocks c i).map (fun e => [bkF c e 1 31 24, bkF c e 1 15 10])).flatten))

/-- Is a block of a session out of its stream's counts? -/
def blkBad (c : Tab Word) (e : Nat) : Bool :=
  let st := bkStream c e
  !stEn c st || decide (phCnt c st < bkF c e 1 23 16 + bkF c e 1 31 24) || decide (anCnt c st < bkF c e 1 9 4 + bkF c e 1 15 10)
    || decide (dgCnt c st < bkF c e 2 31 28 + bkF c e 1 3 0)

/-- The source MAC address of a session. -/
def srcMac (c : Tab Word) (i : Nat) : Nat := getC c Win.OUT_SX i 0 * 65536 + bits (getC c Win.OUT_SX i 1) 31 16

def checkOut (s : State) (c : Tab Word) : Nat :=
  let es := sessions c
  let wire := es.filter (fun i => decide (ssType c i < 2))
  let cnt (i : Nat) : Nat := ssF c i 2 17 6
  let top (i : Nat) : Nat := ssF c i 2 31 18 + cnt i
  firstCode [
    (0x60, es.any (fun i => ssType c i == 3 || decide (12 ≤ ssF c i 0 27 24) || ssAmend c i == 3 || decide (ssWait c i < 1000) || cnt i == 0
      || decide (2048 < cnt i) || ((ssKeyed c i || ssEncrypt c i) && ssType c i != 1))),
    (0x61, es.any (fun i => blankRate s % ssRate c i != 0)),
    (0x62, es.any (fun i => decide (16384 < top i) || (ssType c i == 1 && (decide (8 < cnt i) || decide (1024 < top i))) || (ssBlocks c i).any (blkBad c))),
    (0x63, wire.any (fun i => (List.range 4).any (fun p => bitOf (ssPorts c i) p &&
      decide (maxLen s p < sessBytes c i + (if p < 2 && prpOn s then 6 else 0))))),
    (0x64, decide (9000000000 < (wire.map (fun i => 8 * sessBytes c i * ssRate c i)).sum)),
    (0x65, prpOn s && anyPair (fun a b => srcMac c a == srcMac c b) (wire.filter (fun i => ssPorts c i % 4 != 0))),
    (0x66, es.any (fun i => ssKeyed c i && (liveNow s (ssSlot c i) Usage.rsvTx).isNone)),
    (0x67, wire.any (fun i => ssPorts c i == 0 || (List.range 4).any (fun p => bitOf (ssPorts c i) p && !bit s (ethReg p 0) 30)
      || (prpOn s && (ssPorts c i % 4 == 1 || ssPorts c i % 4 == 2))))]

/-! CAP (14_capture.md R407, R426). -/

/-- Is a trigger input's number listed? -/
def inputOk (n : Nat) : Bool := decide (n ≤ 4) || (decide (8 ≤ n) && decide (n ≤ 0x27)) || (decide (0x40 ≤ n) && decide (n ≤ 0xA7))

def capParamBad (c : Tab Word) : Bool :=
  let a := getC c Reg.CAP_WIN 0 0
  let b := getC c Reg.CAP_WIN2 0 0
  decide (60000 < bits a 31 16) || bits a 15 0 == 0 || decide (60000 < bits a 15 0) || decide (bits b 31 16 < bits a 15 0)
    || decide (60000 < bits b 31 16) || decide (60000 < bits b 15 0)

/-- Is a source out of range for its domain? -/
def srcBad (w : Nat) : Bool := if bitOf w 30 then decide (196607 < bits w 17 0) else decide (47 < bits w 17 0)

def chanBad (c : Tab Word) (i : Nat) : Bool :=
  let w := getC c Win.CAP_CH i 0
  let dead := getC c Win.CAP_CH i 1
  bitOf w 31 && (srcBad w || (bitOf w 30 && bits w 29 28 == 3 && !phMapped c (bits (getC c Win.CAP_CH i 3) 17 0))
    || isNaN f32 dead || flt f32 dead 0 || bits (getC c Win.CAP_CH i 2) 31 16 == 0)

def threshBad (c : Tab Word) (u : Nat) : Bool :=
  let w := getC c Win.CAP_TH u 0
  let hyst := getC c Win.CAP_TH u 2
  bitOf w 31 && (srcBad w || decide (bits w 27 26 > (if bitOf w 30 then 2 else 1))
    || (bitOf w 30 && bits w 27 26 == 2 && !phMapped c (bits (getC c Win.CAP_TH u 3) 17 0))
    || isNaN f32 (getC c Win.CAP_TH u 1) || isNaN f32 hyst || flt f32 hyst 0)

def seqBad (c : Tab Word) (i : Nat) : Bool :=
  let w := getC c Win.CAP_TR i 0
  let cond := bits w 30 28
  bitOf w 31 && (decide (4 < cond) || (decide (cond < 2) && !inputOk (bits w 23 16)) || (cond == 1 && bitOf w 27)
    || (cond == 4 && !bitOf w 11 && !bitOf w 10 && bits w 15 12 == i % 64 / 4))

def checkCap (c : Tab Word) : Nat :=
  firstCode [
    (0x70, capParamBad c),
    (0x71, (listed c Win.CAP_CH).any (chanBad c)),
    (0x72, (listed c Win.CAP_TH).any (threshBad c)),
    (0x73, (listed c Win.CAP_TR).any (seqBad c)),
    (0x74, (List.range 16).any (fun i => let w := getC c Win.CAP_TAP i 0; bitOf w 31 && bits w 30 28 == 5))]

/-- The codes of every participating block in validation order, ING first (R73). -/
def checkAll (s : State) (c : Tab Word) : List Nat :=
  [checkIng s c, checkAln s c, checkSpc s c, checkSsk s c, checkDet s c, checkOut s c, checkCap c]

end Sys2Proof.Machine
end

