-- ==== Sys2Proof/Machine/Txn.lean ====
section
/-! DEFINITION. Configuration transactions and taking lanes and units out of service (02_modes_startup.md R60, R62 to R78). -/

namespace Sys2Proof.Machine

abbrev Txn.idle : Nat := 0
abbrev Txn.opened : Nat := 1
abbrev Txn.preparing : Nat := 2
abbrev Txn.armed : Nat := 3
abbrev Txn.committed : Nat := 4
abbrev Txn.rejected : Nat := 5
abbrev Txn.aborted : Nat := 6
abbrev Txn.expired : Nat := 7

/-- TXN_STATUS.STATE. -/
def txnState (s : State) : Nat := fld s Reg.TXN_STATUS 3 0

/-- Put STATE. A transaction that ends releases the idle chuck (07 R238). -/
def setTxn (s : State) (st : Nat) : State :=
  setB (setF s Reg.TXN_STATUS 3 0 st) Reg.SSK_CHUCK_SEL 4 (st == Txn.armed && swapAt s.cfgPend != 0)

/-- The transaction ends with a code of a block; MASK shows the blocks that rejected (R73). -/
def txnEnd (s : State) (st block code mask : Nat) : State :=
  let s := setTxn s st
  let s := setF (setF s Reg.TXN_STATUS 23 20 block) Reg.TXN_STATUS 19 12 code
  wr s Reg.TXN_REJMASK mask

/-- The transaction ends with a code of SYS: 1 LATE, 2 MODE, 3 PAST. -/
def txnEndSys (s : State) (st code : Nat) : State := txnEnd s st 8 code 128

/-- Is a transaction OPEN, PREPARING or ARMED? -/
def txnLive (s : State) : Bool := txnState s == Txn.opened || txnState s == Txn.preparing || txnState s == Txn.armed

/-! The switch (R63, R72). -/

/-- SSK_CHUCK_SEL.IDLE_STATE follows the idle chuck. -/
def idleShow (s : State) : State := setF s Reg.SSK_CHUCK_SEL 7 5 (s.ssk.chuckSt.getD (1 - b2n (bit s Reg.SSK_CHUCK_SEL 0)) 0)

/-- A kernel table as the 2 KiB copy that a shadow holds. -/
def ktBytes (c : Tab Word) : List Nat := ((List.range 128).map (fun e => ((ktWords c e).map (leBytes 4)).flatten)).flatten

/-- Write the shadow of the chuck in use: the table in use, then the retiring one (07 R221). -/
def ktShadow (s : State) (old : Tab Word) : State :=
  let ch := b2n (bit s Reg.SSK_CHUCK_SEL 0)
  let m := Memory.put Memory.zero (s.ssk.chucks.getD ch []) 0xFF000 (ktBytes s.cfg ++ ktBytes old)
  { s with ssk := { s.ssk with chucks := s.ssk.chucks.set ch m } }

/-- A state area is cleared to zero (07 R220). -/
def clearState (s : State) (w : List Nat) : State :=
  let a := s.histPart.getD 0 0 + ktStBase w * 65536
  let n := ktWork w * ktStSize w * 64
  { s with hist := s.hist.filter (fun p => !(decide (a ≤ p.1) && decide (p.1 < a + n))) }

/-- What a commit does to the kernel table: statistics of changed entries restart, state areas are cleared, the chucks swap (07 R220, R238). -/
def sskCommit (s : State) (old new : Tab Word) (k : Nat) (retire : Bool) : State :=
  let s := (List.range 128).foldl (fun s e =>
    let a := ktWords old e
    let b := ktWords new e
    if a = b then s
    else
      let s := { s with ssk := { s.ssk with stats := Tab.del s.ssk.stats e } }
      let moved := ktStBase a != ktStBase b || ktStSize a != ktStSize b || ktWork a != ktWork b
      let first := ktEn b && !s.ssk.ktSeen.contains e
      let s := if first then { s with ssk := { s.ssk with ktSeen := e :: s.ssk.ktSeen } } else s
      if first || moved then clearState s b else s) s
  let s :=
    if swapAt new = 0 then s
    else
      let u := b2n (bit s Reg.SSK_CHUCK_SEL 0)
      let s := setB (setB (setB s Reg.SSK_CHUCK_SEL 0 (u == 0)) Reg.SSK_CHUCK_SEL 1 (u == 1)) Reg.SSK_CHUCK_SEL 2 retire
      wr (wr s Reg.SSK_SWAP_AT_LO (k % 2 ^ 32)) Reg.SSK_SWAP_AT_HI (k / 2 ^ 32)
  ktShadow (idleShow s) old

/-- Do two copies differ in some entry of a window? -/
def winChanged (a b : Tab Word) (w : Nat) : Bool :=
  let f (t : Tab Word) : Tab Word := t.filter (fun p => p.1 / 2 ^ 21 == w)
  f a != f b

/-- What a commit does to capture (14 R426, R412): changed threshold units start disarmed with level UNSURE, changed sequencers in state 0. -/
def capCommit (s : State) (old new : Tab Word) : State :=
  let s := (List.range 64).foldl (fun s u =>
    if sameEntry old new Win.CAP_TH u 4 then s else setThr (setLvl s (0x40 + u) 2 none s.now) u ThrU.reset) s
  (List.range 8).foldl (fun s n =>
    if sameEntry old new Win.CAP_SQ n 7 && (List.range 64).all (fun i => sameEntry old new Win.CAP_TR (n * 64 + i) 2) then s
    else setSeq s n SeqS.reset) s

/-- Write the committed configuration to the idle configuration bank (R72). A payload that no bank can hold is a failed bank write. No register holds
the twin mode and the code of ALN_RATE that the next start is to have: they are free (log 128). -/
def persistCfg (s : State) (who : Nat) : State :=
  let (s, m) := fresh s 3
  let (s, rate) := fresh s 12
  let p := cfgPayload s m rate s.cfg
  if bankSize 0 - 64 < p.length then inc s Reg.NVS_BANK_FAIL else requestBank s 0 2 who p

/-- Every participating block switches to its pending copy at blank `k` (R63); with `retire` the former copy is held for earlier blanks (R64). -/
def txnSwitch (s : State) (k : Nat) (retire : Bool) : State :=
  let old := s.cfg
  let chan := winChanged old s.cfgPend Win.CAP_CH
  let s := if chan && capState s == 2 then closeRec s true else s
  let new := putC (putC s.cfgPend Reg.SSK_SWAP_AT_LO 0 0 0) Reg.SSK_SWAP_AT_HI 0 0 0
  let pend := s.cfgPend
  let s := setTxn { s with cfg := new, cfgRet := if retire then some ⟨old, k⟩ else none } Txn.committed
  let s := if retire then (ringBlanks s).foldl (fun s b => if b.epoch < k then setBlank s { b with bflags := setBitN b.bflags 0 } else s) s else s
  let s := setB s Reg.TXN_STATUS 10 retire
  let s := sskCommit s old pend k retire
  let s := capCommit (sessCommit (detCommit s old new) old new) old new
  let s := if chan && bit s Reg.CAP_CTRL 31 then histRestart s else s
  let s := loadUpdate s
  let s := { s with cyc := { s.cyc with switched := true }, twn := { s.twn with cfgAt := none } }
  if bit s Reg.TXN_CTRL 8 || mode s == Mode.safeDefault then persistCfg s 2 else s

/-- What the opening of blank `k` does to an ARMED transaction: the switch at its target, or EXPIRED past it (R62). -/
def txnAtOpen (s : State) (k : Nat) : State :=
  if txnState s ≠ Txn.armed then s
  else if k = txnTarget s then txnSwitch s k true
  else if txnTarget s < k then txnEndSys s Txn.expired 1
  else s

/-! Operations (R62, R65 to R69). -/

/-- BEGIN. PERSISTED is of the transaction it opens: a persist write of the one before still runs on and sets it no more (log 129). -/
def txnBegin (s : State) : State :=
  if !runsTxn (mode s) || txnLive s || bit s Reg.TXN_STATUS 10 then setB s Reg.TXN_STATUS 8 true
  else
    let pend := putC (putC s.cfg Reg.SSK_SWAP_AT_LO 0 0 0) Reg.SSK_SWAP_AT_HI 0 0 0
    let s := setTxn { s with cfgPend := pend } Txn.opened
    let s := setF (setF s Reg.TXN_STATUS 23 11 0) Reg.TXN_STATUS 31 24 (fld s Reg.TXN_STATUS 31 24 + 1)
    let s := wr s Reg.TXN_REJMASK 0
    { s with nvs := { s.nvs with bw := s.nvs.bw.map (fun w => if w.who = 2 then { w with who := 0 } else w) } }

/-- PREPARE. -/
def txnPrepare (s : State) : State :=
  if !runsTxn (mode s) || txnState s != Txn.opened then s
  else if mode s != Mode.safeDefault && decide (txnTarget s ≤ newestOr s) then txnEndSys s Txn.rejected 3
  else setTxn s Txn.preparing

/-- Is this the fabric cycle of an epoch instant? -/
def isInstant (s : State) (k : Nat) : Bool := decide (epochPlus s k 0 ≤ s.now) && decide (s.now < epochPlus s k 0 + s.time.addend)

/-- ABORT. In the cycle of the switch the switch takes place (R68). -/
def txnAbort (s : State) : State :=
  if !runsTxn (mode s) || !txnLive s then s
  else if txnState s == Txn.armed && mode s != Mode.safeDefault && isInstant s (txnTarget s) then s
  else setTxn s Txn.aborted

/-- A write of TXN_CTRL. -/
def txnCtrlWrite (s : State) (v : Nat) : State :=
  let s := setB s Reg.TXN_CTRL 8 (bitOf v 8)
  match bits v 2 0 with
  | 1 => txnBegin s
  | 2 => txnPrepare s
  | 3 => txnAbort s
  | _ => s

/-- A mode transition other than between the active and standby modes of one twin mode ends the transaction (R71). -/
def txnMode (s : State) (was now : Nat) : State :=
  let stays := (was == 4 && now == 5) || (was == 5 && now == 4) || (was == 6 && now == 7) || (was == 7 && now == 6)
  if txnLive s && !stays then txnEndSys s Txn.aborted 2 else s

/-- TXN_BEGIN (R62, R69). -/
def execTxnBegin (persist : Bool) (s : State) : Out := .next (txnCtrlWrite s (1 + 256 * b2n persist))
/-- TXN_PREPARE (R62, R65). -/
def execTxnPrepare (persist : Bool) (s : State) : Out := .next (txnCtrlWrite s (2 + 256 * b2n persist))
/-- TXN_ABORT (R68). -/
def execTxnAbort (persist : Bool) (s : State) : Out := .next (txnCtrlWrite s (3 + 256 * b2n persist))

/-- TXN_VALIDATION_COMPLETE (R62, R66, R73, R60). -/
def execTxnValidationComplete (s : State) : Out :=
  if txnState s ≠ Txn.preparing then .next s
  else
    let codes := checkAll s s.cfgPend
    match codes.zipIdx.find? (fun p => p.1 != 0) with
    | some (code, i) =>
      .next (txnEnd s Txn.rejected (i + 1) code (codes.zipIdx.foldl (fun m p => if p.1 = 0 then m else m + 2 ^ p.2) 0))
    | none =>
      if mode s = Mode.safeDefault then .next (govSettle (txnSwitch (pass (setTxn s Txn.armed) 1) (txnTarget s) false))
      else if (txnTarget s - 1) * secU ≤ s.now * blankRate s then .next (txnEndSys s Txn.expired 1)
      else .next (setTxn s Txn.armed)

/-! Out of service (R74 to R78). -/

/-- One lane at an opening. -/
def oosLaneOpen (s : State) (l : Nat) : State :=
  let req := bit s Reg.SYS_OOS_LANE l
  let out := bitOf s.sys.oosLane l
  if req && !out then
    let s := { s with sys := { s.sys with oosLane := setBitN s.sys.oosLane l } }
    if (laneOf s l).item.isNone then laneIdle s l else s
  else if !req && out && domOn s (6 + l / 4) then
    setB { s with sys := { s.sys with oosLane := clrBitN s.sys.oosLane l } } Reg.SYS_OOS_ACK_LANE l false
  else s

/-- One unit at an opening. -/
def oosUnitOpen (s : State) (u : Nat) : State :=
  let req := bit s Reg.SYS_OOS_UNIT u
  let out := bitOf s.sys.oosUnit u
  if req && !out then { s with sys := { s.sys with oosUnit := setBitN s.sys.oosUnit u } }
  else if !req && out && domOn s (14 + u) then
    detReturn (setB { s with sys := { s.sys with oosUnit := clrBitN s.sys.oosUnit u } } Reg.SYS_OOS_ACK_UNIT u false) u
  else s

/-- The opening of a blank puts the request masks into effect (R74, R75). -/
def oosAtOpen (s : State) : State :=
  if !runsOos (mode s) then s
  else unitAck ((List.range 9).foldl oosUnitOpen ((List.range 32).foldl oosLaneOpen s))

/-- A request written in the cycle of a transaction's switch takes effect at the same blank (R78). -/
def oosSettle (s : State) : State := govSettle (if s.cyc.switched then oosAtOpen s else s)

/-- A write of SYS_OOS_LANE: one that leaves no lane in service, those that failed their known-answer test counted out (16 R459), is refused while a
kernel-table entry is enabled (R76). -/
def oosLaneWrite (s : State) (v : Nat) : State :=
  if (v ||| s.sys.laneFail) % 2 ^ 32 = 2 ^ 32 - 1 ∧ !(ktEnabled s.cfg).isEmpty then setB s Reg.SYS_OOS_ACK_UNIT 31 true
  else oosSettle (loadUpdate (wr s Reg.SYS_OOS_LANE v))

/-- A write of SYS_OOS_UNIT. -/
def oosUnitWrite (s : State) (v : Nat) : State := oosSettle (wr s Reg.SYS_OOS_UNIT (v % 512))

/-- OOS_LANE_WRITE (R74 to R76). -/
def execOosLaneWrite (v : Word) (s : State) : Out := .next (oosLaneWrite s v.toNat)
/-- OOS_UNIT_WRITE (R74, R75). -/
def execOosUnitWrite (v : Word) (s : State) : Out := .next (oosUnitWrite s v.toNat)

end Sys2Proof.Machine
end

