-- ==== Sys2Proof/Machine/Crypto.lean ====
section
/-! DEFINITION. Key derivation, the key-wrap bank's payload and the configuration digest (17_keys_security.md R475 to R486, R490, R493; 16 R473).
The primitives are Cipher.lean's (log 5). -/

namespace Sys2Proof.Machine

/-! HMAC-SHA-384 and HKDF (RFC 2104, RFC 5869). -/

/-- The octets of an ASCII label. -/
def ascii (t : String) : List Nat := t.toList.map (fun c => c.toNat)

/-- SHA-384 as 48 octets. -/
def sha (m : List Nat) : List Nat := beBytes 48 (sha384 m)

/-- HMAC-SHA-384: blocks of 128 octets. -/
def hmac (key m : List Nat) : List Nat :=
  let k := if 128 < key.length then sha key else key
  let k := k ++ List.replicate (128 - k.length) 0
  sha (k.map (fun b => b ^^^ 0x5C) ++ sha (k.map (fun b => b ^^^ 0x36) ++ m))

/-- The first octets of HKDF-Expand, at most 48. -/
def hkdfExpand (prk info : List Nat) (n : Nat) : List Nat := (hmac prk (info ++ [1])).take n

/-- HKDF-SHA-384; an absent salt acts as zeros. -/
def hkdf (ikm salt info : List Nat) (n : Nat) : List Nat := hkdfExpand (hmac salt ikm) info n

/-! What follows from the root (R478, R479). -/

/-- PRK of a root. -/
def prkOf (root : Nat) : List Nat := hmac (ascii "Porvon Chanis TY8192") (beBytes 48 root)

/-- The storage wrap key. -/
def storageKey (root : Nat) : Nat := ofBe (hkdfExpand (prkOf root) (ascii "TY8192 wrap") 32)

/-- Hash-to-scalar from a counter on; none where it reaches 256. -/
def hashToScalar (prk label : List Nat) : Nat → Nat → Option Nat
  | 0, _ => none
  | n + 1, c =>
    let d := ofBe (hkdfExpand prk (label ++ [c]) 48)
    if 1 ≤ d ∧ d < p384Order then some d else hashToScalar prk label n (c + 1)

/-- The identity scalar d_id. -/
def idScalar (root : Nat) : Option Nat := hashToScalar (prkOf root) (ascii "TY8192 identity") 256 0
/-- The agreement scalar d_ag. -/
def agScalar (root : Nat) : Option Nat := hashToScalar (prkOf root) (ascii "TY8192 agree") 256 0

/-- X then Y of a public key, 96 octets big-endian. -/
def pubBytes (xy : Nat) : List Nat := beBytes 96 xy

/-- The identity public key, X then Y; none without a root. -/
def idPub (s : State) : Option Nat := (s.key.root.bind idScalar).map (fun d => pubKey d % 2 ^ 768)
/-- The agreement public key. -/
def agPub (s : State) : Option Nat := (s.key.root.bind agScalar).map (fun d => pubKey d % 2 ^ 768)

/-- UNIT_ID, its octets read little-endian; 0 without a root. -/
def unitId (s : State) : Nat :=
  match idPub s with
  | some p => ofLe ((sha (4 :: pubBytes p)).take 8)
  | none => 0

/-- A key as its 32 octets. -/
def keyBytes (key : Nat) : List Nat := beBytes 32 key

/-- The KCV of a key, its octets read little-endian. -/
def kcvOf (key : Nat) : Nat := ofLe ((hmac (keyBytes key) (ascii "KCV")).take 4)

/-- Z: the X coordinate of d_ag times a point. -/
def agreeZ (s : State) (point : Nat) : Option (List Nat) :=
  (s.key.root.bind agScalar).map (fun d => beBytes 48 (ecdhX d point))

/-- The twin-link key with a partner (R493). -/
def pairKey (s : State) (partner pub : Nat) : Option Nat :=
  let me := unitId s
  let salt := if me ≤ partner then leBytes 8 me ++ leBytes 8 partner else leBytes 8 partner ++ leBytes 8 me
  (agreeZ s pub).map (fun z => ofBe (hkdf z salt (ascii "TY8192-twin-pair") 32))

/-! Public keys window (KEY windows). -/

/-- The 32 octets of an entry of the public-key window: nothing before R477 step 5 but the owner key. -/
def pubEntry (s : State) (i : Nat) : List Nat :=
  let part (p : Option Nat) (k : Nat) : List Nat := match p with | some p => ((pubBytes p).drop (32 * k)).take 32 | none => List.replicate 32 0
  let open_ := bit s Reg.SYS_STATUS 12
  if i < 3 then part (if open_ then idPub s else none) i
  else if i < 6 then part (if open_ then agPub s else none) (i - 3)
  else if i < 9 then part s.key.owner (i - 6)
  else (if open_ then leBytes 8 (unitId s) else List.replicate 8 0) ++ List.replicate 24 0

/-- The six words of a slot status entry. -/
def slotStatus (s : State) (n : Nat) : List Nat :=
  let k := slotOf s n
  let w := k.st * 2 ^ 30 + k.live * 2 ^ 29 + b2n k.staged * 2 ^ 28 + b2n k.flip.isSome * 2 ^ 27 + b2n k.fault * 2 ^ 26 + k.usage % 16 * 2 ^ 22
    + b2n k.parent.isSome * 2 ^ 21 + k.parent.getD 0 % 512
  let c (x : Option KeyCell) : List Nat := match x with | some c => [c.keyId, c.kcv] | none => [0, 0]
  [w, k.gen] ++ c k.cell0 ++ c k.cell1

/-! The key-wrap bank (R486; Key-wrap bank payload). -/

/-- SYS_ID as additional data. -/
def sysIdBytes : List Nat := leBytes 4 0x7A192001

/-- ROOT_WRAP with an initialisation vector. -/
def rootWrap (s : State) (iv : Nat) : List Nat :=
  match s.key.bbk, s.key.root with
  | some k, some r =>
    let v := beBytes 12 iv
    let ct := gcmText k v (beBytes 48 r)
    let tag := gcmTag k v sysIdBytes (beBytes 48 r)
    leBytes 4 (b2n s.key.rootDone) ++ v ++ (ct.take 48 ++ List.replicate (48 - ct.length) 0) ++ beBytes 16 tag ++ List.replicate 16 0
  | _, _ => List.replicate 96 0

/-- The root in a ROOT_WRAP, with its DONE flag, where its tag verifies (R478). -/
def rootUnwrap (bbk : Option Nat) (w : List Nat) : Option (Nat × Bool) :=
  match bbk with
  | none => none
  | some k =>
    let v := (w.drop 4).take 12
    let pt := gcmText k v ((w.drop 16).take 48)
    if beBytes 16 (gcmTag k v sysIdBytes pt) = (w.drop 64).take 16 ∧ pt.length = 48 then some (ofBe pt, (w.headD 0) % 2 == 1) else none

/-- A cell record, 48 bytes. -/
def cellRec (root : Option Nat) (c : Option KeyCell) : List Nat :=
  match c with
  | some c =>
    leBytes 4 c.keyId ++ leBytes 4 c.kcv ++ (match root with | some r => beBytes 40 (keyWrap (storageKey r) c.key) | none => List.replicate 40 0)
  | none => List.replicate 48 0

/-- The first 16 bytes of a slot record: a DRAINING slot is recorded as EMPTY, and so is one whose only key is staged (R483). -/
def slotHead (k : KeySlot) : List Nat :=
  let live := k.st == 1 && (k.cell k.live).isSome
  if live then
    [1, k.live, k.usage % 256, b2n k.parent.isSome] ++ leBytes 2 (k.parent.getD 0) ++ [0, 0] ++ leBytes 4 k.gen ++ [0, 0, 0, 0]
  else List.replicate 8 0 ++ leBytes 4 k.gen ++ [0, 0, 0, 0]

/-- The cells that a slot record holds: a staged cell is not recorded (R483). -/
def slotCells (k : KeySlot) : Option KeyCell × Option KeyCell :=
  if k.st ≠ 1 ∨ (k.cell k.live).isNone then (none, none)
  else if k.staged then (if k.live = 0 then (k.cell0, none) else (none, k.cell1))
  else (k.cell0, k.cell1)

/-- A slot record, 112 bytes. -/
def slotRec (root : Option Nat) (k : KeySlot) : List Nat :=
  slotHead k ++ cellRec root (slotCells k).1 ++ cellRec root (slotCells k).2

/-- The key-wrap payload of a state (R486), with a new initialisation vector. -/
def keyPayload (s : State) : State × List Nat :=
  let (s, iv) := fresh s (2 ^ 96)
  let owner := match s.key.owner with
    | some p => leBytes 4 1 ++ pubBytes p ++ List.replicate 12 0
    | none => List.replicate 112 0
  let seqs := leBytes 4 (rd s Reg.KEY_SEC_MIN) ++ [0, 0, 0, 0] ++ leBytes 4 (rd s Reg.KEY_CMD_SEQ_LO) ++ leBytes 4 (rd s Reg.KEY_CMD_SEQ_HI)
  let cache := ((List.range 16).map (fun i => match s.key.cache[i]? with
    | some e => leBytes 8 e.seq ++ leBytes 2 e.code ++ leBytes 2 e.status ++ leBytes 4 (b2n e.pend)
    | none => List.replicate 16 0)).flatten
  let arg := s.key.pendArg.take 32
  let pair := match s.key.pair with
    | some p => leBytes 4 1 ++ leBytes 2 p.slot ++ [0, 0] ++ leBytes 8 p.partner ++ pubBytes p.pub ++ List.replicate 16 0
    | none => List.replicate 128 0
  (s, rootWrap s iv ++ owner ++ seqs ++ cache ++ arg ++ List.replicate (32 - arg.length) 0 ++ pair ++ List.replicate 384 0
    ++ ((List.range 512).map (fun n => slotRec s.key.root (slotOf s n))).flatten)

/-- A cell of a record; a key that does not unwrap leaves none. -/
def cellOf (root : Option Nat) (b : List Nat) : Option KeyCell :=
  match root with
  | none => none
  | some r =>
    if b.all (· == 0) then none
    else (keyUnwrap (storageKey r) (ofBe ((b.drop 8).take 40))).map (fun k => ⟨ofLe (b.take 4), ofLe ((b.drop 4).take 4), k % 2 ^ 256⟩)

/-- The slot of a record (R483). -/
def slotOfRec (root : Option Nat) (b : List Nat) : KeySlot :=
  let k : KeySlot := { KeySlot.empty with
    st := 1, live := b.getD 1 0 % 2, usage := b.getD 2 0, gen := ofLe ((b.drop 8).take 4)
    parent := if b.getD 3 0 % 2 = 1 then some (ofLe ((b.drop 4).take 2)) else none
    cell0 := cellOf root ((b.drop 16).take 48), cell1 := cellOf root (b.drop 64) }
  if b.getD 0 0 = 1 ∧ (k.cell k.live).isSome then k else { KeySlot.empty with gen := k.gen }

/-- The key store takes the content of a key-wrap payload, but for the root (R483, R486; R51 step 2). -/
def loadKeys (s : State) (p : List Nat) : State :=
  let le (o n : Nat) : Nat := ofLe ((p.drop o).take n)
  let cache := ((List.range 16).map (fun i => (⟨le (0xE0 + 16 * i) 8, le (0xE8 + 16 * i) 2, le (0xEA + 16 * i) 2, le (0xEC + 16 * i) 4 % 2 == 1⟩ : KeyRes))).filter
    (fun e => e.seq != 0)
  let owner := if le 0x60 4 % 2 = 1 then some (ofBe ((p.drop 0x64).take 96)) else none
  let pair : Option KeyPair := if le 0x200 4 % 2 = 1 then some ⟨le 0x204 2, le 0x208 8, ofBe ((p.drop 0x210).take 96)⟩ else none
  let slots := (chunks 112 512 (p.drop 0x400)).zipIdx.foldl (fun t (b, n) => Tab.set (fun _ => KeySlot.empty) t n (slotOfRec s.key.root b)) ([] : Tab KeySlot)
  let s := { s with key := { s.key with owner := owner, cache := cache, pendArg := (p.drop 0x1E0).take 32, pair := pair, slots := slots } }
  let s := wr (wr (wr s Reg.KEY_SEC_MIN (le 0xD0 4)) Reg.KEY_CMD_SEQ_LO (le 0xD8 4)) Reg.KEY_CMD_SEQ_HI (le 0xDC 4)
  setB (setB s Reg.KEY_STATUS 6 pair.isSome) Reg.SYS_STATUS 11 owner.isSome

/-- KEY_STATUS.BBK_VALID and ROOT_VALID follow the secrets. -/
def keyShow (s : State) : State := setB (setB s Reg.KEY_STATUS 5 s.key.bbk.isSome) Reg.KEY_STATUS 4 s.key.root.isSome

/-- Request a key-wrap bank write of a state's content. -/
def saveKeys (s : State) (who : Nat) : State :=
  let (s, p) := keyPayload s
  requestBank s 2 1 who p

/-! The configuration digest (16 R473). -/

/-- PAYLOAD_HASH of the chuck in use, big-endian octets; zeros while it is EMPTY. -/
def chuckHash (s : State) : List Nat :=
  let c := b2n (bit s Reg.SSK_CHUCK_SEL 0)
  if s.ssk.chuckSt.getD c 0 = 0 then List.replicate 48 0 else Memory.bytes Memory.zero (s.ssk.chucks.getD c []) 0x140 48

/-- The windows that the digest covers. -/
def digestWins : List WinRow :=
  winRows.filter (fun w => w.kind == .trans || (w.idx / 0x10000 == 10 && w.kind == .plain))

/-- CFG_DIGEST, 48 octets: the encoding lists the windows, then the registers (log 31). -/
def cfgDigest (s : State) : List Nat :=
  let tabs := (digestWins.map (fun w => let d := winData s s.cfg w; leBytes 4 w.idx ++ leBytes 4 d.length ++ d)).flatten
  let trans := (txnRegs.filter (fun r => r != Reg.SSK_SWAP_AT_LO && r != Reg.SSK_SWAP_AT_HI)).map (fun r => getC s.cfg r 0 0)
  sha (tabs ++ wordBytes (rd s Reg.ALN_RATE :: trans ++ [s.sys.twinMode, rd s Reg.TWN_MAC_LO, rd s Reg.TWN_MAC_HI]
    ++ ((plainRegs (10, 10)).filter (fun r => !txnRegs.contains r)).map (rd s)) ++ chuckHash s)

end Sys2Proof.Machine
end

