-- ==== Sys2Proof/Machine/Energy.lean ====
section
/-! DEFINITION. Energy and harmonic metering (13_energy_metering.md): the quantities of a cycle, directions and accumulators, intervals, harmonic
blocks, saves, the finding at the exit from BOOT, and pulse inputs. -/

namespace Sys2Proof.Machine

/-! Settings. -/

/-- NRG_CTRL.INT_S as it acts, s. -/
def intS (s : State) : Nat := max 1 (min 3600 (fld s Reg.NRG_CTRL 31 20))
/-- The save interval in the units of device time. -/
def saveIvl (s : State) : Nat := max 1 (min 240 (fld s Reg.NRG_CTRL 15 8)) * 250 * msU
/-- Is a circuit metered? -/
def cirEn (s : State) (c : Nat) : Bool := bitOf (getN s Win.NRG_CIR c 0) 31
/-- Its elements. -/
def cirElems (s : State) (c : Nat) : Nat := max 1 (bits (getN s Win.NRG_CIR c 0) 29 28)
/-- Does the engine accumulate? (R400) -/
def accumulates (m : Nat) : Bool := runsAlarms m || runsShadow m

def circOf (s : State) (c : Nat) : Circ := s.nrg.circ.getD c Circ.reset
def setCirc (s : State) (c : Nat) (x : Circ) : State := { s with nrg := { s.nrg with circ := s.nrg.circ.set c x } }

/-- The accumulators as they stood at the start of the fabric cycle; a change of them notes that first (R396). -/
def accsThen (s : State) : List (List Nat) := s.cyc.accs.getD (s.nrg.circ.map (·.acc))
def noteAccs (s : State) : State := { s with cyc := { s.cyc with accs := some (accsThen s) } }

/-! The quantities of one element (R390): exact values in fixed point, each result a binary64 number near its exact value (log 8). -/

/-- A binary64 number moved by at most 16 places. -/
def ulp16 (kind : Nat) (args : List Nat) (x : Nat) : Nat :=
  if !isFin f64 x then x
  else
    let n := Config.ulp kind args % 33
    if n < 16 then iter (fprev f64) (16 - n) x else iter (fnext f64) (n - 16) x

/-- A binary32 word times a fixed-point value, as binary64. -/
def gainBy (kind : Nat) (args : List Nat) (g : Nat) (x : Int) : Nat :=
  if isFin f32 g then ulp16 kind args (((dyOf f32 g).mul (ofFx x)).pack f64 .near)
  else fmul f64 .near (fcvt f32 f64 .near g) (fxPack f64 .near x)

/-- cos and sin of 2π k / 256. -/
def twiddle : List (Int × Int) := (List.range 256).map (fun (k : Nat) => (fxCos (2 * fxPi * (k : Int) / 256), fxSin (2 * fxPi * (k : Int) / 256)))

/-- The phasor of order `h` of 256 samples in fixed point. -/
def harmPhasor (tw : List (Int × Int)) (xs : List Int) (h : Nat) : Int × Int :=
  let sum (f : Int × Int → Int) : Int :=
    fxMul (fxSqrt (2 * fxOne)) ((xs.zipIdx.foldl (fun a (x, m) => a + x * f (tw.getD (h * m % 256) (0, 0))) 0) / fxOne) / 256
  (sum (·.1), -sum (·.2))

/-- √max(0, mean of squares − OFS²). -/
def rmsLess (kind : Nat) (args : List Nat) (xs : List Int) (ofs : Nat) : Nat :=
  if !isFin f32 ofs then f64.nan
  else
    let m := xs.foldl (fun a x => a + fxMul x x) 0 / (xs.length : Int)
    ulp16 kind args (sqrtRnd f64 .near (ofFx (max 0 (m - fxMul (dyOf f32 ofs).fx (dyOf f32 ofs).fx))))

/-- Results of one element: P_T, Q_T, P_F, Q_F, S, and what the harmonic block takes of it. -/
structure ElRes where
  pt : Nat
  qt : Nat
  pf : Nat
  qf : Nat
  ap : Nat
  harm : HarmEl
deriving DecidableEq, Repr

/-- An element whose results are not numbers. -/
def ElRes.nan : ElRes :=
  let n := f64.nan
  ⟨n, n, n, n, n, ⟨List.replicate 63 n, List.replicate 63 n, List.replicate 63 n, n, n⟩⟩

/-- One element's cycle from its samples (binary32 patterns) and its calibration words. -/
def elCycle (cal : List Nat) (xs ys : List Nat) : ElRes :=
  let pg := cal.getD 0 0
  let qg := cal.getD 1 0
  let ph := cal.getD 2 0
  if (xs ++ ys).any (fun x => !isFin f32 x) || xs.isEmpty then ElRes.nan
  else
    let args := cal ++ xs ++ ys
    let vx := xs.map (fun x => (dyOf f32 x).fx)
    let ix := ys.map (fun x => (dyOf f32 x).fx)
    let vi := ((vx.zip ix).foldl (fun a p => a + fxMul p.1 p.2) 0) / (xs.length : Int)
    let vr := rmsLess 61 args vx (cal.getD 3 0)
    let ir := rmsLess 62 args ix (cal.getD 4 0)
    let ap := ulp16 63 args (fmul f64 .near vr ir)
    if xs.length < 256 then { ElRes.nan with pt := gainBy 60 args pg vi, ap := ap }
    else if !isFin f32 ph then { ElRes.nan with ap := ap }
    else
      let tw := twiddle
      let hs := (List.range 63).map (fun j =>
        let h := j + 1
        let v := harmPhasor tw vx h
        let i := harmPhasor tw ix h
        let re := fxMul v.1 i.1 + fxMul v.2 i.2
        let im := fxMul v.2 i.1 - fxMul v.1 i.2
        let a := (dyOf f32 ph).fx * h
        let zr := fxMul re (fxCos a) - fxMul im (fxSin a)
        let zi := fxMul re (fxSin a) + fxMul im (fxCos a)
        (h, fxMul v.1 v.1 + fxMul v.2 v.2, fxMul i.1 i.1 + fxMul i.2 i.2, re, zr, zi))
      let p := hs.map (fun x => gainBy 64 (x.1 :: args) pg x.2.2.2.2.1)
      let q := hs.map (fun x => gainBy 65 (x.1 :: args) qg x.2.2.2.2.2)
      ⟨gainBy 60 args pg (vi + hs.foldl (fun a x => a + (x.2.2.2.2.1 - x.2.2.2.1)) 0), q.foldl (fadd f64 .near) 0,
       p.getD 0 0, q.getD 0 0, ap,
       ⟨hs.map (fun x => ulp16 66 (x.1 :: args) (fxPack f64 .near x.2.1)), hs.map (fun x => ulp16 67 (x.1 :: args) (fxPack f64 .near x.2.2.1)), p, vr, ir⟩⟩

/-! Directions and increments (R393 to R395). -/

/-- Powers of a circuit in a cycle, binary64: P_T, Q_T, P_F, Q_F, S. -/
structure CircP where
  pt : Nat
  qt : Nat
  pf : Nat
  qf : Nat
  ap : Nat
deriving DecidableEq, Repr

/-- Is a power positive, is it negative? -/
def posF (x : Nat) : Bool := flt f64 0 x
def negF (x : Nat) : Bool := flt f64 x 0

/-- The held direction of one kind after a cycle: true for export. -/
def dirAfter (creep p : Nat) (was : Bool) : Bool :=
  if fle f64 creep (fabs f64 p) then (if posF p then false else if negF p then true else was) else was

/-- What a kind's cycle adds: accumulator and power, for base index `w` of its Wh pair and `q` of its quadrants. -/
def kindAdds (creep p q : Nat) (exp : Bool) (w v : Nat) : List (Nat × Nat) :=
  (if fle f64 creep (fabs f64 p) && (posF p || negF p) then [(w + b2n (negF p), fabs f64 p)] else []) ++
  (if fle f64 creep (fabs f64 q) then
    [(v + (match exp, negF q with | false, false => 0 | true, false => 1 | true, true => 2 | false, true => 3), fabs f64 q)]
   else [])

/-- An increment in 2^-32 of a milli-unit, rounded to the nearest: power × T / 3,600; free where the power is not a number (R395). -/
def increment (s : State) (p t : Nat) : State × Nat :=
  if !isFin f64 p then fresh s (2 ^ 96)
  else
    let d := dyOf f64 p
    let n := d.m.natAbs * t * 1000 * 2 ^ 32 * 2 ^ d.e.toNat
    let k := secU * 3600 * 2 ^ (-d.e).toNat
    (s, (2 * n + k) / (2 * k))

/-- The increments of a cycle and the directions after it. -/
def cycleIncs (s : State) (creep dirs : Nat) (p : CircP) (t : Nat) : State × List Nat × Nat :=
  let et := dirAfter creep p.pt (bitOf dirs 0)
  let ef := dirAfter creep p.pf (bitOf dirs 1)
  let adds := kindAdds creep p.pt p.qt et 0 4 ++ kindAdds creep p.pf p.qf ef 2 8 ++
    (if fle f64 creep (fabs f64 p.pt) || fle f64 creep (fabs f64 p.qt) then [(12 + b2n et, p.ap)] else [])
  let (s, l) := adds.foldl (fun (s, l) (a, w) =>
    let (s, n) := increment s w t
    (s, l.set a n)) (s, List.replicate 14 0)
  (s, l, b2n et + 2 * b2n ef)

/-- Accumulators wrap at 2^64 of their unit. -/
def accAdd (a b : List Nat) : List Nat := (a.zip b).map (fun p => (p.1 + p.2) % 2 ^ 96)
def accSub (a b : List Nat) : List Nat := (a.zip b).map (fun p => (p.1 + 2 ^ 96 - p.2 % 2 ^ 96) % 2 ^ 96)

/-! Intervals (R397, R398). -/

/-- The 160 bytes of an interval record. -/
def ivalBytes (s : State) (rseq c flags : Nat) (v : Ival) (acc : List Nat) : List Nat :=
  let a := leBytes 8 rseq ++ leBytes 8 v.start ++ leBytes 4 (v.dur / msU) ++ leBytes 2 (fld s Reg.SYS_STATUS 31 16) ++ [c, flags % 32]
    ++ leBytes 4 v.cycles ++ leBytes 2 (min v.short 65535) ++ leBytes 2 (min v.nan 65535) ++ leBytes 4 (v.unmeas / msU)
    ++ leBytes 2 (min v.revs 65535) ++ [0, 0] ++ leBytes 4 (v.firstRev.getD 0xFFFFFFFF)
  let d := ((acc.zip v.base).map (fun p => leBytes 8 ((p.1 / 2 ^ 32 + 2 ^ 64 - p.2 / 2 ^ 32) % 2 ^ 64))).flatten
  a ++ leBytes 4 (crc32c (a ++ d)) ++ d

/-- An interval closes and its record is written (R398). -/
def closeIval (s : State) (c : Nat) (flag : Nat) : State :=
  let x := circOf s c
  match x.ival with
  | none => s
  | some v =>
    let (s, q) := nextRseq s
    let slot := fld s Reg.NRG_IR_HEAD 11 0
    let b := ivalBytes s q c (v.flags ||| flag) v x.acc
    let s := setCirc { s with nrg := { s.nrg with irs := Tab.put s.nrg.irs slot b } } c { x with ival := none }
    pushDev (setF s Reg.NRG_IR_HEAD 11 0 (slot + 1)) 0x0400 [c + slot * 65536]

/-- A new interval for a cycle that starts at `t`; it carries a restored circuit's mark. -/
def openIval (s : State) (c t : Nat) : State :=
  let x := circOf s c
  let sec := t / secU
  setCirc s c { x with ival := some ⟨sec / intS s * intS s, intS s, 0, x.mark, 0, 0, 0, 0, 0, none, x.acc⟩, mark := 0 }

/-- A cycle joins the interval it belongs to; `record`: the interval it leaves behind writes its record. -/
def toIval (s : State) (c t0 : Nat) (record : Bool) : State :=
  match (circOf s c).ival with
  | none => openIval s c t0
  | some v =>
    if (v.start + v.len) * secU ≤ t0 then
      openIval (if record then closeIval s c 0 else setCirc s c { circOf s c with ival := none }) c t0
    else if t0 < v.start * secU then setCirc s c { circOf s c with ival := some { v with flags := v.flags ||| 8 } }
    else s

/-- A step of device time from `t0` to `t1`: intervals carried past their end, and every interval after a backward step, have STEP set (R397). -/
def nrgStep (s : State) (t0 t1 : Nat) : State :=
  { s with nrg := { s.nrg with circ := s.nrg.circ.map (fun x => { x with ival := x.ival.map (fun v =>
    if t1 < t0 ∨ (v.start + v.len) * secU ≤ t1 then { v with flags := v.flags ||| 8 } else v) }) } }

/-- A cycle's effect on accumulators, directions and interval; the cycle is kept among the last 256 (R401). -/
def applyCycle (s : State) (c : Nat) (e : CycLog) (unlocked record : Bool) : State :=
  let s := noteAccs (toIval s c e.t0 record)
  let x := circOf s c
  let t := e.t1 - e.t0
  let iv := x.ival.map (fun v =>
    { v with
      dur := v.dur + t
      flags := if unlocked then v.flags ||| 16 else v.flags
      cycles := v.cycles + 1
      short := v.short + b2n (e.kind == 1)
      nan := v.nan + b2n (e.kind == 2)
      unmeas := v.unmeas + (if e.kind = 2 then t else 0)
      revs := v.revs + b2n e.rev
      firstRev := if e.rev && v.firstRev.isNone then some ((e.t0 - v.start * secU) / msU) else v.firstRev })
  setCirc s c { x with acc := accAdd x.acc e.incs, dirs := e.dirs, ival := iv }

/-! Harmonic blocks (R399). -/

/-- √(a / b). -/
def sqrtQ (a b : Dy) : Nat := sqrtRnd f32 .near ⟨a.m.natAbs * 2 ^ 512 / b.m.natAbs, a.e - b.e - 512⟩

/-- The sum of binary64 numbers, none where one is not finite. -/
def sum64 (l : List Nat) : Option Dy :=
  if l.any (fun x => !isFin f64 x) then none else some (l.foldl (fun d x => d.add (dyOf f64 x)) (Dy.ofInt 0))

/-- The words of a block's results for one element: V_RMS, I_RMS, THD_V, THD_I, then |V_h|, |I_h|, P_h, 0 for each order. -/
def harmResults (cyc : List HarmEl) : List Nat :=
  let n := Dy.ofInt (cyc.length : Nat)
  let rmsQ (k : Nat) (f : HarmEl → Nat) : Nat :=
    match cyc.isEmpty, sum64 (cyc.map f) with | false, some d => ulp1 k (cyc.map f) (sqrtQ d n) | _, _ => f32.nan
  let mean (k : Nat) (f : HarmEl → Nat) : Nat :=
    match cyc.isEmpty, sum64 (cyc.map f) with | false, some d => ulp1 k (cyc.map f) (divRnd f32 .near d n) | _, _ => f32.nan
  let thd (k : Nat) (f : HarmEl → List Nat) : Nat :=
    match sum64 (cyc.map (fun e => (f e).getD 0 0)), sum64 ((cyc.map (fun e => (f e).drop 1)).flatten) with
    | some a, some b => if cyc.isEmpty || a.m = 0 then f32.nan else ulp1 k (cyc.map (fun e => (f e).getD 0 0)) (sqrtQ b a)
    | _, _ => f32.nan
  let sq (x : Nat) : Nat := fmul f64 .near x x
  [rmsQ 70 (fun e => sq e.vrms), rmsQ 71 (fun e => sq e.irms), thd 72 (·.v2), thd 73 (·.i2)] ++
  ((List.range 63).map (fun j => [rmsQ 74 (fun e => e.v2.getD j 0), rmsQ 75 (fun e => e.i2.getD j 0), mean 76 (fun e => e.p.getD j 0), 0])).flatten

/-- A cycle counts toward the block; at its end the results are written. -/
def harmCycle (s : State) (c : Nat) (data : Option (List HarmEl)) : State :=
  let x := circOf s c
  let n := x.hn + 1
  let cyc := x.hcyc ++ data.toList
  if n < (if fnom s = 60 then 12 else 10) then setCirc s c { x with hn := n, hcyc := cyc }
  else
    let put (t : Tab Nat) (e : Nat) : Tab Nat :=
      (harmResults (cyc.map (fun l => l.getD e ElRes.nan.harm))).zipIdx.foldl
        (fun t (w, j) => Tab.set (fun _ => 0) t ((c * 256 + e * 64) * 4 + j) w) t
    setCirc { s with nrg := { s.nrg with harm := (List.range (cirElems s c)).foldl put s.nrg.harm } } c { x with hn := 0, hcyc := [] }

/-! A cycle (R390 to R397). -/

/-- At the first cycle after a restart the saved interval closes, and an outage's span ends (R404). -/
def firstCycle (s : State) (c : Nat) : State :=
  let s := match s.nrg.outage with
    | some r => setF { s with nrg := { s.nrg with outage := none } } Reg.NRG_GAP_LEN 28 0 (min ((rtcNow s - r) * 100 / 32768) (2 ^ 29 - 1))
    | none => s
  if (circOf s c).restored then
    let s := closeIval s c 1
    setCirc s c { circOf s c with restored := false }
  else s

/-- What a cycle does once its powers are known: `p` none for a NaN cycle. -/
def meterCycle (s : State) (c t0 t1 kind : Nat) (p : Option CircP) : State :=
  let s := firstCycle s c
  let x := circOf s c
  let creep := fcvt f32 f64 .near (wordAt s Win.NRG_CIR c 4 t0)
  let dir := bitOf (wordAt s Win.NRG_CIR c 0 t0) 30
  let sg (v : Nat) : Nat := if dir && !isNaN f64 v then fneg f64 v else v
  let unl := unlockedIn s (trkRef s) t0 s.now
  let (s, incs, dirs) := match p with
    | none => (s, List.replicate 14 0, x.dirs)
    | some q => cycleIncs s creep x.dirs ⟨sg q.pt, sg q.qt, sg q.pf, sg q.qf, q.ap⟩ (t1 - t0)
  let e : CycLog := ⟨t0, t1, kind, incs, bitOf dirs 0 != bitOf x.dirs 0, dirs, x.dirs, x.ival⟩
  let s := applyCycle s c e unl true
  let x := circOf s c
  let gone := if runsShadow (mode s) then ((x.log.drop 255).map (·.t1)) ++ x.gone else []
  setCirc s c { x with log := (e :: x.log).take 256, gone := gone }

/-- Sum a quantity over elements. -/
def sumEl {α : Type} (l : List α) (f : α → Nat) : Nat := l.foldl (fun a e => fadd f64 .near a (f e)) 0

/-- f_c of the reference cycle that starts at `t0`: the frequency of the cycle before it while the reference tracker is locked, else FNOM (R381). -/
def cycleFreq (s : State) (t0 : Nat) : Nat :=
  let f := match (trkOf s (trkRef s)).cycs.find? (fun c => c.2.1 == t0) with
    | some c => c.2.2
    | none => fofInt f32 (fnom s)
  if trkLocked s (trkRef s) then f else fofInt f32 (fnom s)

/-- The output instants of a reference cycle: t_c + m / (256 f_c), those before the next start (R381). -/
def cycleInstants (s : State) (t0 t1 : Nat) : List Nat :=
  let d := dyOf f32 (cycleFreq s t0)
  let p := 256 * d.m.toNat * 2 ^ d.e.toNat
  ((List.range 256).map (fun m => t0 + m * secU * 2 ^ (-d.e).toNat / p)).filter (fun t => decide (t < t1))

/-- The end of the reference cycle that starts at `t0`: the next crossing of the reference tracker while it is locked, else 1 / FNOM later (R381). -/
def cycleEnd (s : State) (t0 : Nat) : Nat :=
  let ref := trkRef s
  let y := t0 + secU / fnom s
  match ((trkOf s ref).cycs.filter (fun c => decide (t0 < c.2.1))).getLast? with
  | some c => if c.2.1 ≤ y || !unlockedIn s ref t0 y then c.2.1 else y
  | none => y

/-- METER_CYCLE_COMPLETE (R390 to R400): the reference cycle that follows the circuit's last, or, where none stands before it, the one from second
`tSec` and `tTick` on, device time with ticks of 1/65,536 ns (log 157); `v` and `i` hold each element's samples; one that a list does not reach was not produced. -/
def execMeterCycleComplete (circuit : Fin 8) (tSec tTick : Nat) (v i : List (List GridTaps)) (s : State) : Out :=
  let c := circuit.val
  let t0 := match (circOf s c).next with
    | some t => if t ≤ s.now then t else tSec * secU + tTick * 2 ^ 32
    | none => tSec * secU + tTick * 2 ^ 32
  let t1 := cycleEnd s t0
  if !cirEn s c || gated s Reg.NRG_CTRL || t1 ≤ t0 || !(accumulates (mode s) || mode s == Mode.diagnostic) then .next s
  else
    let s := inc (passTo s t1) Reg.NRG_CYCLES
    let els := (List.range (cirElems s c)).map (fun e =>
      let w := getN s Win.NRG_CIR c (1 + e)
      let vch := bits w 20 16
      let ich := bits w 5 0
      let vs := v.getD e []
      let is := i.getD e []
      let ts := (cycleInstants s t0 t1).take (min vs.length is.length)
      let n := ts.length
      (n, (if vch < 24 then chSamples s false vch ts vs else List.replicate n f32.nan), chSamples s false ich ts is,
        (List.range 5).map (fun j => wordAt s Win.NRG_CAL (4 * c + e) j t0)))
    let isNan := els.any (fun x => (x.2.1 ++ x.2.2.1).any (isNaN f32))
    let full := els.all (fun x => x.1 == 256)
    let last := (circOf s c).lastFull
    let s := { s with nrg := { s.nrg with circ := s.nrg.circ.set c { circOf s c with lastEnd := t1, next := some t1 } } }
    if isNan || (!full && last.isNone) then
      let s := inc s Reg.NRG_NAN
      let s := if accumulates (mode s) then meterCycle s c t0 t1 2 none else s
      .next (harmCycle s c none)
    else
      let rs := els.map (fun x => elCycle x.2.2.2 x.2.1 x.2.2.1)
      if full then
        let s := setCirc s c { circOf s c with lastFull := some (rs.map (fun r => (r.pf, r.qf, r.qt))) }
        let p : CircP := ⟨sumEl rs (·.pt), sumEl rs (·.qt), sumEl rs (·.pf), sumEl rs (·.qf), sumEl rs (·.ap)⟩
        let s := if accumulates (mode s) then meterCycle s c t0 t1 0 (some p) else s
        .next (harmCycle s c (some (rs.map (·.harm))))
      else
        let s := inc s Reg.NRG_SHORT
        let l := last.getD []
        let p : CircP := ⟨sumEl rs (·.pt), sumEl l (·.2.2), sumEl l (·.1), sumEl l (·.2.1), sumEl rs (·.ap)⟩
        let s := if accumulates (mode s) then meterCycle s c t0 t1 1 (some p) else s
        .next (harmCycle s c none)

/-! The state at a cut (R401, R402). -/

/-- A circuit as it stood at a cut time: later cycles are taken back. -/
def Circ.atCut (x : Circ) (cut : Nat) : Circ :=
  (x.log.filter (fun e => decide (cut < e.t1))).foldl
    (fun x e => { x with acc := accSub x.acc e.incs, dirs := e.dirsWas, ival := e.was }) x

/-- The boundary of the last cycle completed in every circuit. -/
def cutTime (s : State) : Nat :=
  (List.range 8).foldl (fun t c => if cirEn s c && decide (0 < (circOf s c).lastEnd) then min t (circOf s c).lastEnd else t) s.now

/-- Word `j` of a pulse entry, 64-bit register and count of an input. -/
def plsReg (s : State) (n : Nat) : Nat := getN s Win.NRG_PLS n 2 + getN s Win.NRG_PLS n 3 * 2 ^ 32
def plsCount (s : State) (n : Nat) : Nat := getN s Win.NRG_PLS n 4
def setPls (s : State) (n reg cnt : Nat) : State :=
  putN (putN (putN s Win.NRG_PLS n 2 (reg % 2 ^ 32)) Win.NRG_PLS n 3 (reg / 2 ^ 32)) Win.NRG_PLS n 4 cnt

/-- An input's register and count at a cut time. -/
def plsAtCut (s : State) (n cut : Nat) : Nat × Nat :=
  (s.nrg.plog.filter (fun p => decide (cut < p.1) && p.2.1 == n)).foldl
    (fun a p => ((a.1 + 2 ^ 64 - p.2.2) % 2 ^ 64, (a.2 + 2 ^ 32 - 1) % 2 ^ 32)) (plsReg s n, plsCount s n)

/-- The parts of an energy payload from 0x0018 on: accumulators, pulse registers, intervals in progress, held directions. -/
def energyBody (s : State) (cut : Nat) : List Nat :=
  let cs := s.nrg.circ.map (fun x => x.atCut cut)
  (cs.map (fun x => (x.acc.map (fun a => leBytes 8 (a / 2 ^ 32) ++ leBytes 4 a)).flatten)).flatten ++
  ((List.range 16).map (fun n => let p := plsAtCut s n cut; leBytes 8 p.1 ++ leBytes 4 p.2 ++ [0, 0, 0, 0])).flatten ++
  (cs.zipIdx.map (fun (x, c) => match x.ival with | some v => ivalBytes s 0 c v.flags v x.acc | none => List.replicate 160 0)).flatten ++
  cs.map (fun x => x.dirs)

/-- The energy bank payload (13, Energy bank payload) of the state at a cut time, with t_c+1 of the last cycle included. -/
def energyPayload (s : State) (last cut cause : Nat) : List Nat :=
  leBytes 8 (last / secU) ++ leBytes 4 (last / nsU % 1000000000) ++ [cause, b2n (bit s Reg.NRG_STATUS 1)]
    ++ leBytes 2 (fld s Reg.SYS_STATUS 31 16) ++ leBytes 8 (rtcNow s) ++ energyBody s cut

/-- Is an energy save being written? -/
def saving (s : State) : Bool := s.nvs.bw.any (fun w => w.kind == 1)

/-- Start a save. -/
def startSave (s : State) (cause cls who : Nat) : State :=
  setB (requestBank s 1 cls who (energyPayload s (cutTime s) (cutTime s) cause)) Reg.NRG_STATUS 3 true

/-- ENERGY_PERIODIC_SAVE (R402). -/
def execEnergyPeriodicSave (s : State) : Out :=
  if !runsAlarms (mode s) then .next s
  else
    let s := passTo s s.nrg.saveDue
    let s := { s with nrg := { s.nrg with saveDue := s.nrg.saveDue + saveIvl s } }
    .next (if saving s then inc s Reg.NRG_SAVE_SKIP else startSave s 1 3 3)

/-! Modes (R400, R402, R403). -/

/-- Every interval in progress closes early. -/
def closeAll (s : State) : State := (List.range 8).foldl (fun s c => closeIval s c 1) s

/-- A circuit's cycle in progress is closed as a short cycle that ends now; its P_T and S rest on samples that no command carries and are free (R403). -/
def cutCycle (s : State) (c : Nat) : State :=
  let x := circOf s c
  let t0 := x.next.getD s.now
  if !cirEn s c || s.now ≤ t0 then s
  else
    let s := inc (setCirc s c { x with lastEnd := s.now, next := none }) Reg.NRG_CYCLES
    match x.lastFull with
    | none => meterCycle (inc s Reg.NRG_NAN) c t0 s.now 2 none
    | some l =>
      let (s, a) := fresh s (2 ^ 64)
      let (s, b) := fresh s (2 ^ 64)
      meterCycle (inc s Reg.NRG_SHORT) c t0 s.now 1 (some ⟨a, sumEl l (·.2.2), sumEl l (·.1), sumEl l (·.2.1), b⟩)

/-- What a mode transition does to metering: `s` is in the mode `now`. -/
def nrgMode (s : State) (was now : Nat) : State :=
  let s :=
    if !runsAlarms was || was = now then s
    else if now = Mode.lastGasp then
      let s := closeAll ((List.range 8).foldl cutCycle s)
      startSave { s with nvs := { s.nvs with bw := s.nvs.bw.filter (fun w => w.kind != 1) } } 2 0 4
    else startSave (closeAll s) 3 3 5
  let s := setB (setB s Reg.NRG_STATUS 1 (runsAlarms now)) Reg.NRG_STATUS 2 (runsShadow now)
  if runsAlarms now && !runsAlarms was then { s with nrg := { s.nrg with saveDue := s.now + saveIvl s } } else s

/-! The exit from BOOT (R404). -/

/-- A little-endian field of a payload. -/
def payLe (p : List Nat) (off n : Nat) : Nat := ofLe ((p.drop off).take n)

/-- The interval in progress that a record's bytes spell; none where every byte is 0. -/
def ivalOf (s : State) (p acc : List Nat) : Option Ival :=
  if p.all (· == 0) then none
  else
    let fr := payLe p 40 4
    some ⟨payLe p 8 8, intS s, payLe p 16 4 * msU, payLe p 23 1, payLe p 24 4, payLe p 28 2, payLe p 30 2, payLe p 32 4 * msU,
      payLe p 36 2, if fr = 0xFFFFFFFF then none else some fr,
      acc.zipIdx.map (fun (a, q) => (a + 2 ^ 96 - payLe p (48 + 8 * q) 8 * 2 ^ 32) % 2 ^ 96)⟩

/-- Accumulators, pulse registers, intervals and directions take the values of an energy body. -/
def loadEnergy (s : State) (p : List Nat) : State :=
  let one (c : Nat) (x : Circ) : Circ :=
    let acc := (List.range 14).map (fun q => payLe p ((c * 14 + q) * 12) 8 * 2 ^ 32 + payLe p ((c * 14 + q) * 12 + 8) 4)
    { x with acc := acc, ival := ivalOf s ((p.drop (0x640 + 160 * c)).take 160) acc, dirs := payLe p (0xB40 + c) 1 % 4 }
  let s := noteAccs s
  let s := { s with nrg := { s.nrg with circ := s.nrg.circ.zipIdx.map (fun (x, c) => one c x) } }
  (List.range 16).foldl (fun s n => setPls s n (payLe p (0x540 + 16 * n) 8) (payLe p (0x540 + 16 * n + 8) 4)) s

/-- The finding, from the newest valid energy bank and the power-fail stamp. -/
def nrgBoot (s : State) : State :=
  let stamp := s.pwr.stamp
  let s := { s with pwr := { s.pwr with stamp := none } }
  match (bankPick s 1).1 with
  | none => s
  | some b =>
    let p := bankPayload s 1 b
    let gap := payLe p 12 1 == 1
    let rtc := payLe p 16 8
    let s := loadEnergy s (p.drop 24)
    let mark := if gap then 2 else 4
    let s := { s with nrg := { s.nrg with
      circ := s.nrg.circ.map (fun x => { x with mark := mark, restored := x.ival.isSome })
      outage := if gap then none else some rtc } }
    let till := if gap then stamp.getD (rtcNow s) else rtcNow s
    let len := min ((till - rtc) * 100 / 32768) (2 ^ 29 - 1)
    let w := (if gap then 2 else 1) * 2 ^ 30 + b2n (gap && stamp.isNone) * 2 ^ 29 + len
    let s := wr (wr (wr s Reg.NRG_GAP_SEC_LO (payLe p 0 4)) Reg.NRG_GAP_SEC_HI (payLe p 4 4)) Reg.NRG_GAP_LEN w
    let s := if gap then setHealth s Health.unmeteredGap true else s
    pushDev (logRec s 0x0070 (leBytes 4 w ++ p.take 8)) 0x0401 [w]

/-! Registers and windows. -/

/-- A write of NRG_CTRL (R396): the copy is made in the write's own cycle (log 14), of the accumulators as they stood at its start. -/
def nrgCtrlWrite (s : State) (v : Nat) : State :=
  ungated s Reg.NRG_CTRL fun s =>
    let s := wr s Reg.NRG_CTRL (bits v 31 20 * 2 ^ 20 + bits v 15 8 * 256)
    if bitOf v 0 then
      let l := ((accsThen s).zipIdx.map (fun (x, c) => x.zipIdx.map (fun (a, q) => (c * 16 + q, a)))).flatten
      { s with nrg := { s.nrg with snap := l.filter (fun p => p.2 != 0) } }
    else s

/-- ENERGY_SNAPSHOT (R396). -/
def execEnergySnapshot (v : Word) (s : State) : Out := .next (nrgCtrlWrite s v.toNat)

/-- A write of a circuit entry (R389, R397). -/
def nrgCirWrite (s : State) (c : Nat) (data : List Nat) : State :=
  let d0 := bits (data.getD 0 0) 31 28 * 2 ^ 28
  let ch (j : Nat) : Nat := let w := data.getD j 0; bits w 20 16 * 65536 + bits w 5 0
  let was := cirEn s c
  let en := bitOf d0 31
  let moved := bits d0 29 28 != bits (getN s Win.NRG_CIR c 0) 29 28 || [1, 2, 3].any (fun j => ch j != getN s Win.NRG_CIR c j)
  if was && en && moved then setB s Reg.NRG_STATUS 0 true
  else
    let s := if was = en then s
      else
        let s := if accumulates (mode s) then closeIval s c 1 else setCirc s c { circOf s c with ival := none }
        let x := circOf s c
        setCirc s c { x with dirs := if en then 0 else x.dirs, lastFull := none, lastEnd := 0, next := none, hn := 0, hcyc := [], log := [] }
    let s := changeWord s Win.NRG_CIR c 0 d0
    let s := [1, 2, 3].foldl (fun s j => putN s Win.NRG_CIR c j (ch j)) s
    changeWord s Win.NRG_CIR c 4 (data.getD 4 0)

/-- A write of a calibration entry (R391). -/
def nrgCalWrite (s : State) (i : Nat) (data : List Nat) : State :=
  (List.range 5).foldl (fun s j => changeWord s Win.NRG_CAL i j (data.getD j 0)) s

/-- A write of a pulse entry: the RO words keep their values (R41). -/
def nrgPlsWrite (s : State) (n : Nat) (data : List Nat) : State :=
  let d := data.getD 0 0
  putN (putN s Win.NRG_PLS n 0 (bits d 31 31 * 2 ^ 31 + bits d 29 28 * 2 ^ 28 + bits d 15 0)) Win.NRG_PLS n 1 (data.getD 1 0)

/-- PULSE_EDGE_ACCEPT (R405). -/
def execPulseEdgeAccept (input : Fin 16) (rising : Bool) (s : State) : Out :=
  let n := input.val
  let e := getN s Win.NRG_PLS n 0
  if !bitOf e 31 || gated s Reg.NRG_CTRL || !accumulates (mode s) || !bitOf (bits e 29 28) (b2n (!rising)) then .next s
  else
    let deb := bits e 15 0
    let tag := feNow s - (if deb = 0 then 10 else deb * 1000) * nsU
    let w := getN s Win.NRG_PLS n 1
    let s := setPls s n ((plsReg s n + w) % 2 ^ 64) (plsCount s n + 1)
    let ns := tag / nsU
    let sec := ns / 1000000000
    let s := putN (putN (putN s Win.NRG_PLS n 5 (sec % 2 ^ 32)) Win.NRG_PLS n 6 (sec / 2 ^ 32)) Win.NRG_PLS n 7 (ns % 1000000000)
    .next { s with nrg := { s.nrg with plog := (s.now, n, w) :: s.nrg.plog.filter (fun p => decide (s.now ≤ p.1 + 60 * secU)) } }

/-! For the twin (R401) and for NRG_CLEAR (R395). -/

/-- A copy is applied: the copied values, then this unit's own cycles since each circuit's cut time, in whole ns, and pulses since `pcut`. -/
def nrgApplyCopy (s : State) (cut : Nat → Nat) (pcut : Nat) (body : List Nat) : State :=
  let own := s.nrg.circ.map (fun x => x.log)
  let lost := s.nrg.circ.zipIdx.map (fun (x, c) => (x.gone.filter (fun t => decide (cut c < t / nsU))).length)
  let s := { s with nrg := { s.nrg with circ := s.nrg.circ.map (fun x => { x with gone := [] }) } }
  let s := loadEnergy s body
  let s := (List.range 8).foldl (fun s c =>
    ((own.getD c []).filter (fun e => decide (cut c < e.t1 / nsU))).reverse.foldl (fun s e => applyCycle s c e false false) s) s
  let s := (s.nrg.plog.filter (fun p => decide (pcut < p.1 / nsU))).foldl (fun s p =>
    setPls s p.2.1 ((plsReg s p.2.1 + p.2.2) % 2 ^ 64) (plsCount s p.2.1 + 1)) s
  addC s Reg.NRG_SHADOW_LOST lost.sum

/-- Accumulators of the circuits of a mask become 0, and so do the pulse registers of those circuits; no rule says which circuit a pulse input
belongs to (log 27). -/
def nrgClearMask (s : State) (circs : Nat) : State :=
  let s := noteAccs s
  let s := { s with nrg := { s.nrg with circ := s.nrg.circ.zipIdx.map (fun (x, c) =>
    if bitOf circs c then
      let z := List.replicate 14 0
      { x with acc := z, ival := x.ival.map (fun v => { v with base := z }), log := [] }
    else x) } }
  (List.range 16).foldl (fun s n => if bitOf circs (Config.pulseCircuit n % 8) then setPls s n 0 0 else s) s

end Sys2Proof.Machine
end

