-- ==== Sys2Proof/Machine/Mesh.lean ====
section
/-! DEFINITION. The line-sensor mesh (15_line_sensor_mesh.md): channels and superframes, received frames, reports into blanks, beacons, floods and
wakes under listen-before-talk and the airtime budget, node states and group commands. -/

namespace Sys2Proof.Machine

/-! Settings of a channel. -/

def chOf (s : State) (n : Nat) : MeshCh := s.msh.ch.getD n MeshCh.reset
def setCh (s : State) (n : Nat) (c : MeshCh) : State := { s with msh := { s.msh with ch := s.msh.ch.set n c } }
def onCh (s : State) (n : Nat) (f : MeshCh → MeshCh) : State := setCh s n (f (chOf s n))
/-- A field of register `i` of a channel's group. -/
def mcF (s : State) (n i hi lo : Nat) : Nat := fld s (Reg.MSH_CH_CFG n + 4 * i) hi lo
def mcEn (s : State) (n : Nat) : Bool := bit s Reg.MSH_CTRL n
def mcRun (s : State) (n : Nat) : Bool := bit s Reg.MSH_STATUS n

/-- A microsecond in the units of device time. -/
abbrev usU : Nat := 1000 * nsU

/-- May this unit use the radio? (R427) -/
def radioOk (s : State) : Bool := runsAlarms (mode s) && (twinRole s != 3 || s.pins.twinPri)

/-- The limits of R432. -/
def meshCfgOk (s : State) (n : Nat) : Bool :=
  decide (mcF s n 1 15 0 + mcF s n 2 31 22 * mcF s n 2 15 0 + 10000 ≤ 1000 * mcF s n 1 31 16)
    && decide (2 * mcF s n 3 31 16 < mcF s n 2 15 0)

/-- Device time at which superframe `k` starts, and the superframe of a device time. -/
def sfStart (s : State) (n k : Nat) : Nat := (k * mcF s n 1 31 16 + mcF s n 3 15 0) * msU
def sfAt (s : State) (n t : Nat) : Nat := (t / msU - mcF s n 3 15 0) / max 1 (mcF s n 1 31 16)
/-- End of the beacon slot, and start of the contention period, of superframe `k`. -/
def bcnEnd (s : State) (n k : Nat) : Nat := sfStart s n k + mcF s n 1 15 0 * usU
def capAt (s : State) (n k : Nat) : Nat := bcnEnd s n k + mcF s n 2 31 22 * mcF s n 2 15 0 * usU

/-- Bits per second of a channel; the rules give none for MODE 3. -/
def bitRate (s : State) (n : Nat) : Nat :=
  match mcF s n 0 31 30 with
  | 0 => 50000
  | 1 => 100000
  | 2 => 200000
  | _ => Config.ulp 90 [] % 200000 + 1
/-- Airtime of a frame of `psdu` octets (R431). -/
def airtime (s : State) (n psdu : Nat) : Nat := (mcF s n 0 28 24 + 4 + psdu) * 8 * secU / bitRate s n
/-- From the start of a frame to its last SFD bit. -/
def toSfd (s : State) (n : Nat) : Nat := (mcF s n 0 28 24 + 2) * 8 * secU / bitRate s n

/-! Nodes. -/

def MeshNode.zero : MeshNode := ⟨0, 0, 0, 0, 0, 0, 0, 0, none, 0, false⟩
def nodeOf (s : State) (a : Nat) : MeshNode := Tab.get (fun _ => MeshNode.zero) s.msh.nodes a
def setNode (s : State) (a : Nat) (v : MeshNode) : State :=
  { s with msh := { s.msh with nodes := Tab.set (fun _ => MeshNode.zero) s.msh.nodes a v } }
/-- A field of a node entry. -/
def ndF (s : State) (a j hi lo : Nat) : Nat := bits (getN s Win.MSH_NODE a j) hi lo
def ndEn (s : State) (a : Nat) : Bool := ndF s a 0 31 31 == 1
def ndCh (s : State) (a : Nat) : Nat := ndF s a 0 30 30
def ndPeriod (s : State) (a : Nat) : Nat := ndF s a 1 31 24
/-- Enabled nodes. -/
def nodes (s : State) : List Nat := (listed s.ntab Win.MSH_NODE).filter (ndEn s)
def nodesOf (s : State) (n : Nat) : List Nat := (nodes s).filter (fun a => ndCh s a == n)

/-- Wake preamble length in ms, before it is fitted: `t` is the end of the beacon slot (R446). -/
def wakeLen (s : State) (a t : Nat) : Nat :=
  let n := ndCh s a
  match (nodeOf s a).heardAt with
  | none => 2000
  | some h => min 2000 (mcF s n 7 10 0 + ceilDiv (2 * ndF s a 0 7 0 * (t - h)) (1000000 * msU))
/-- Airtime of the 40 bits that follow a preamble (R447). -/
def wakeTail (s : State) (n : Nat) : Nat := 40 * msU / 2 ^ mcF s n 7 15 14
/-- The length that lets a wake which starts at `t` end before the next superframe starts. -/
def wakeFit (s : State) (n k t lp : Nat) : Nat := min lp ((sfStart s n (k + 1) - t - wakeTail s n - 1) / msU)

/-- A mesh item. -/
def meshItem (s : State) (time code : Nat) (payload : List Nat) : State := (pushItem s 0 ⟨4, 0, none, code, 1, time, payload⟩).1

/-- A node enters a state; a change pushes item 0x0601, for WAKING with the preamble of a wake in superframe `k`. -/
def nodeState (s : State) (a st k : Nat) : State :=
  let v := nodeOf s a
  if v.st = st then s
  else
    let n := ndCh s a
    let lp := if st = 3 then wakeLen s a (bcnEnd s n k) else 0
    let fit := if st = 3 then wakeFit s n k (bcnEnd s n k) lp else 0
    meshItem (setNode s a { v with st := st }) (nowNs s) 0x0601 [a + st * 1024 + fit * 65536 + b2n (decide (fit < lp)) * 2 ^ 32]

/-- Words of a node status entry. -/
def nodeStatus (s : State) (a : Nat) : List Nat :=
  let v := nodeOf s a
  [v.lastSeq * 65536 + v.st * 8192 + v.wakes % 8 * 1024, v.heard % 2 ^ 32, v.repeats * 65536 + v.stale, v.rssi % 65536 * 65536 + v.misses]

/-! Starting and stopping (R427, R432, R451, R452). -/

/-- A channel stops. -/
def meshStop (s : State) (n : Nat) : State :=
  let s := setB s Reg.MSH_STATUS n false
  let s := onCh s n (fun c => { c with txEnd := none, backoff := none, busy := 0, wakes := [] })
  { s with pins := { s.pins with mshTxEn := clrBitN s.pins.mshTxEn n } }

/-- Channels that may not run stop. -/
def meshSettle (s : State) : State :=
  [0, 1].foldl (fun s n => if mcRun s n && (!mcEn s n || !radioOk s) then meshStop s n else s) s

/-- A write of MSH_CTRL. -/
def meshCtrlWrite (s : State) (v : Nat) : State :=
  ungated s Reg.MSH_CTRL fun s =>
    let was := rd s Reg.MSH_CTRL
    let s := wr s Reg.MSH_CTRL (v % 4)
    let s := [0, 1].foldl (fun s n => if bitOf v n && !bitOf was n && !meshCfgOk s n then setB s Reg.MSH_STATUS (4 + n) true else s) s
    govSettle (meshSettle s)

/-- MESH_CHANNEL_ENABLE (R432). -/
def execMeshChannelEnable (v : Word) (s : State) : Out := .next (meshCtrlWrite s v.toNat)

/-- Budget's limit, and the budget at this instant (R443). -/
def budgetMax (s : State) (n : Nat) : Nat := mcF s n 5 31 22 * mcF s n 5 21 10 * secU
def budgetNow (s : State) (n : Nat) : Nat :=
  let c := chOf s n
  min (budgetMax s n) (c.budget + mcF s n 5 31 22 * (s.now - c.budgetAt))

/-- MESH_CHANNEL_START (R432, R427, R443): the first superframe boundary at least 1 ms after the domain was admitted. -/
def execMeshChannelStart (ch : Fin 2) (s : State) : Out :=
  let n := ch.val
  match (chOf s n).admitAt with
  | none => .next s
  | some a =>
    if !mcEn s n || mcRun s n || !radioOk s || !meshCfgOk s n then .next s
    else
      let s := passCyc s (a + 500000)
      let k := sfAt s n s.now
      let k := if sfStart s n k < s.now then k + 1 else k
      let s := setB (passTo s (sfStart s n k)) Reg.MSH_STATUS n true
      let c := chOf s n
      let s := setCh s n { MeshCh.reset with admitAt := some a, sf := k, firstSf := k, budget := budgetMax s n, budgetAt := s.now, flood := c.flood }
      .next ((nodesOf s n).foldl (fun s a =>
        let v := nodeOf s a
        if v.st = 0 ∨ v.st = 4 then s else nodeState (setNode s a { v with wakes := 0, want := false }) a 1 k) s)

/-- A write of a channel's RW register (R451). -/
def meshChWrite (s : State) (n off v : Nat) : State :=
  if mcEn s n || mcRun s n then setB s Reg.MSH_STATUS 3 true else wr s off v

/-- A write of a node entry (R452). -/
def meshNodeWrite (s : State) (a : Nat) (data : List Nat) : State :=
  let d0 := let w := data.getD 0 0; bits w 31 30 * 2 ^ 30 + bits w 28 14 * 2 ^ 14 + bits w 7 0
  let d1 := let w := data.getD 1 0; bits w 31 16 * 2 ^ 16 + bits w 9 0
  let d2 := let w := data.getD 2 0; bits w 31 29 * 2 ^ 29 + bits w 15 0
  let o0 := getN s Win.MSH_NODE a 0
  if bitOf o0 31 then
    let s := if d0 % 2 ^ 31 = o0 % 2 ^ 31 ∧ d1 = getN s Win.MSH_NODE a 1 ∧ d2 = getN s Win.MSH_NODE a 2 then s else setB s Reg.MSH_STATUS 3 true
    putN s Win.MSH_NODE a 0 (o0 % 2 ^ 31 + bits d0 31 31 * 2 ^ 31)
  else
    let s := putN (putN (putN s Win.MSH_NODE a 0 d0) Win.MSH_NODE a 1 d1) Win.MSH_NODE a 2 d2
    if bitOf d0 31 then setNode (nodeState s a 0 0) a { nodeOf s a with st := 0, wakes := 0, want := false } else s

/-! The serial port (R430). -/

/-- A write of MSH_SPI: 32 bits at 10 MHz. -/
def spiWrite (s : State) (v : Nat) : State :=
  ungated s Reg.MSH_SPI fun s =>
    if s.msh.spi.isSome then setB s Reg.MSH_STATUS 3 true
    else { s with msh := { s.msh with spi := some (s.cycle + 1600, v) } }

/-- MESH_SPI_WRITE (R430). -/
def execMeshSpiWrite (v : Word) (s : State) : Out := .next (spiWrite s v.toNat)

/-- MESH_SPI_SHIFT_END (R430): `miso` is what was shifted in. -/
def execMeshSpiShiftEnd (miso : Word) (s : State) : Out :=
  match s.msh.spi with
  | none => .next s
  | some (c, _) =>
    let s := wr (passCyc s c) Reg.MSH_SPI miso.toNat
    .next { s with msh := { s.msh with spi := none } }

/-! Commands (R449, R450). -/

/-- The payload of an ASSIGN, from the node's entry. -/
def assignBytes (s : State) (a : Nat) : List Nat :=
  beBytes 2 (ndF s a 1 9 0) ++ [ndPeriod s a, ndF s a 1 23 16, ndF s a 2 15 8, ndF s a 2 7 0,
    ndF s a 2 29 29 + 2 * ndF s a 2 31 31 + 4 * ndF s a 2 30 30, 0]

/-- Nodes acknowledged. -/
def ackedBit (s : State) (a : Nat) : Bool := bit s (Reg.MSH_ABM (a / 32)) (a % 32)

/-- The command is done. -/
def cmdDone (s : State) : State :=
  let r := Reg.MSH_CMD_STATUS
  let s := setB (setB s r 31 false) r 30 true
  let s := { s with msh := { s.msh with cmd := none, ch := s.msh.ch.map (fun c => { c with flood := 0 }) } }
  meshItem s (nowNs s) 0x0602 [fld s r 15 0 + fld s r 26 16 * 65536 + fld s Reg.MSH_CMD_EXP 10 0 * 2 ^ 32]

/-- Nodes of a destination. -/
def cmdNodes (s : State) (dest : Nat) : List Nat :=
  (nodes s).filter (fun a => a == dest || dest == 0xFFFF ||
    (decide (0x8000 ≤ dest) && decide (dest < 0x8100) &&
      ((ndF s a 2 31 31 == 1 && ndF s a 2 15 8 == dest % 256) || (ndF s a 2 30 30 == 1 && ndF s a 2 7 0 == dest % 256))))

/-- A write of MSH_CMD. -/
def meshCmdWrite (s : State) (v : Nat) : State :=
  ungated s Reg.MSH_CMD fun s =>
    let s := wr s Reg.MSH_CMD (v % 2 ^ 31)
    let kind := bits v 23 16
    let dest := bits v 15 0
    if !bitOf v 31 then s
    else if s.msh.cmd.isSome || (kind == 1 && decide (1024 ≤ dest)) then setB s Reg.MSH_STATUS 2 true
    else
      let id := (s.msh.lastId + 1) % 65536
      let ex := cmdNodes s dest
      let chans := [0, 1].filter (fun n => ex.any (fun a => ndCh s a == n))
      let buf := ((List.range 16).map (fun i => beBytes 4 (rd s (Reg.MSH_CMDBUF i)))).flatten
      let pay := if kind = 1 then assignBytes s dest else buf.take (min 64 (bits v 30 24))
      let s := (List.range 32).foldl (fun s i => wr s (Reg.MSH_ABM i) 0) s
      let s := wr (wr s Reg.MSH_CMD_EXP ex.length) Reg.MSH_CMD_STATUS (2 ^ 31 + id)
      let s := { s with msh := { s.msh with
        cmd := some ⟨id, dest, kind, pay, ex, [0, 0], none, 0, chans⟩
        lastId := id
        ch := s.msh.ch.zipIdx.map (fun (c, n) => if chans.contains n then { c with flood := 1 } else c) } }
      if ex.isEmpty then cmdDone s else s

/-- MESH_COMMAND_GO (R449). -/
def execMeshCommandGo (v : Word) (s : State) : Out := .next (meshCmdWrite s v.toNat)

/-- A CMD_ACK of a node is accepted (R450). -/
def cmdAck (s : State) (a id : Nat) : State :=
  match s.msh.cmd with
  | none => s
  | some c =>
    if c.id ≠ id ∨ !c.expect.contains a ∨ ackedBit s a then s
    else
      let s := setB s (Reg.MSH_ABM (a / 32)) (a % 32) true
      let n := fld s Reg.MSH_CMD_STATUS 26 16 + 1
      let s := setF s Reg.MSH_CMD_STATUS 26 16 n
      if n = c.expect.length then cmdDone s else s

/-! Received frames (R435 to R441). -/

/-- A big-endian field at an offset from the start of the PSDU. -/
def mfLe (f : MeshFrame) (off n : Nat) : Nat := ofBe ((List.range n).map (fun i => f.body.getD (off - 6 + i) 0))

/-- Entries of the seen cache that have expired leave it. -/
def seenPrune (s : State) : State :=
  { s with msh := { s.msh with seen := s.msh.seen.filter (fun e => decide ((chOf s e.2.2).sf < e.2.1 + max 1 (mcF s e.2.2 0 7 0))) } }

/-- Insert a key. -/
def seenPut (s : State) (n : Nat) (key : List Nat) : State :=
  let e := (key, (chOf s n).sf, n)
  if s.msh.seen.length ≥ 4096 then inc { s with msh := { s.msh with seen := s.msh.seen.drop 1 ++ [e] } } Reg.MSH_SEEN_EVICT
  else { s with msh := { s.msh with seen := s.msh.seen ++ [e] } }

/-- Queue an acknowledgement (R438). -/
def queueAck (s : State) (n a q : Nat) : State :=
  let c := chOf s n
  if c.acks.length ≥ 256 then inc s Reg.MSH_ACK_DROP else setCh s n { c with acks := c.acks ++ [(a, q, s.now, c.sf)] }

/-- The index whose low bits a field gives, nearest to `e` (R441). -/
def nearIdx (w e low : Nat) : Nat :=
  let lo : Int := (e : Int) - (2 ^ (w - 1) : Nat) + 1
  (lo + ((low : Int) - lo) % ((2 ^ w : Nat) : Int)).toNat

/-- A REPORT goes to its blank (R441). -/
def meshReport (s : State) (a arr : Nat) (f : MeshFrame) : State :=
  let k := nearIdx 16 (arr * blankRate s / secU) (mfLe f 8 2)
  let c := confOf s k
  let i := ndF s a 0 28 16
  let st := mfLe f 10 1
  if !stEn c i || stFmt c i != 3 || phCnt c i != 0 then inc s Reg.MSH_NOSTREAM
  else if (arr + 2 * secU) * blankRate s < k * secU then onHealth s i (fun h => { h with future := satAdd 16 h.future 1 })
  else
    let nv := bits st 3 0
    let an := (List.range (min nv (anCnt c i))).map (fun j => scaled (dirScale c (chAn + anBase c i + j)) (mfLe f (12 + 4 * j) 4))
    let dg := if bitOf st 4 && dgCnt c i == 1 then [mfLe f (12 + 4 * nv) 2 &&& bits (getC c Win.ING_DIR (chFr + dgBase c i) 0) 15 0] else []
    latheArrive s ⟨i, k, arr, s.now, bits st 7 6 * 2 ^ 14 + bits st 5 5 * 2 ^ 13, [], f32.nan, f32.nan, an, dg, none, 5, false, false, false, false⟩

/-- Octets as payload words. -/
def words64 (bs : List Nat) : List Nat := (chunks 8 (ceilDiv bs.length 8) bs).map ofLe

/-- An accepted frame is delivered. -/
def meshDeliver (s : State) (n a arr : Nat) (f : MeshFrame) : State :=
  match f.ftype with
  | 8 => meshReport s a arr f
  | 9 =>
    let sf := nearIdx 32 (chOf s n).sf (mfLe f 12 4)
    let t := (sfStart s n sf + mfLe f 16 4 * usU) / nsU
    let pay := (List.range (min 16 (mfLe f 9 1))).map (fun i => mfLe f (20 + i) 1)
    meshItem s t 0x0600 ((a + mfLe f 10 2 * 65536) :: words64 pay)
  | 10 =>
    let s := meshItem s (nowNs s) 0x0603 [a, mfLe f 10 8]
    { s with msh := { s.msh with assigns := s.msh.assigns ++ [a] } }
  | _ => cmdAck s a (mfLe f 10 2)

/-- A frame is accepted (R437). -/
def meshAccept (s : State) (n a seq arr : Nat) (f : MeshFrame) : State :=
  let c := chOf s n
  let s := inc s Reg.MSH_RX_FRAMES
  let s := nodeState s a 1 c.sf
  let s := setNode s a { nodeOf s a with
    lastSeq := seq, wakes := 0, heard := c.sf % 2 ^ 32, heardAt := some arr, rssi := f.rssi % 65536, want := false }
  let s := onCh s n (fun c => { c with wakes := c.wakes.filter (fun x => x != a) })
  let s := meshDeliver s n a arr f
  if f.ftype = 8 then s else queueAck s n a seq

/-- MESH_FRAME_RECEIVE (R435 to R441). -/
def execMeshFrameReceive (ch : Fin 2) (f : MeshFrame) (s : State) : Out :=
  let n := ch.val
  if !mcRun s n || (chOf s n).txEnd.isSome then .next s
  else if !f.fcsOk then .next (inc s Reg.MSH_RX_BAD)
  else
    let net := f.net == mcF s n 0 15 8
    let a := f.addr
    if (f.ftype = 1 ∨ f.ftype = 2) ∧ net then .next (inc s Reg.MSH_ECHO)
    else if !net || f.ftype < 8 || 11 < f.ftype || 1023 < a || !ndEn s a || ndCh s a != n then .next (inc s Reg.MSH_RX_FOREIGN)
    else
      let seq := mfLe f 6 2
      let att := if f.ftype = 8 then 0 else bits (mfLe f 8 1) 7 6
      let key := [n, a, f.ftype, seq, att]
      let s := seenPrune s
      if s.msh.seen.any (fun e => e.1 == key) then .next (inc s Reg.MSH_SEEN_DUP)
      else
        let s := seenPut s n key
        let v := nodeOf s a
        let d := (seq + 65536 - v.lastSeq) % 65536
        let arr := s.now - (f.ageNs + mcF s n 9 15 0) * nsU
        if v.st = 0 ∨ (f.ftype = 10 ∧ d ≠ 0) then .next (meshAccept s n a seq arr f)
        else if d = 0 then
          let s := setNode (inc s Reg.MSH_REPEAT) a { v with repeats := satAdd 16 v.repeats 1 }
          .next (if f.ftype = 8 then s else queueAck s n a seq)
        else if 32768 ≤ d then .next (setNode (inc s Reg.MSH_STALE) a { v with stale := satAdd 16 v.stale 1 })
        else .next (meshAccept s n a seq arr f)

/-! Transmission (R429, R433, R442, R443, R447 to R449). -/

/-- A transmission starts: its airtime is charged, MSH_TXEN is high until it ends. -/
def meshSend (s : State) (n air : Nat) (content : List Nat) : State :=
  let b := budgetNow s n
  let s := onCh s n (fun c => { c with budget := b - 1000 * air, budgetAt := s.now, txEnd := some (s.cycle + ceilDiv air (2 * nsU)), busy := 0, backoff := none })
  { s with
    msh := { s.msh with sent := s.msh.sent.set n content }
    pins := { s.pins with mshTxEn := setBitN s.pins.mshTxEn n } }

/-- A downlink header. -/
def downHeader (s : State) (n ftype addr : Nat) : List Nat :=
  [ftype * 16, mcF s n 0 15 8] ++ beBytes 2 addr ++ [max 1 (mcF s n 0 23 20) * 16, 0]

/-- Nodes of a channel with an ASSIGN to send. -/
def assignsOf (s : State) (n : Nat) : List Nat := s.msh.assigns.filter (fun a => ndCh s a == n)

/-- MESH_BEACON_SEND (R433, R438, R443). -/
def execMeshBeaconSend (ch : Fin 2) (s : State) : Out :=
  let n := ch.val
  let c := chOf s n
  if !mcRun s n || c.bcnDone || c.txEnd.isSome then .next s
  else
    let t := sfStart s n c.sf
    let s := passTo s t
    let acks := (c.acks.filter (fun e => decide (e.2.2.1 + msU ≤ t))).take 48
    let air := airtime s n (26 + 4 * acks.length + 4)
    if budgetNow s n < 1000 * air then
      .next (inc (setCh s n { c with bcnDone := true, skipped := true }) Reg.MSH_BCN_SKIP)
    else
      let pend := decide (1 ≤ c.flood) || !(assignsOf s n).isEmpty
      let (s, r) := fresh s 201
      let at_ := (t + toSfd s n) / nsU + mcF s n 9 31 16 + r - 100
      let body := beBytes 4 c.sf ++ beBytes 6 (at_ / 1000000000) ++ beBytes 4 (at_ % 1000000000) ++ beBytes 4 0 ++ [b2n pend, acks.length]
        ++ (acks.map (fun e => beBytes 2 e.1 ++ beBytes 2 e.2.1)).flatten
      let s := setCh s n { c with
        bcnDone := true
        skipped := false
        acks := c.acks.filter (fun e => !acks.contains e)
        flood := if c.flood = 1 then 2 else c.flood }
      let s := seenPut (seenPrune s) n [n, 1, c.sf % 2 ^ 32]
      .next (meshSend s n air (downHeader s n 1 0xFFFF ++ body))

/-- MESH_TRANSMIT_END (R429): MSH_TXENn falls 2 µs after the last transmit word. -/
def execMeshTransmitEnd (ch : Fin 2) (s : State) : Out :=
  let n := ch.val
  match (chOf s n).txEnd with
  | none => .next s
  | some c =>
    let s := passCyc s (c + 1000)
    let s := onCh s n (fun c => { c with txEnd := none })
    .next { s with pins := { s.pins with mshTxEn := clrBitN s.pins.mshTxEn n } }

/-! Sample words (R428). -/

/-- The sample word of I and Q on a channel. -/
def iqWord (n : Nat) (i q : Int) : Word := BitVec.ofNat 32 (n % 2 * 2 ^ 31 + 2 ^ 30 + toU 12 i * 2 ^ 16 + toU 12 q * 2 ^ 4)

/-- The samples of channel `n`, I and Q, in what the link brings: the words of the two channels interleave, fill carries none. A word with VALID 0 or a
code error is a zero sample; one with a code error names no channel that can be read, and stands for the channel whose turn it is: `next` is that. -/
def iqSamples (n : Nat) : Nat → List IqWord → List (Int × Int)
  | _, [] => []
  | next, .fill :: l => iqSamples n next l
  | next, .bad :: l => if next = n then (0, 0) :: iqSamples n (1 - next) l else iqSamples n (1 - next) l
  | _, .word w :: l =>
    let c := bits w.toNat 31 31
    if c ≠ n then iqSamples n (1 - c) l
    else (if bits w.toNat 30 30 = 1 then (sext 12 (bits w.toNat 27 16), sext 12 (bits w.toNat 15 4)) else (0, 0)) :: iqSamples n (1 - c) l

/-- The sum of I² + Q². -/
def iqPower (l : List (Int × Int)) : Nat := (l.map (fun x => x.1.natAbs ^ 2 + x.2.natAbs ^ 2)).sum

/-- Is the mean of `n` values with a sum, over full scale 2048², at or above a level in dBFS? Both sides are raised to the tenth power. -/
def atLevel (sum n : Nat) (level : Int) : Bool :=
  decide ((n * 2 ^ 22) ^ 10 * 10 ^ level.toNat ≤ sum ^ 10 * 10 ^ (-level).toNat)

/-- CCA took CCA_US: is the channel busy? The mean is over 1.6 samples a microsecond (R442; full scale, log 155). -/
def ccaBusy (s : State) (n : Nat) (iq : List IqWord) : Bool :=
  let k := 8 * mcF s n 4 23 11 / 5
  atLevel (iqPower ((iqSamples n 0 iq).take k)) k (sext 8 (mcF s n 4 31 24))

/-- A busy result: a backoff, or the transmission moves to the next superframe (R442). -/
def ccaWait (s : State) (n : Nat) (wake : Bool) : State :=
  let c := chOf s n
  let b := c.busy + 1
  if mcF s n 4 4 2 ≤ b then
    let c := { c with busy := 0, backoff := none }
    inc (setCh s n (if wake then { c with woke := true } else { c with capDone := true, flood := min c.flood 1 })) Reg.MSH_LBT_DEFER
  else
    let be := min (mcF s n 4 10 8 + b - 1) (mcF s n 4 7 5)
    let (s, r) := fresh s (2 ^ be)
    setCh s n { c with busy := b, backoff := some (s.cycle + r * mcF s n 4 23 11 * 500), tryWake := wake }

/-- CRC-8 with polynomial 0x07 (R447). -/
def crc8 (bs : List Nat) : Nat :=
  bs.foldl (fun c b => iter (fun c => if 128 ≤ c then (2 * c % 256) ^^^ 7 else 2 * c) 8 (c ^^^ b)) 0

/-- The queued wake that goes first: the highest PRIO, then the oldest request. -/
def wakeFirst (s : State) (n : Nat) : Option Nat :=
  (chOf s n).wakes.foldl (fun o a => match o with
    | none => some a
    | some b => if ndF s b 0 15 14 < ndF s a 0 15 14 then some a else some b) none

/-- What a CAP transmission would send: the announced flood, else an ASSIGN: destination, kind, MSG_ID, RETRY, payload. -/
def capNext (s : State) (n : Nat) : Option (Nat × Nat × Nat × Nat × List Nat) :=
  match s.msh.cmd, (chOf s n).flood with
  | some c, 2 => some (c.dest, c.kind, c.id, c.retry.getD n 0, c.payload)
  | _, _ => ((assignsOf s n).head?).map (fun a => (a, 1, (s.msh.lastId + 1) % 65536, 0, assignBytes s a))

/-- Airtime of a COMMAND. -/
def cmdAir (s : State) (n : Nat) (pay : List Nat) : Nat := airtime s n (12 + pay.length + 4)

/-- Does the budget let a transmission other than a beacon start? -/
def budgetLets (s : State) (n air : Nat) : Bool := decide (1000 * air + rd s (Reg.MSH_CH_CFG n + 0x18) * 1000 * usU ≤ budgetNow s n)

/-- A wake is attempted: CCA, then the wake (R446 to R448). -/
def tryWakeNow (s : State) (n : Nat) (iq : List IqWord) : State :=
  match wakeFirst s n with
  | none => s
  | some a =>
    let floodWaits := match capNext s n with | some x => !budgetLets s n (cmdAir s n x.2.2.2.2) | none => false
    let c := chOf s n
    let plan (s : State) : Nat := wakeFit s n c.sf s.now (wakeLen s a (bcnEnd s n c.sf))
    if floodWaits || !budgetLets s n (plan s * msU + wakeTail s n) then s
    else
      let s := pass s (mcF s n 4 23 11 * 500)
      if ccaBusy s n iq then ccaWait s n true
      else if sfStart s n (c.sf + 1) ≤ s.now + wakeTail s n then onCh s n (fun c => { c with woke := true })
      else
        let lp := plan s
        let air := lp * msU + wakeTail s n
        let v := nodeOf s a
        let s := inc (setNode s a { v with wakes := v.wakes + 1, ref := c.sf }) Reg.MSH_WAKES
        let s := onCh s n (fun c => { c with wakes := c.wakes.filter (fun x => x != a), woke := true, wakeSpan := some (s.now, s.now + air) })
        meshSend s n air ([lp] ++ beBytes 2 (mcF s n 7 31 16) ++ beBytes 2 a ++ [crc8 (beBytes 2 a)])

/-- MESH_WAKE_SEND (R448): at the end of the beacon slot. -/
def execMeshWakeSend (ch : Fin 2) (iq : List IqWord) (s : State) : Out :=
  let n := ch.val
  let c := chOf s n
  if !mcRun s n || c.woke || c.txEnd.isSome || c.backoff.isSome || !c.bcnDone || c.wakes.isEmpty then .next s
  else .next (tryWakeNow (passTo s (bcnEnd s n c.sf)) n iq)

/-- A CAP transmission is attempted: CCA, then the frame (R442, R443, R449). -/
def tryCapNow (s : State) (n : Nat) (iq : List IqWord) : State :=
  match capNext s n with
  | none => s
  | some (dest, kind, id, retry, pay) =>
    let air := cmdAir s n pay
    let c := chOf s n
    if !budgetLets s n air then s
    else
      let s := pass s (mcF s n 4 23 11 * 500)
      if ccaBusy s n iq then ccaWait s n false
      else if sfStart s n (c.sf + 1) < s.now + air then onCh s n (fun c => { c with capDone := true, busy := 0, flood := min c.flood 1 })
      else
        let s := seenPut (seenPrune s) n [n, 2, id, retry]
        let flooding := s.msh.cmd.isSome && c.flood == 2
        let s :=
          if flooding then
            { onCh s n (fun c => { c with flood := 0, capDone := true }) with msh := { (onCh s n (fun c => { c with flood := 0, capDone := true })).msh with
              cmd := s.msh.cmd.map (fun m => { m with first := some (m.first.getD n) }) } }
          else { s with msh := { s.msh with assigns := s.msh.assigns.filter (fun a => a != dest), lastId := id } }
        meshSend s n air (downHeader s n 2 dest ++ beBytes 2 id ++ [retry, kind, pay.length, 0] ++ pay)

/-- MESH_CAP_TRANSMIT (R442, R449). -/
def execMeshCapTransmit (ch : Fin 2) (iq : List IqWord) (s : State) : Out :=
  let n := ch.val
  let c := chOf s n
  if !mcRun s n || c.capDone || c.txEnd.isSome || c.backoff.isSome || !c.bcnDone then .next s
  else .next (tryCapNow (passTo s (capAt s n c.sf)) n iq)

/-- MESH_CCA_BACKOFF_END (R442). -/
def execMeshCcaBackoffEnd (ch : Fin 2) (iq : List IqWord) (s : State) : Out :=
  let n := ch.val
  let c := chOf s n
  match c.backoff with
  | none => .next s
  | some t =>
    let s := setCh (passCyc s t) n { c with backoff := none }
    .next (if c.tryWake then tryWakeNow s n iq else tryCapNow s n iq)

/-! The end of a superframe (R438, R445, R448, R449). -/

/-- Request a wake; a full queue leaves the request for the next end. -/
def wantWake (s : State) (a : Nat) : State :=
  let n := ndCh s a
  let c := chOf s n
  let v := nodeOf s a
  if c.wakes.contains a then s
  else if c.wakes.length ≥ 64 then inc (setNode s a { v with want := true }) Reg.MSH_WAKE_QFULL
  else setCh (setNode s a { v with want := false }) n { c with wakes := c.wakes ++ [a] }

/-- Did superframe `k` hold a scheduled slot of a node in which a miss can be judged, and was there none of its frames? -/
def missed (s : State) (n a k : Nat) (c : MeshCh) : Bool :=
  let p := ndPeriod s a
  let t0 := bcnEnd s n k + ndF s a 1 9 0 * mcF s n 2 15 0 * usU
  let t1 := t0 + mcF s n 2 15 0 * usU
  let hidden := match c.wakeSpan with | some (x, y) => decide (x < t1) && decide (t0 < y) | none => false
  p != 0 && k % p == ndF s a 1 23 16 && !c.skipped && decide (c.firstSf ≤ k) && !hidden
    && !(match (nodeOf s a).heardAt with | some h => decide (t0 ≤ h) | none => false)

/-- One node at the end of superframe `k`. -/
def nodeEnd (s : State) (n k : Nat) (c : MeshCh) (a : Nat) : State :=
  let m := missed s n a k c
  let v := nodeOf s a
  let s := if m then setNode s a { v with misses := satAdd 16 v.misses 1 } else s
  let v := nodeOf s a
  match v.st with
  | 1 => if m then nodeState s a 2 k else s
  | 2 => if m then wantWake (nodeState (setNode s a { v with wakes := 0 }) a 3 (k + 1)) a else s
  | 3 =>
    if v.want then wantWake s a
    else if v.wakes = 0 ∨ (chOf s n).wakes.contains a ∨ k < v.ref + 2 * ndPeriod s a then s
    else if mcF s n 7 13 11 ≤ v.wakes then nodeState (setNode s a { v with ref := k }) a 4 k
    else wantWake s a
  | 4 =>
    if mcF s n 8 15 0 = 0 ∨ k < v.ref + mcF s n 8 15 0 then s
    else wantWake (nodeState (setNode s a { v with wakes := 0 }) a 3 (k + 1)) a
  | _ => s

/-- The command at the end of a channel's superframe (R449). -/
def cmdEnd (s : State) (n : Nat) : State :=
  match s.msh.cmd with
  | none => s
  | some m =>
    if m.first = some n ∧ fld s Reg.MSH_CMD_CFG 15 8 ≤ m.age then cmdDone s
    else
      let m := if m.first = some n then { m with age := m.age + 1 } else m
      let again := m.chans.contains n && (chOf s n).flood == 0 && decide (m.retry.getD n 0 < fld s Reg.MSH_CMD_CFG 3 0)
      let m := if again then { m with retry := m.retry.set n (m.retry.getD n 0 + 1) } else m
      let s := if again then onCh s n (fun c => { c with flood := 1 }) else s
      { s with msh := { s.msh with cmd := some m } }

/-- MESH_SUPERFRAME_END (R445, R449): superframe SFNUM of the channel ends. -/
def execMeshSuperframeEnd (ch : Fin 2) (s : State) : Out :=
  let n := ch.val
  let c := chOf s n
  if !mcRun s n then .next s
  else
    let back := decide (s.now < sfStart s n c.sf)
    let k := if back then sfAt s n s.now + 1 else max (c.sf + 1) (sfAt s n s.now)
    let s := passTo s (sfStart s n k)
    let s := if back then s else (nodesOf s n).foldl (fun s a => nodeEnd s n c.sf c a) s
    let s := cmdEnd s n
    let c := chOf s n
    let old := c.acks.filter (fun e => decide (e.2.2.2 + 4 < k))
    let s := addC s Reg.MSH_ACK_DROP old.length
    .next (setCh s n { c with
      sf := k
      acks := c.acks.filter (fun e => !decide (e.2.2.2 + 4 < k))
      bcnDone := false, skipped := false, wakeSpan := none, woke := false, capDone := false })

/-- CH_TOKENS and CH_SFNUM as they read now. -/
def meshTokens (s : State) (n : Nat) : Nat := if mcRun s n then budgetNow s n / (1000 * usU) else 0
def meshSfnum (s : State) (n : Nat) : Nat := if mcRun s n then sfAt s n s.now % 2 ^ 32 else 0

end Sys2Proof.Machine
end

