-- ==== Sys2Proof/Machine/Nvs.lean ====
section
/-! DEFINITION. The Drill Log's store and the external NOR operations (18_nonvolatile_drill_log.md R502 to R512). -/

namespace Sys2Proof.Machine

/-! Slots (R502). -/

/-- Where a slot lies, and its bytes. -/
def slotAt (n : Nat) : Nat := 0xC0000 + 64 * n
def slotBytes (s : State) (n : Nat) : List Nat := nvBytes s (slotAt n) 64
/-- Does a line's CRC match? -/
def slotCrcOk (b : List Nat) : Bool := ofLe (b.drop 60) == crc32c (b.take 60)
/-- LOG_GEN of a line. -/
def slotGen (b : List Nat) : Nat := ofLe ((b.drop 24).take 4)
/-- Does a slot hold a valid record of a generation? -/
def slotValid (s : State) (n gen : Nat) : Bool := let b := slotBytes s n; slotCrcOk b && slotGen b == gen

/-- Put LOG_STATE. -/
def setLogState (s : State) (st : Nat) : State := setF s Reg.NVS_STATUS 15 14 st
/-- NVS_STATUS.QUEUE follows the queue. -/
def setLogQueue (s : State) (q : List LogRec) : State := setF { s with nvs := { s.nvs with queue := q } } Reg.NVS_STATUS 22 16 (min q.length 64)

/-- Write the health block into the idle configuration bank, the entries as the bank in use holds them (R506, R507, R509). -/
def saveHealth (s : State) : State :=
  if bit s Reg.SYS_STATUS 13 then s
  else requestBank s 0 2 6 (healthBlock s ++ (bankPayload s 0 (s.nvs.inUse.getD 0 1)).drop 64)

/-- Every queued record is counted and copied, none is stored (R504, R507). -/
def logDropAll (s : State) : State :=
  let q := s.nvs.queue
  q.foldl (fun s r => logCopy (inc s Reg.NVS_LOG_DROPPED) r false) (setLogQueue s [])

/-- LOG_STATE becomes FAULT (R506). -/
def logFault (s : State) (slot : Nat) : State :=
  let ns := nowNs s
  let s := setLogState { s with nvs := { s.nvs with fails := 0, faultSlot := slot, faultSec := ns / 1000000000, faultNs := ns % 1000000000 } } 2
  let s := setHealth s Health.logFault true
  gooseCheck (saveHealth (logDropAll s))

/-- A record of its own number, made in place of the event that a full log refuses, or that begins a generation. -/
def logMark (s : State) (code : Nat) (payload : List Nat) : State × LogRec :=
  let (s, q) := nextRseq s
  let t := nowNs s
  (s, ⟨q, t / 1000000000, t % 1000000000, fld s Reg.SYS_STATUS 31 16, code, mode s, (if bit s Reg.TIME_STATUS 3 then 0 else 2)
    + (if mode s = Mode.lastGasp then 8 else 0), payload⟩)

/-- A line whose verification failed: the bytes it holds then are not defined. -/
def logTorn (s : State) (slot : Nat) : State := tornLine s (slotAt slot)

/-- LOG_RECORD_WRITE (R503, R504, R506, R507): the line of the record at the front of the queue, and its verification. -/
def execLogRecordWrite (ok : Bool) (s : State) : Out :=
  match s.nvs.queue with
  | [] => .next s
  | r :: q =>
    let mark := r.code == 0x00F0
    if logState s = 3 ∨ (logState s ≠ 0 ∧ !mark) ∨ gated s Reg.NVS_STATUS then .next s
    else
      let n := rd s Reg.NVS_LOG_COUNT
      if 32767 ≤ n then
        if !ok ∧ s.nvs.fails < 3 then
          .next (inc (logTorn { s with nvs := { s.nvs with fails := s.nvs.fails + 1 } } 32767) Reg.NVS_LOG_RETRY)
        else if !ok then .next (logFault (logTorn s 32767) 32767)
        else
          let (s, f) := logMark s 0x00FF (leBytes 2 r.code ++ leBytes 8 r.rseq)
          let s := nvPut s (slotAt 32767) (logBytes f (rd s Reg.NVS_LOG_GEN))
          let s := logCopy (setLogQueue { s with nvs := { s.nvs with fails := 0 } } q) r false
          .next (logDropAll (logCopy (setLogState s 1) f true))
      else if ok then
        let s := nvPut s (slotAt n) (logBytes r (rd s Reg.NVS_LOG_GEN))
        let s := wr (setLogQueue { s with nvs := { s.nvs with fails := 0 } } q) Reg.NVS_LOG_COUNT (n + 1)
        let s := logCopy s r true
        if mark then
          let was := logState s
          let s := saveHealth (setLogState s 0)
          .next (if was = 2 then gooseCheck s else s)
        else .next s
      else
        let s := wr (logTorn s n) Reg.NVS_LOG_COUNT (n + 1)
        if s.nvs.fails < 3 then .next (inc { s with nvs := { s.nvs with fails := s.nvs.fails + 1 } } Reg.NVS_LOG_RETRY)
        else .next (logFault s n)

/-- A new generation begins: its LOG_CLEARED record goes ahead of every queued record (R505, R509). -/
def logNewGen (s : State) (gen cause : Nat) : State :=
  let pay := leBytes 4 (rd s Reg.NVS_LOG_GEN) ++ leBytes 4 (rd s Reg.NVS_LOG_COUNT) ++ leBytes 4 (rd s Reg.NVS_LOG_DROPPED) ++ [cause]
  let s := wr (wr s Reg.NVS_LOG_GEN gen) Reg.NVS_LOG_COUNT 0
  let (s, r) := logMark s 0x00F0 pay
  setLogQueue { s with nvs := { s.nvs with fails := 0 } } (r :: s.nvs.queue)

/-- LOG_CLEAR with its token: none where the token is not accepted (R509). -/
def logClear (s : State) (gen count : Nat) : Option State :=
  if gen ≠ rd s Reg.NVS_LOG_GEN ∨ count ≠ rd s Reg.NVS_LOG_COUNT then none
  else
    let s := wr (logNewGen s ((gen + 1) % 2 ^ 32) 0) Reg.NVS_LOG_DROPPED 0
    some (if logState s = 1 then setLogState s 0 else s)

/-- The first slot from `n` on at which four slots hold no valid record, or 32,767 (R505). -/
def freeSlot (s : State) (gen : Nat) : Nat → Nat → Nat
  | 0, _ => 32767
  | k + 1, n => if [n, n + 1, n + 2, n + 3].any (fun i => decide (i < 32767) && slotValid s i gen) then freeSlot s gen k (n + 1) else n

/-- LOG_SCAN_COMPLETE (R505, R507). -/
def execLogScanComplete (s : State) : Out :=
  if logState s ≠ 3 ∨ mode s = Mode.boot then .next s
  else
    let fault := bankLe s 0 (s.nvs.inUse.getD 0 1) 64 1 == 2 && !bit s Reg.SYS_STATUS 13
    match [0, 1, 2, 3].find? (fun i => slotCrcOk (slotBytes s i)) with
    | none =>
      let g := if bit s Reg.SYS_STATUS 13 then 1 else (bankLe s 0 (s.nvs.inUse.getD 0 1) (64 + 4) 4 + 1) % 2 ^ 32
      let s := logNewGen (wr s Reg.NVS_LOG_GEN ((g + 2 ^ 32 - 1) % 2 ^ 32)) g 1
      .next (if fault then logDropAll (setLogState s 2) else setLogState s 0)
    | some i =>
      let g := slotGen (slotBytes s i)
      let s := wr s Reg.NVS_LOG_GEN g
      let s := wr s Reg.NVS_LOG_COUNT (freeSlot s g 32767 0)
      let full := slotValid s 32767 g
      .next (if fault then logDropAll (setLogState s 2) else if full then logDropAll (setLogState s 1) else setLogState s 0)

/-! Reading (R508; log 14). -/

/-- Load a slot. -/
def logLoad (s : State) (n : Nat) : State :=
  let b := slotBytes s n
  let s := (List.range 16).foldl (fun s i => wr s (Reg.NVS_LOG_RD i) (ofLe ((b.drop (4 * i)).take 4))) s
  let crc := slotCrcOk b
  let gen := slotGen b == rd s Reg.NVS_LOG_GEN
  wr s Reg.NVS_LOG_RDSTAT (b2n (crc && gen) * 2 ^ 31 + b2n crc * 2 ^ 30 + b2n gen * 2 ^ 29 + n)

/-- A write of NVS_LOG_CUR. -/
def logCurWrite (s : State) (v : Nat) : State :=
  ungated s Reg.NVS_LOG_CUR fun s => logLoad (wr s Reg.NVS_LOG_CUR (bits v 31 31 * 2 ^ 31 + bits v 14 0)) (bits v 14 0)

/-- LOG_SLOT_LOAD (R508). -/
def execLogSlotLoad (v : Word) (s : State) : Out := .next (logCurWrite s v.toNat)

/-- A full read of NVS_LOG_RD15 has answered: with AUTO the next slot is loaded. -/
def logAdvance (s : State) : State :=
  let n := fld s Reg.NVS_LOG_CUR 14 0
  if bit s Reg.NVS_LOG_CUR 31 && decide (n < 32767) then logLoad (setF s Reg.NVS_LOG_CUR 14 0 (n + 1)) (n + 1) else s

/-- LOG_AUTO_ADVANCE (R508): a read of NVS_LOG_RD15. -/
def execLogAutoAdvance (be : BitVec 4) (s : State) : Out :=
  if gated s (Reg.NVS_LOG_RD 15) then .next { s with hostData := 0 }
  else
    let s := { s with hostData := BitVec.ofNat 32 (rd s (Reg.NVS_LOG_RD 15)) }
    .next (if be = 15 then logAdvance s else s)

/-! NOR operations (R511, R512). -/

/-- NVS_NOR_OP follows an operation's end; both devices idle: BUSY 0. -/
def norEnd (s : State) (dev status : Nat) : State :=
  let s := setNor s dev { norOf s dev with run := none }
  setB (setF s Reg.NVS_NOR_OP 30 28 status) Reg.NVS_NOR_OP 31 ((norOf s 0).run.isSome || (norOf s 1).run.isSome)

/-- An operation ends with FAIL (R512). -/
def norFail (s : State) (dev op addr : Nat) : State :=
  let s := setHealth (norEnd s dev 1) Health.norErr true
  logRec s 0x0080 ([dev, op, 1] ++ leBytes 4 addr)

/-- The run of sectors that bytes touch. -/
def norSpan (addr len : Nat) : Nat × Nat := (addr / 65536, (addr + max 1 len - 1) / 65536 + 1 - addr / 65536)

/-- A management core's write of NVS_NOR_OP. -/
def norOpWrite (s : State) (v : Nat) : State :=
  ungated s Reg.NVS_NOR_OP fun s =>
    let op := bits v 2 0
    let dev := bits v 8 8
    let s := setB s Reg.NVS_NOR_OP 8 (dev == 1)
    let addr := rd s Reg.NVS_NOR_ADDR
    let len := min (rd s Reg.NVS_NOR_LEN) 0x1000000
    let sp := norSpan addr len
    if op = 0 ∨ 4 < op ∨ (norOf s dev).run.isSome then s
    else if (op = 2 ∨ op = 3) ∧ norProtected s dev sp.1 sp.2 then setF s Reg.NVS_NOR_OP 30 28 2
    else
      let buf := rd s Reg.NVS_NOR_BUF_LO + rd s Reg.NVS_NOR_BUF_HI * 2 ^ 32
      setB (setF (setNor s dev { norOf s dev with run := some (op, addr, len, buf, s.cycle) }) Reg.NVS_NOR_OP 30 28 0) Reg.NVS_NOR_OP 31 true

/-- NOR_READ, NOR_PROGRAM, NOR_ERASE, NOR_VERIFY (R512): a management core writes NVS_NOR_OP with that OP. -/
def execNorRead (v : Word) (s : State) : Out := .next (norOpWrite s (putBits v.toNat 2 0 1))
/-- NOR_PROGRAM (R511, R512). -/
def execNorProgram (v : Word) (s : State) : Out := .next (norOpWrite s (putBits v.toNat 2 0 2))
/-- NOR_ERASE (R511, R512). -/
def execNorErase (v : Word) (s : State) : Out := .next (norOpWrite s (putBits v.toNat 2 0 3))
/-- NOR_VERIFY (R512). -/
def execNorVerify (v : Word) (s : State) : Out := .next (norOpWrite s (putBits v.toNat 2 0 4))

/-- Bytes of a device that a failed program or erase leaves: not defined. -/
def norTorn (s : State) (dev addr len : Nat) : State :=
  let (s, v) := fresh s (2 ^ (8 * len))
  norPut s dev addr (leBytes len v)

/-- NOR_OP_COMPLETE (R512): the operation of a device ends; `ok` is what the device itself reports. -/
def execNorOpComplete (dev : Fin 2) (ok : Bool) (s : State) : Out :=
  let d := dev.val
  match (norOf s d).run with
  | none => .next s
  | some (op, addr, len, buf, _) =>
    let m := (norOf s d).mem
    let have_ := Memory.bytes norDef m addr len
    let want := Memory.bytes Memory.zero s.hist buf len
    let sp := norSpan addr len
    if !ok then
      let s := if op = 2 then norTorn s d addr len else if op = 3 then norTorn s d (sp.1 * 65536) (sp.2 * 65536) else s
      .next (norFail s d op addr)
    else
      match op with
      | 1 => .next (norEnd { s with hist := Memory.put Memory.zero s.hist buf have_ } d 0)
      | 2 =>
        let now := (have_.zip want).map (fun p => p.1 &&& p.2)
        let s := norPut s d addr now
        .next (if now = want then norEnd s d 0 else norFail s d 2 addr)
      | 3 => .next (norEnd (norErase s d sp.1 sp.2) d 0)
      | _ => .next (if have_ = want then norEnd s d 0 else norFail s d 4 addr)

/-- NOR_OP_TIMEOUT (R512). -/
def execNorOpTimeout (dev : Fin 2) (s : State) : Out :=
  let d := dev.val
  match (norOf s d).run with
  | none => .next s
  | some (op, addr, len, _, c) =>
    let s := passCyc s (c + rd s Reg.NVS_NOR_TMO * 500000)
    let sp := norSpan addr len
    let s := if op = 2 then norTorn s d addr len else if op = 3 then norTorn s d (sp.1 * 65536) (sp.2 * 65536) else s
    .next (norFail s d op addr)

/-- Entry to LAST-GASP abandons every operation (R512). -/
def norAbandon (s : State) : State := [0, 1].foldl (fun s d => if (norOf s d).run.isSome then norEnd s d 3 else s) s

end Sys2Proof.Machine
end

