-- ==== Sys2Proof/Machine/Modes.lean ====
section
/-! DEFINITION. Entering a mode (02_modes_startup.md R42 to R50) and the PWR_FAIL_N pin (19_electrical_package.md R523, R540). -/

namespace Sys2Proof.Machine

/-- The modes of a twin mode. -/
def inTwin (m : Nat) : Bool := decide (4 ≤ m) && decide (m ≤ 7)

/-- Entry to a twin mode: contact is counted from here (16 R462); the unit starts as standby (R46). -/
def twinEntry (s : State) : State :=
  let s := { s with twn := { s.twn with
    entryAt := s.now, recs := [], recEp := none, hEp := none, bEp := none, relinq := false, take := false, want := false, hostRelinq := false
    lower := 0, revertAt := none, due := none } }
  setF s Reg.SYS_STATUS 15 14 2

/-- A transition of R45: MODE, PREV_MODE and CAUSE, the item and the log record, and what starts and stops with the mode. -/
def enterMode (s : State) (m cause : Nat) : State :=
  let was := mode s
  let s := wr (noteMode s cause) Reg.SYS_MODE (was * 2 ^ 20 + cause * 256 + m)
  let s := pushDev s 0x0001 [m + was * 16 + cause * 256]
  let s := logRec s 0x0001 [m, was, cause]
  let s := if inTwin m && !inTwin was then twinEntry s else s
  let s := txnMode s was m
  let s := if runsLathe was && !runsLathe m then capStop (latheStop s) else s
  let s := if m = Mode.lastGasp then bankDrop s else s
  let s := nrgMode s was m
  let s := if afeOff m && !afeOff was then afeStop s else s
  let s := meshSettle s
  let s := if runsLathe m && !runsLathe was then capStart s else s
  let s := gooseCheck (alarmPins s)
  if m = Mode.lastGasp then govLastGasp (norAbandon s) else govSettle s

/-- HALT (R45), before any trigger of a lower rank of this cycle (R47). -/
def halt (s : State) (cause : Nat) : State := if mode s = Mode.halt then s else enterMode (modeBack s 2).1 Mode.halt cause

/-- May LAST-GASP be entered from a mode? (R45) -/
def reachesLastGasp (m : Nat) : Bool := decide (2 ≤ m) && decide (m ≤ 8)

/-! PWR_FAIL_N (19 R523; 13 R403; 02 R540). -/

/-- PWR_FAIL_FALL: the RTC is latched as the power-fail stamp, and the 2 µs start. -/
def execPwrFailFall (s : State) : Out :=
  if s.pwr.fallAt.isSome then .next s
  else .next (setB { s with pwr := { s.pwr with fallAt := some s.cycle, stamp := some (rtcNow s) } } Reg.PWR_STATUS 8 false)

/-- PWR_FAIL_RISE: a low that was not taken counts as a glitch; one of 1 µs to 2 µs may or may not have been taken, which only LAST_GASP_ENTRY
shows. -/
def execPwrFailRise (s : State) : Out :=
  match s.pwr.fallAt with
  | none => .next (setB s Reg.PWR_STATUS 8 true)
  | some c =>
    let taken := s.pwr.lgFall == c + 1
    let s := setB { s with pwr := { s.pwr with fallAt := none, riseAt := s.cycle } } Reg.PWR_STATUS 8 true
    .next (if taken then s else inc s Reg.PWR_PF_GLITCH)

end Sys2Proof.Machine
end

