-- ==== Sys2Proof/Machine/TwinLink.lean ====
section
/-! DEFINITION. The twin link, health words and beacons (16_twin_redundancy.md R455 to R461, R473). Frames carry their bodies as octets;
times of transit are collapsed (log 14). -/

namespace Sys2Proof.Machine

/-! Grades and health words (R458, R459). -/

/-- A field of TWN_STATUS. -/
def twF (s : State) (hi lo : Nat) : Nat := fld s Reg.TWN_STATUS hi lo

/-- Has something happened within the last 60 s? -/
def lately (s : State) (c : Option Nat) : Bool := match c with | some x => decide (s.cycle < x + 60 * cycSec) | none => false

/-- The grade of the unit: 0 FAILED, 1 DEGRADED, 2 GOOD. -/
def ownGrade (s : State) : Nat :=
  let locked (p : Nat) : Bool := bitOf s.twn.pcs p
  let anyPort := (List.range 4).any (fun p => bit s (ethReg p 0) 31 && locked p)
  if lately s s.sys.selfFailAt || !anyPort || (!bit s Reg.TIME_STATUS 3 && !bit s Reg.TIME_CTRL 7) || mode s == Mode.lastGasp then 0
  else if bit s Reg.SYS_HEALTH Health.timeHoldover || (prpOn s && !(locked 0 && locked 1)) || lately s s.sys.eccUeAt
      || bit s Reg.SYS_HEALTH Health.logFault || s.sys.oosLane != 0 || s.sys.laneFail != 0 || detOos s || bit s Reg.SSK_LOAD 31 then 1
  else 2

/-- Does the unit show COPY_OK? -/
def copyOk (s : State) : Bool := s.twn.applied.isSome && !s.twn.failed && decide (s.twn.sealsSince ≤ 2)

/-- Does the digest last received equal the unit's own? -/
def cfgMatch (s : State) : Bool := match s.twn.peerCfg with | some d => d == cfgDigest s | none => false

/-- The health word of the unit now. -/
def healthWord (s : State) : Nat :=
  let lg := mode s == Mode.lastGasp
  ownGrade s * 2 ^ 30 + twinRole s * 2 ^ 28 + b2n (s.twn.relinq || lg) * 2 ^ 27 + b2n s.twn.take * 2 ^ 26 + b2n s.twn.want * 2 ^ 25
    + b2n s.pins.twinPri * 2 ^ 24 + b2n (cfgMatch s) * 2 ^ 23 + b2n (copyOk s) * 2 ^ 22 + b2n lg * 2 ^ 21 + ofBe ((cfgDigest s).drop 46)

/-- A word is shown and kept as the one sent for an epoch. -/
def ownWord (s : State) (k : Nat) : State × Nat :=
  let w := healthWord s
  let s := setF (wr s Reg.TWN_HEALTH w) Reg.TWN_STATUS 23 22 (ownGrade s)
  ({ s with twn := { s.twn with ownWords := ((k, w) :: s.twn.ownWords.filter (fun p => p.1 != k)).take 8 } }, w)

/-- A word of the partner for an epoch is received. -/
def peerWord (s : State) (k w : Nat) : State :=
  let s := setF (wr s Reg.TWN_PEER_HEALTH w) Reg.TWN_STATUS 21 20 (bits w 31 30)
  { s with twn := { s.twn with peerWords := ((k, w) :: s.twn.peerWords.filter (fun p => p.1 != k)).take 8 } }

/-- The unit's COPY_SEQ: last sent by the active unit or last applied by the standby. -/
def copySeq (s : State) : Nat := rd s Reg.TWN_COPY_SEQ_LO + rd s Reg.TWN_COPY_SEQ_HI * 2 ^ 32

/-! Lanes and sessions (R455 to R457). -/

/-- The live twin-link key. -/
def twinKey (s : State) : Option Nat := (liveCell s (fld s Reg.TWN_KEY_SLOT 8 0) Usage.twin).map (·.key)

/-- Is some lane up? -/
def lanesUp (s : State) : Bool := twF s 17 16 != 0

/-- COPY_BUSY follows the copies under way. -/
def copyShow (s : State) : State := setB s Reg.TWN_STATUS 24 (s.twn.sending.isSome || s.twn.rx.isSome)

/-- A copy that is not applied is discarded (R469). -/
def copyDiscard (s : State) : State :=
  match s.twn.rx with
  | none => s
  | some r =>
    let s := { s with twn := { s.twn with rx := none, failed := true } }
    pushDev (setHealth (inc (copyShow s) Reg.TWN_COPY_FAIL) Health.twinStale true) 0x0702 [r.seq]

/-- The link session ends (R455): the copy on its way is lost. -/
def sessEnd (s : State) : State :=
  let was := s.twn.sess.isSome
  let s := copyDiscard s
  let s := copyShow { s with twn := { s.twn with sess := none, nonce := none, hello := none, held := [], sending := none, cfgAt := none } }
  if was then inc s Reg.TWN_LINK_RESTART else s

/-- The state of the lanes changes. -/
def setLanes (s : State) (lanes : Nat) : State :=
  let s := setHealth (setF s Reg.TWN_STATUS 17 16 lanes) Health.twinLinkDown (lanes == 0)
  gooseCheck s

/-- TWIN_LANE_UP (R455). -/
def execTwinLaneUp (lane : Fin 2) (s : State) : Out :=
  if !bit s Reg.TWN_CTRL 31 then .next s else .next (setLanes s (setBitN (twF s 17 16) lane))

/-- TWIN_LANE_DOWN (R455): the loss of a lane with frames in flight on it ends the session. -/
def execTwinLaneDown (lane : Fin 2) (inFlight : Bool) (s : State) : Out :=
  if !bitOf (twF s 17 16) lane then .next s
  else
    let s := setLanes s (clrBitN (twF s 17 16) lane)
    .next (if inFlight then sessEnd s else s)

/-- TWIN_LSEQ_TIMEOUT (R455): a missing LSEQ has not come within 100 µs. -/
def execTwinLseqTimeout (s : State) : Out :=
  match s.twn.held with
  | [] => .next s
  | (c, _) :: _ => .next (sessEnd (passCyc s (c + 50000)))

/-- The 24 octets of a link frame's header. -/
def linkHeader (ftype len lseq epoch role : Nat) (pri : Bool) : List Nat :=
  [ftype, 1] ++ beBytes 2 len ++ beBytes 8 lseq ++ beBytes 8 epoch ++ [b2n pri + 2 * (role % 4), 0, 0, 0]

/-- The initialisation vector of a sender (R456). -/
def linkIv (pref : Bool) (lseq : Nat) : List Nat := beBytes 4 (if pref then 1 else 2) ++ beBytes 8 lseq

/-- Send one frame of the session. -/
def linkSend (s : State) (ftype : Nat) (body : List Nat) : State :=
  match s.twn.sess with
  | none => s
  | some l =>
    let e := newestOr s
    let h := linkHeader ftype body.length l.txSeq e (twinRole s) s.pins.twinPri
    let iv := linkIv l.pref l.txSeq
    let f : LinkFrame := ⟨ftype, l.txSeq, e, twinRole s, s.pins.twinPri, gcmText l.key iv body, gcmTag l.key iv h body⟩
    { s with twn := { s.twn with sess := some { l with txSeq := l.txSeq + 1 }, sentF := some f } }

/-- TWN_MAC as its 6 octets. -/
def twnMac (s : State) : List Nat := beBytes 2 (fld s Reg.TWN_MAC_HI 15 0) ++ beBytes 4 (rd s Reg.TWN_MAC_LO)

/-- The body of the unit's HELLO. -/
def helloBody (s : State) (nonce : Nat) : List Nat :=
  leBytes 8 (unitId s) ++ beBytes 32 nonce ++ [b2n s.pins.twinPri, s.sys.twinMode, fld s Reg.ALN_RATE 3 0, 0] ++ twnMac s ++ [0, 0]

/-- Is the unit the preferred one, against a partner with this PRI and UNIT_ID? (R457) -/
def preferred (s : State) (pri : Bool) (id : Nat) : Bool := if s.pins.twinPri = pri then decide (unitId s < id) else s.pins.twinPri

/-- Once each unit's HELLO is known the session runs (R456); the HELLO of a session is its frame 0 (log 32). -/
def sessStart (s : State) : State :=
  match s.twn.sess, s.twn.nonce, s.twn.hello, twinKey s with
  | none, some mine, some (id, pri, theirs), some key =>
    let p := preferred s pri id
    let salt := if p then beBytes 32 mine ++ beBytes 32 theirs else beBytes 32 theirs ++ beBytes 32 mine
    let k := ofBe (hkdf (keyBytes key) salt (ascii "TY8192-twinlnk") 32)
    { s with twn := { s.twn with sess := some ⟨k, p, 1, 1⟩, cfgAt := none } }
  | _, _, _, _ => s

/-- TWIN_HELLO_SEND (R456). -/
def execTwinHelloSend (s : State) : Out :=
  match twinKey s with
  | none => .next s
  | some key =>
    if !bit s Reg.TWN_CTRL 31 || !lanesUp s || s.twn.nonce.isSome then .next s
    else
      let (s, n) := fresh s (2 ^ 256)
      let b := helloBody s n
      let e := newestOr s
      let h := linkHeader 1 b.length 0 e (twinRole s) s.pins.twinPri
      let f : LinkFrame := ⟨1, 0, e, twinRole s, s.pins.twinPri, b, ofBe ((hmac (keyBytes key) (h ++ b)).take 16)⟩
      .next (sessStart { s with twn := { s.twn with nonce := some n, sentF := some f } })

/-- TWIN_HELLO_RECEIVE (R456, R457). -/
def execTwinHelloReceive (f : LinkFrame) (s : State) : Out :=
  if !bit s Reg.TWN_CTRL 31 || !lanesUp s then .next s
  else
    let b := f.body
    let tagOk := match twinKey s with
      | some key => f.tag == ofBe ((hmac (keyBytes key) (linkHeader 1 b.length f.lseq f.epoch f.role f.pri ++ b)).take 16)
      | none => false
    let id := ofLe (b.take 8)
    let pri := b.getD 40 0 % 2 == 1
    let same := b.length == 52 && b.getD 41 0 == s.sys.twinMode && b.getD 42 0 == fld s Reg.ALN_RATE 3 0 && (b.drop 44).take 6 == twnMac s && id != unitId s
    if !tagOk then .next (sessEnd (setB (inc s Reg.TWN_AUTH_FAIL) Reg.TWN_STATUS 29 true))
    else if !same then .next (setB s Reg.TWN_STATUS 29 true)
    else
      let s := if s.twn.sess.isSome then sessEnd s else s
      let s := setB (setB s Reg.TWN_STATUS 29 false) Reg.TWN_STATUS 30 (pri == s.pins.twinPri)
      .next (sessStart { s with twn := { s.twn with hello := some (id, pri, ofBe ((b.drop 8).take 32)), peerId := some id } })

/-! HEALTH and CFG frames (R458, R473). -/

/-- The first epoch after `last` whose instant plus `us` µs has not passed. -/
def nextInstant (s : State) (last : Option Nat) (us : Nat) : Nat :=
  let k := epochNow s
  let k := if epochPlus s k us < s.now then k + 1 else k
  match last with | some l => max k (l + 1) | none => k

/-- TWIN_HEALTH_SEND (R458): 100 µs after an epoch instant, while a session is up. -/
def execTwinHealthSend (s : State) : Out :=
  if s.twn.sess.isNone || !inTwin (mode s) then .next s
  else
    let k := nextInstant s s.twn.hEp 100
    let s := passTo s (epochPlus s k 100)
    let (s, w) := ownWord s k
    .next (linkSend { s with twn := { s.twn with hEp := some k } } 2 (beBytes 4 w ++ beBytes 8 (copySeq s)))

/-- CFG_MISMATCH follows the digests; a change pushes its item (R473). -/
def cfgShow (s : State) : State :=
  let v := s.twn.peerCfg.isSome && !cfgMatch s
  if bit s Reg.TWN_STATUS 28 = v then s else pushDev (setB s Reg.TWN_STATUS 28 v) 0x0703 [b2n v]

/-- TWIN_CFG_SEND (R473): at once after the session's start or a commit, else 1 s after the frame before. -/
def execTwinCfgSend (s : State) : Out :=
  if s.twn.sess.isNone then .next s
  else
    let s := match s.twn.cfgAt with | some c => passCyc s (c + cycSec) | none => s
    .next (cfgShow (linkSend { s with twn := { s.twn with cfgAt := some s.cycle } } 3 (cfgDigest s)))

/-- What a HEALTH frame does. -/
def healthReceive (s : State) (epoch : Nat) (b : List Nat) : State :=
  let s := { s with twn := { s.twn with hbEp := (epoch :: s.twn.hbEp).take 16 } }
  peerWord s epoch (ofBe (b.take 4))

/-- What a CFG frame does. -/
def cfgReceive (s : State) (b : List Nat) : State := cfgShow { s with twn := { s.twn with peerCfg := some (b.take 48) } }

/-! Beacons (R461). -/

/-- The key of beacons: all 48 octets of the derivation (log 33). -/
def bcnKey (s : State) : Option (List Nat) := (twinKey s).map (fun k => hkdf (keyBytes k) [] (ascii "twnbcn") 48)

/-- The first 32 octets of a beacon. -/
def bcnHead (lan id epoch health seq : Nat) : List Nat :=
  [0x54, 0x57, 0x42, 0x4E, 1, lan, 0, 0] ++ leBytes 8 id ++ beBytes 8 epoch ++ beBytes 4 health ++ beBytes 4 (seq % 2 ^ 32)

/-- The Ethernet headers of a beacon (R461). -/
def bcnEth (s : State) : EthHead :=
  { EthHead.bare with
    dst := some (rd s Reg.TWN_BCN_DST_LO + rd s Reg.TWN_BCN_DST_HI * 2 ^ 32)
    tag := if bit s Reg.TWN_BCN_CFG 31 then some (fld s Reg.TWN_BCN_CFG 30 28, fld s Reg.TWN_BCN_CFG 11 0) else none }

/-- Send the beacon of an epoch on the ports of TWN_BCN_CFG. -/
def bcnSend (s : State) (k : Nat) : State :=
  match bcnKey s with
  | none => s
  | some key =>
    let (s, w) := ownWord s k
    let size := 64 + 4 * fld s Reg.TWN_BCN_CFG 31 31
    (List.range 4).foldl (fun s p =>
      if !bit s Reg.TWN_BCN_CFG (24 + p) || !txEn s p then s
      else
        let b := bcnHead (p % 2) (unitId s) k w (copySeq s)
        (enqueue s p ⟨5, 0, k, 0, none, (rd s Reg.TWN_BCN_DST_LO + rd s Reg.TWN_BCN_DST_HI * 2 ^ 32, 0), size, b ++ (hmac key b).take 16,
          bcnEth s⟩).1) s

/-- TWIN_BEACON_SEND (R461): 200 µs after an epoch instant. -/
def execTwinBeaconSend (s : State) : Out :=
  if !bit s Reg.TWN_CTRL 30 || !inTwin (mode s) then .next s
  else
    let k := nextInstant s s.twn.bEp 200
    let s := passTo s (epochPlus s k 200)
    .next (bcnSend { s with twn := { s.twn with bEp := some k } } k)

/-- TWIN_BEACON_RECEIVE (R461). -/
def execTwinBeaconReceive (f : BeaconFrame) (s : State) : Out :=
  if !bit s Reg.TWN_CTRL 30 || !inTwin (mode s) then .next s
  else
    let b := bcnHead f.lan f.unitId f.epoch f.health f.copySeq
    let tagOk := match bcnKey s with | some key => f.tag == ofBe ((hmac key b).take 16) | none => false
    let e := newestOr s
    let near := decide (e ≤ f.epoch + 2) && decide (f.epoch ≤ e + 2)
    if !f.magicOk || !tagOk || f.unitId == unitId s || !near || s.twn.bcnEp.contains (f.epoch, f.lan.val) then .next (inc s Reg.TWN_BCN_BAD)
    else
      let s := { s with twn := { s.twn with bcnEp := ((f.epoch, f.lan.val) :: s.twn.bcnEp).take 32, peerId := some f.unitId } }
      .next (peerWord s f.epoch f.health)

/-- Entry to LAST-GASP: one HEALTH frame and one beacon on each LAN (R460). -/
def twinLastGasp (s : State) : State :=
  if s.sys.twinMode = 0 then s
  else
    let k := newestOr s
    let (s, w) := ownWord s k
    let s := linkSend s 2 (beBytes 4 w ++ beBytes 8 (copySeq s))
    if bit s Reg.TWN_CTRL 30 then bcnSend s k else s

end Sys2Proof.Machine
end

