-- ==== Sys2Proof/Machine/TwinCopy.lean ====
section
/-! DEFINITION. The state copy (16_twin_redundancy.md R466 to R471): the image, its transfer, its application. The packing of the sections'
contents, which no rule gives, is the model's (log 34). -/

namespace Sys2Proof.Machine

/-! Sections. -/

/-- Octets, padded with zeros to a length. -/
def padTo (n : Nat) (bs : List Nat) : List Nat := bs ++ List.replicate (n - bs.length) 0

/-- Words of a window in use, entry by entry. -/
def winBytes (s : State) (w : Nat) : List Nat := match winAt? w with | some r => winData s s.cfg r | none => []

/-- LAYOUT of a section: the first 4 octets of SHA-384 of its configuration in force. -/
def layoutOf (s : State) (ty : Nat) : List Nat :=
  let src := match ty with
    | 1 => winBytes s Win.DET_GS_STR ++ wordBytes ([Reg.DET_ALM_CFG, Reg.DET_GS_CFG, Reg.DET_GS_TIMING, Reg.DET_GS_APPID, Reg.DET_GS_CONFREV].map (rd s))
    | 2 => winBytes s Win.NRG_CIR ++ winBytes s Win.NRG_CAL
    | 3 => winBytes s Win.DET_OSC ++ winBytes s Win.DET_SIG ++ winBytes s Win.DET_BAND
    | 4 => winBytes s Win.DET_GRP ++ wordBytes ([Reg.DET_ISL_CFG, Reg.DET_ISL_FTH, Reg.DET_ISL_ATH, Reg.DET_ISL_N].map (fun r => getC s.cfg r 0 0))
    | 5 => winBytes s Win.MSH_NODE
    | 6 => winBytes s Win.OUT_SESS
    | _ => winBytes s Win.SSK_KT
  (sha src).take 4

/-- ALARM, 160 bytes. -/
def secAlarm (s : State) : List Nat :=
  let r := [Reg.DET_ALM_STATE] ++ (List.range 16).map Reg.DET_ALM_SRC ++ (List.range 16).map Reg.DET_ALM_EPOCH ++ [Reg.DET_GS_STNUM, Reg.DET_GS_SQNUM]
  padTo 160 (wordBytes (r.map (rd s) ++ [gooseData s]))

/-- ENERGY, 3,008 bytes: the payload as it stands, then each circuit's cut time. -/
def secEnergy (s : State) : List Nat :=
  (energyPayload s (s.nrg.circ.foldl (fun t x => max t x.lastEnd) 0) s.now 0).take 0xB60
    ++ ((List.range 8).map (fun c => let t := (circOf s c).lastEnd / nsU; leBytes 8 (t / 1000000000) ++ leBytes 4 (t % 1000000000))).flatten

/-- Enabled oscillation units. -/
def oscUnits (s : State) : List Nat := (List.range 8).filter (oscEn s.cfg)

/-- Words that OSC holds for a unit with model order `p`, `n` signals and a window of `w` samples. -/
def oscWords (p n w : Nat) : Nat := 3 + p + p * p + n + 1 + (1 + w) + 16 * 6 + 16 * n * 2

/-- The part of OSC of one unit. -/
def secOscUnit (s : State) (u : Nat) : List Nat :=
  let o := oscOf s u
  let p := oscOrder s.cfg u
  let n := oscNsig s.cfg u
  let w := oscWin s.cfg u
  let fit (k : Nat) (l : List Nat) : List Nat := l.take k ++ List.replicate (k - l.length) 0
  let c := match o.c with | some e => [1, e % 2 ^ 32, e / 2 ^ 32] | none => [0, 0, 0]
  let modes := ((List.range 16).map (fun b => match o.modes.find? (fun m => m.1 == b) with
    | some (_, m) => [1 + 2 * b2n m.stale, m.freq, m.zeta, m.amp, m.nf, m.epoch]
    | none => [0, 0, 0, 0, 0, 0])).flatten
  let shapes := ((List.range 16).map (fun b => ((List.range n).map (fun j =>
    let v := Tab.get (fun _ => (0, 0)) o.shapes (b * 512 + j); [v.1, v.2])).flatten)).flatten
  wordBytes (c ++ fit p o.a ++ fit (p * p) o.pm ++ (List.range n).map (Tab.get (fun _ => 0) o.mu) ++ [o.nf]
    ++ (min w o.ys.length :: fit w o.ys) ++ modes ++ shapes)

/-- OSC. -/
def secOsc (s : State) : List Nat := ((oscUnits s).map (secOscUnit s)).flatten

/-- Pairs of groups, in order. -/
def islPairs : List (Nat × Nat) := ((List.range 64).map (fun a => ((List.range 64).filter (fun b => decide (a < b))).map (fun b => (a, b)))).flatten

/-- ISL, 16,384 bytes: 2 bits for each ring slot of each pair. -/
def secIsl (s : State) : List Nat :=
  padTo 16384 ((islPairs.map (fun (a, b) => leBytes 8 ((List.range 32).foldl (fun v i =>
    v + Tab.get (fun _ => 0) s.det.isl ((a * 64 + b) * 32 + i) % 4 * 4 ^ i) 0))).flatten)

/-- A set of numbers below 1,024 as 128 bytes. -/
def bitmap (l : List Nat) : List Nat := leBytes 128 (l.foldl (fun v a => if a < 1024 ∧ !bitOf v a then v + 2 ^ a else v) 0)

/-- MESH, 65,536 bytes. -/
def secMesh (s : State) : List Nat :=
  let node (a : Nat) : List Nat := let v := nodeOf s a; leBytes 2 v.lastSeq ++ [v.st, v.wakes] ++ leBytes 4 v.heard
  let acks (n : Nat) : List Nat :=
    let q := (chOf s n).acks
    leBytes 2 q.length ++ padTo 2048 ((q.map (fun e => leBytes 2 e.1 ++ leBytes 2 e.2.1 ++ leBytes 4 e.2.2.2)).flatten)
  let seen := (s.msh.seen.map (fun e =>
    [e.2.2 + 2 * e.1.getD 4 0, e.1.getD 2 0] ++ leBytes 2 (e.1.getD 1 0) ++ leBytes 2 (e.1.getD 3 0) ++ leBytes 4 e.2.1)).flatten
  let abm := wordBytes ((List.range 32).map (fun i => rd s (Reg.MSH_ABM i)) ++ [rd s Reg.MSH_CMD_STATUS, rd s Reg.MSH_CMD_EXP])
  let cmd := match s.msh.cmd with
    | some c => [1, c.kind, c.payload.length, match c.first with | some n => n + 1 | none => 0] ++ leBytes 2 c.id ++ leBytes 2 c.dest
        ++ leBytes 4 c.age ++ c.retry.take 2 ++ [b2n (c.chans.contains 0), b2n (c.chans.contains 1)] ++ padTo 64 c.payload ++ bitmap c.expect
    | none => List.replicate 208 0
  padTo 65536 (((List.range 1024).map node).flatten ++ acks 0 ++ acks 1 ++ leBytes 2 s.msh.lastId ++ abm ++ cmd
    ++ leBytes 2 s.msh.seen.length ++ seen)

/-- OUT, 64 bytes. -/
def secOut (s : State) : List Nat := padTo 64 (leBytes 32 ((List.range 256).foldl (fun v i => v + b2n (sessOf s i).dataOn * 2 ^ i) 0))

/-- State areas in entry order: address and size in history memory (07 R220). -/
def kstateAreas (s : State) : List (Nat × Nat × Nat) :=
  ((ktEnabled s.cfg).map (fun e => let w := ktWords s.cfg e; (e, s.histPart.getD 0 0 + ktStBase w * 65536, ktWork w * ktStSize w * 64))).filter
    (fun a => a.2.2 != 0)

/-- KSTATE. -/
def secKstate (s : State) : List Nat := ((kstateAreas s).map (fun a => Memory.bytes Memory.zero s.hist a.2.1 a.2.2)).flatten

/-- Next multiple of 64. -/
def up64 (n : Nat) : Nat := (n + 63) / 64 * 64

/-- The copy image of the state, with its number, for a blank (R466). -/
def copyImage (s : State) (seq epoch : Nat) : List Nat :=
  let secs := [secAlarm s, secEnergy s, secOsc s, secIsl s, secMesh s, secOut s, secKstate s]
  let t := nowNs s
  let (tab, body, _) := secs.zipIdx.foldl (fun (tab, body, at_) (b, i) =>
    let e := leBytes 4 (i + 1) ++ leBytes 4 at_ ++ leBytes 4 b.length ++ layoutOf s (i + 1)
    (tab ++ e, body ++ padTo (up64 b.length) b, at_ + up64 b.length)) (([] : List Nat), ([] : List Nat), 192)
  leBytes 8 seq ++ leBytes 8 epoch ++ leBytes 8 (t / 1000000000) ++ leBytes 4 (t % 1000000000) ++ leBytes 2 (fld s Reg.SYS_STATUS 31 16) ++ leBytes 2 7
    ++ tab ++ List.replicate 48 0 ++ body

/-! Sending (R466, R468). -/

/-- COPY_SEQ and EPOCH_INDEX of the last copy sent or applied. -/
def showCopy (s : State) (seq epoch : Nat) : State :=
  wr (wr (wr (wr s Reg.TWN_COPY_SEQ_LO seq) Reg.TWN_COPY_SEQ_HI (seq / 2 ^ 32)) Reg.TWN_COPY_EPOCH_LO epoch) Reg.TWN_COPY_EPOCH_HI (epoch / 2 ^ 32)

/-- The waiting copy starts on an idle link: COPY_BEGIN leaves. -/
def copyNext (s : State) : State :=
  match s.twn.sess, s.twn.sending, s.twn.waiting with
  | some _, none, some (e, img) =>
    let s := { s with twn := { s.twn with sending := some (e, img), waiting := none } }
    copyShow (linkSend s 0x10 (beBytes 8 (ofLe (img.take 8)) ++ beBytes 4 img.length ++ [0, 0, 0, 0]))
  | _, _, _ => s

/-- The copy of a blank starts in the cycle in which the blank becomes AMENDABLE (01 R31); a unit without contact copies to no one (R453). -/
def copyStart (s : State) (epoch : Nat) : State :=
  if (mode s ≠ Mode.active ∧ mode s ≠ Mode.legacyActive) ∨ twinRole s ≠ 1 ∨ s.twn.sess.isNone then s
  else
    let n := s.twn.seq + 1
    let img := copyImage s n epoch
    let s := if s.twn.waiting.isSome then inc s Reg.TWN_COPY_SKIP else s
    copyNext { s with twn := { s.twn with seq := n, waiting := some (epoch, img) } }

/-- TWIN_COPY_SENT (R466, R468): the copy's data and its COPY_END have left. -/
def execTwinCopySent (s : State) : Out :=
  match s.twn.sending with
  | none => .next s
  | some (e, img) =>
    let n := ofLe (img.take 8)
    let s := (chunks 65472 (ceilDiv img.length 65472) img).zipIdx.foldl (fun s (b, i) =>
      linkSend s 0x11 (beBytes 8 n ++ beBytes 4 (i * 65472) ++ [0, 0, 0, 0] ++ b)) s
    let s := linkSend s 0x12 (beBytes 8 n ++ beBytes 4 img.length ++ beBytes 4 (crc32c img))
    let s := showCopy (inc { s with twn := { s.twn with sending := none } } Reg.TWN_COPIES_SENT) n e
    .next (copyShow (copyNext s))

/-! Application (R470). -/

/-- Words of octets. -/
def leWords (b : List Nat) : List Nat := (chunks 4 (b.length / 4) b).map ofLe

/-- An assertion of the unit's own is applied again, silently. -/
def reassert (s : State) (a : Nat × Nat × Nat) : State :=
  let (line, src, e) := a
  if !bit s Reg.DET_ALM_CFG line || bit s Reg.DET_ALM_STATE line then s
  else
    let s := setB (setB s Reg.DET_ALM_STATE line true) Reg.DET_ALM_STATE (16 + line) (bits src 29 28 == 0)
    let s := wr (wr s (Reg.DET_ALM_SRC line) src) (Reg.DET_ALM_EPOCH line) e
    { s with det := { s.det with almEpoch := Tab.set (fun _ => 0) s.det.almEpoch line e } }

/-- ALARM. -/
def applyAlarm (s : State) (c : Nat) (b : List Nat) : State :=
  let w := leWords b
  let s := wr s Reg.DET_ALM_STATE (w.getD 0 0)
  let s := (List.range 16).foldl (fun s n =>
    let s := wr (wr s (Reg.DET_ALM_SRC n) (w.getD (1 + n) 0)) (Reg.DET_ALM_EPOCH n) (w.getD (17 + n) 0)
    { s with det := { s.det with almEpoch := Tab.set (fun _ => 0) s.det.almEpoch n (w.getD (17 + n) 0) } }) s
  let s := wr s Reg.DET_GS_STNUM (w.getD 33 0)
  (s.twn.asserts.filter (fun a => decide (c < a.2.2))).foldl reassert s

/-- ENERGY. -/
def applyEnergy (s : State) (snap : Nat) (b : List Nat) : State :=
  let cut (c : Nat) : Nat := payLe b (0xB60 + 12 * c) 8 * 1000000000 + payLe b (0xB68 + 12 * c) 4
  nrgApplyCopy s cut snap (b.drop 24)

/-- OSC: the committed state of one unit. -/
def applyOscUnit (s : State) (u : Nat) (w : List Nat) : State :=
  let o := oscOf s u
  let p := oscOrder s.cfg u
  let n := oscNsig s.cfg u
  let win := oscWin s.cfg u
  let at_ (i k : Nat) : List Nat := (w.drop i).take k
  let c := if w.getD 0 0 = 1 then some (w.getD 1 0 + w.getD 2 0 * 2 ^ 32) else none
  let i1 := 3 + p + p * p
  let i2 := i1 + n + 1
  let i3 := i2 + 1 + win
  let mu := (at_ i1 n).zipIdx.foldl (fun t (v, j) => Tab.set (fun _ => 0) t j v) ([] : Tab Nat)
  let modes := (List.range 16).foldl (fun t b =>
    let m := at_ (i3 + 6 * b) 6
    if m.getD 0 0 = 0 then t
    else Tab.put t b ⟨m.getD 1 0, m.getD 2 0, m.getD 3 0, m.getD 4 0, m.getD 5 0, bitOf (m.getD 0 0) 1⟩) ([] : Tab OscMode)
  let shapes := (List.range 16).foldl (fun t b => (List.range n).foldl (fun t j =>
    let i := i3 + 96 + (b * n + j) * 2
    Tab.set (fun _ => (0, 0)) t (b * 512 + j) (w.getD i 0, w.getD (i + 1) 0)) t) ([] : Tab (Nat × Nat))
  let keep : Nat → Bool := fun k => match c with | some e => decide (e < k) | none => true
  setOsc s u { o with
    c := c, a := at_ 3 p, pm := at_ (3 + p) (p * p), mu := mu, nf := w.getD (i1 + n) 0, ys := at_ (i2 + 1) (w.getD i2 0), modes := modes, shapes := shapes
    samp := o.samp.filter (fun e => keep e.1), seals := o.seals.filter (fun e => keep e.1) }

/-- OSC. -/
def applyOsc (s : State) (b : List Nat) : State :=
  ((oscUnits s).foldl (fun (s, w) u =>
    let k := oscWords (oscOrder s.cfg u) (oscNsig s.cfg u) (oscWin s.cfg u)
    (applyOscUnit s u (w.take k), w.drop k)) (s, leWords b)).1

/-- ISL. -/
def applyIsl (s : State) (b : List Nat) : State :=
  let t := islPairs.zipIdx.foldl (fun t ((a, g), i) =>
    let v := payLe b (8 * i) 8
    (List.range 32).foldl (fun t j => Tab.set (fun _ => 0) t ((a * 64 + g) * 32 + j) (v / 4 ^ j % 4)) t) ([] : Tab Nat)
  { s with det := { s.det with isl := t } }

/-- MESH. -/
def applyMesh (s : State) (b : List Nat) : State :=
  let s := (List.range 1024).foldl (fun s a =>
    let i := 8 * a
    setNode s a { nodeOf s a with lastSeq := payLe b i 2, st := payLe b (i + 2) 1, wakes := payLe b (i + 3) 1, heard := payLe b (i + 4) 4 }) s
  let s := [0, 1].foldl (fun s n =>
    let i := 8192 + 2050 * n
    let q := (List.range (payLe b i 2)).map (fun j => (payLe b (i + 2 + 8 * j) 2, payLe b (i + 4 + 8 * j) 2, 0, payLe b (i + 6 + 8 * j) 4))
    onCh s n (fun c => { c with acks := q })) s
  let i := 8192 + 4100
  let s := (List.range 32).foldl (fun s j => wr s (Reg.MSH_ABM j) (payLe b (i + 2 + 4 * j) 4)) s
  let s := wr (wr s Reg.MSH_CMD_STATUS (payLe b (i + 130) 4)) Reg.MSH_CMD_EXP (payLe b (i + 134) 4)
  let k := i + 138
  let cmd : Option MeshCmd :=
    if payLe b k 1 = 0 then none
    else some ⟨payLe b (k + 4) 2, payLe b (k + 6) 2, payLe b (k + 1) 1, (b.drop (k + 16)).take (payLe b (k + 2) 1),
      (List.range 1024).filter (fun a => bitOf (payLe b (k + 80) 128) a), [payLe b (k + 12) 1, payLe b (k + 13) 1],
      (if payLe b (k + 3) 1 = 0 then none else some (payLe b (k + 3) 1 - 1)), payLe b (k + 8) 4,
      [0, 1].filter (fun n => payLe b (k + 14 + n) 1 == 1)⟩
  let m := k + 208
  let seen := (List.range (payLe b m 2)).map (fun j =>
    let x := m + 2 + 10 * j
    ([payLe b x 1 % 2, payLe b (x + 2) 2, payLe b (x + 1) 1, payLe b (x + 4) 2, payLe b x 1 / 2], payLe b (x + 6) 4, payLe b x 1 % 2))
  { s with msh := { s.msh with lastId := payLe b i 2, cmd := cmd, seen := seen } }

/-- OUT. -/
def applyOut (s : State) (b : List Nat) : State :=
  (List.range 256).foldl (fun s i => setSess s i { sessOf s i with dataOn := bitOf (payLe b 0 32) i }) s

/-- KSTATE. -/
def applyKstate (s : State) (b : List Nat) : State :=
  ((kstateAreas s).foldl (fun (s, b) a =>
    ({ s with hist := Memory.put Memory.zero s.hist a.2.1 (b.take a.2.2) }, b.drop a.2.2)) (s, b)).1

/-- One section by its type. -/
def applySection (s : State) (c snap ty : Nat) (b : List Nat) : State :=
  match ty with
  | 1 => applyAlarm s c b
  | 2 => applyEnergy s snap b
  | 3 => applyOsc s b
  | 4 => applyIsl s b
  | 5 => applyMesh s b
  | 6 => applyOut s b
  | 7 => applyKstate s b
  | _ => s

/-- A state whose ring holds a kept blank as it stood at its seal. -/
def withKept (s : State) (b : Blank) : State := setBlank s b

/-- A re-run of the committed track on a kept blank: no counter moves. -/
def rerunOsc (s : State) (b : Blank) : State :=
  (oscUnits s).foldl (fun s u =>
    let c := confOf s b.epoch
    if !detRuns s c u then s
    else
      let xs := sigEls (withKept s b) c u b.epoch
      let o := oscOf s u
      let s' := oscStep (setOsc s u { o with samp := Tab.put o.samp b.epoch (driving c u o xs) }) u b.epoch xs
      { s' with regs := s.regs }) s

/-- A re-run of the ON_SEAL invocations of entries with state, which leave only their state behind. -/
def rerunKernels (s : State) (b : Blank) : State :=
  let c := confOf s b.epoch
  ((ktEnabled c).filter (fun e => ktPoint (ktWords c e) == 1 && ktStSize (ktWords c e) != 0)).foldl (fun s e =>
    let v : Inv := ⟨s.ssk.nextInv, e, ktWords c e, b.epoch, 1, 0, s.cycle, b.timeGen, chuckOf s b.epoch, 0, 0, false, false, true⟩
    { s with ssk := { s.ssk with invs := s.ssk.invs ++ [v], nextInv := s.ssk.nextInv + 1 } }) s

/-- A complete copy is applied (R470). -/
def copyApply (s : State) (img : List Nat) : State :=
  let seq := payLe img 0 8
  let c := payLe img 8 8
  let snap := payLe img 16 8 * 1000000000 + payLe img 24 4
  let s := (List.range 7).foldl (fun s i =>
    let e := 32 + 16 * i
    let ty := payLe img e 4
    if (img.drop (e + 12)).take 4 ≠ layoutOf s ty then inc s Reg.TWN_SECT_SKIP
    else applySection s c snap ty ((img.drop (payLe img (e + 4) 4)).take (payLe img (e + 8) 4))) s
  let later := (s.aln.ring.filterMap id).filter (fun b => decide (3 ≤ b.state) && decide (c < b.epoch))
  let kept := (s.twn.kept.filter (fun b => decide (c < b.epoch))).reverse
  let lost := (later.filter (fun b => !kept.any (fun k => k.epoch == b.epoch))).length
  let s := kept.foldl (fun s b => rerunKernels (rerunOsc s b) b) s
  let s := addC s Reg.TWN_REPLAY_LOST lost
  let s := showCopy (inc { s with twn := { s.twn with applied := some (seq, c), sealsSince := 0, failed := false } } Reg.TWN_COPIES_APPLIED) seq c
  gooseCheck (alarmPins (setHealth s Health.twinStale (lost != 0)))

/-! Receiving (R469). -/

/-- Does the unit take copies? -/
def takesCopies (s : State) : Bool := mode s == Mode.standby || mode s == Mode.legacyStandby

/-- COPY_BEGIN: a copy still under way has failed. -/
def copyBegin (s : State) (b : List Nat) : State :=
  if !takesCopies s then s
  else
    let s := copyDiscard s
    copyShow { s with twn := { s.twn with rx := some ⟨ofBe (b.take 8), ofBe ((b.drop 8).take 4), s.cycle, [], false⟩ } }

/-- COPY_DATA. -/
def copyData (s : State) (b : List Nat) : State :=
  match s.twn.rx with
  | none => s
  | some r =>
    let ofs := ofBe ((b.drop 8).take 4)
    let d := b.drop 16
    let twice := (List.range d.length).any (fun i => Tab.has r.bytes (ofs + i))
    let bad := r.bad || ofBe (b.take 8) != r.seq || d.isEmpty || decide (r.len < ofs + d.length) || twice
    let t := if bad then r.bytes else d.zipIdx.foldl (fun t (v, i) => Tab.put t (ofs + i) v) r.bytes
    { s with twn := { s.twn with rx := some { r with bytes := t, bad := bad } } }

/-- COPY_END. -/
def copyEnd (s : State) (b : List Nat) : State :=
  match s.twn.rx with
  | none => s
  | some r =>
    let img := r.bytes.map (·.2)
    let newer := match s.twn.applied with | some (q, _) => decide (q < r.seq) | none => true
    let ok := !r.bad && ofBe (b.take 8) == r.seq && ofBe ((b.drop 8).take 4) == r.len && img.length == r.len
      && ofBe ((b.drop 12).take 4) == crc32c img && newer && takesCopies s
    if ok then copyApply (copyShow { s with twn := { s.twn with rx := none } }) img else copyDiscard s

/-- TWIN_COPY_TIMEOUT (R469). -/
def execTwinCopyTimeout (s : State) : Out :=
  match s.twn.rx with
  | none => .next s
  | some r => .next (gooseCheck (copyDiscard (passCyc s (r.at_ + 5000000))))

/-! Frames of a session in LSEQ order (R455). -/

/-- What a decrypted frame does; an unknown type is counted. -/
def linkFrame (s : State) (ftype epoch : Nat) (b : List Nat) : State :=
  match ftype with
  | 2 => healthReceive s epoch b
  | 3 => cfgReceive s b
  | 0x10 => copyBegin s b
  | 0x11 => copyData s b
  | 0x12 => copyEnd s b
  | _ => inc s Reg.TWN_AUTH_FAIL

/-- Process the frame that is due: a bad tag ends the session. -/
def linkTake (s : State) (l : LinkSess) (f : LinkFrame) : State :=
  let iv := linkIv (!l.pref) f.lseq
  let b := gcmText l.key iv f.body
  if f.tag ≠ gcmTag l.key iv (linkHeader f.ftype f.body.length f.lseq f.epoch f.role f.pri) b then sessEnd (inc s Reg.TWN_AUTH_FAIL)
  else linkFrame { s with twn := { s.twn with sess := some { l with rxSeq := f.lseq + 1 } } } f.ftype f.epoch b

/-- Process held frames that are due. -/
def linkDrain (s : State) : Nat → State
  | 0 => s
  | n + 1 =>
    match s.twn.sess with
    | none => s
    | some l =>
      match s.twn.held.find? (fun f => f.2.lseq == l.rxSeq) with
      | none => s
      | some f => linkDrain (linkTake { s with twn := { s.twn with held := s.twn.held.erase f } } l f.2) n

/-- A frame of the session arrives: it is processed in LSEQ order, and one that has passed already is dropped. -/
def linkReceive (s : State) (f : LinkFrame) : State :=
  match s.twn.sess with
  | none => s
  | some l =>
    if !lanesUp s || f.lseq < l.rxSeq then s
    else if l.rxSeq < f.lseq then { s with twn := { s.twn with held := s.twn.held ++ [(s.cycle, f)] } }
    else
      let s := linkTake s l f
      gooseCheck (linkDrain s s.twn.held.length)

/-- TWIN_HEALTH_RECEIVE (R458). -/
def execTwinHealthReceive (f : LinkFrame) (s : State) : Out := .next (linkReceive s { f with ftype := 2 })
/-- TWIN_CFG_RECEIVE (R473). -/
def execTwinCfgReceive (f : LinkFrame) (s : State) : Out := .next (linkReceive s { f with ftype := 3 })
/-- TWIN_COPY_BEGIN_RECEIVE (R469). -/
def execTwinCopyBeginReceive (f : LinkFrame) (s : State) : Out := .next (linkReceive s { f with ftype := 0x10 })
/-- TWIN_COPY_DATA_RECEIVE (R469). -/
def execTwinCopyDataReceive (f : LinkFrame) (s : State) : Out := .next (linkReceive s { f with ftype := 0x11 })
/-- TWIN_COPY_END_RECEIVE (R469, R470). -/
def execTwinCopyEndReceive (f : LinkFrame) (s : State) : Out := .next (linkReceive s { f with ftype := 0x12 })

end Sys2Proof.Machine
end

