-- ==== Sys2Proof/Machine/Twin.lean ====
section
/-! DEFINITION. Contact, the role rules and role changes, the TWN registers' writes and the continuous self-tests (16_twin_redundancy.md R459,
R462 to R465, R472; 01 R18). -/

namespace Sys2Proof.Machine

/-! Role changes (R463, R465, R472). -/

/-- TWIN_ROLE changes by a rule: item 0x0700 and the counter. -/
def setRole (s : State) (role rule : Nat) : State :=
  let was := twinRole s
  let s := setF s Reg.SYS_STATUS 15 14 role
  pushDev (inc s Reg.TWN_ROLE_CHANGES) 0x0700 [was + role * 4 + rule * 16]

/-- The frames that a new legacy active unit makes up for: those due at or after X0 and before its entry, in send-instant order (R472). -/
def catchUp (s : State) (x0 : Nat) : State :=
  let l := s.twn.skipped.filter (fun e => decide (epochPlus s x0 0 ≤ e.1))
  let s := l.foldl (fun s e => sendSkipped s e.2.1 e.2.2.1 e.2.2.2.1 e.2.2.2.2) s
  { s with twn := { s.twn with skipped := [] } }

/-- The unit enters the active role (R465): stNum rises by 256, and the data set, which no value before equals, is published as a state change. -/
def enterActive (s : State) (rule x0 : Nat) : State :=
  let m := mode s
  let n := max 1 ((rd s Reg.DET_GS_STNUM + 256) % 2 ^ 32)
  let sends := bit s Reg.DET_GS_CFG 31 && !gated s Reg.DET_GS_CFG
  let s := wr (wr s Reg.DET_GS_STNUM (if sends then n - 1 else n)) Reg.DET_GS_SQNUM 0
  let s := copyDiscard (setRole s (if rule = 2 then 3 else 1) rule)
  let s := copyShow { s with twn := { s.twn with take := false, want := false, hostRelinq := false, lower := 0, revertAt := none } }
  let s := enterMode { s with det := { s.det with gsDs := some (2 ^ 32) } } (m - 1) 8
  if m = Mode.legacyStandby then catchUp s x0 else s

/-- The unit returns to standby. -/
def enterStandby (s : State) (rule : Nat) : State :=
  let s := { s with twn := { s.twn with relinq := false, hostRelinq := false, lower := 0, waiting := none } }
  let s := setB (setRole s 2 rule) Reg.TWN_STATUS 27 false
  enterMode s (mode s + 1) 9

/-- A decided change takes effect, where the mode still allows it. -/
def roleTake (s : State) (act : Bool) (rule x0 : Nat) : State :=
  let s := { s with twn := { s.twn with due := none } }
  let m := mode s
  if act && (m == Mode.standby || m == Mode.legacyStandby) then enterActive s rule x0
  else if !act && (m == Mode.active || m == Mode.legacyActive) then enterStandby s rule
  else s

/-- ROLE_CHANGE (R463): at the epoch instant decided. -/
def execRoleChange (s : State) : Out :=
  match s.twn.due with
  | none => .next s
  | some (act, k, rule, x0) => .next (roleTake (passTo s (epochPlus s k 0)) act rule x0)

/-! Contact and the rules (R462, R463). -/

/-- HB_MISS, START_S in s, REVERT_S in s, DEGRADE_EP. -/
def hbMiss (s : State) : Nat := let n := fld s Reg.TWN_CFG 31 24; if 2 ≤ n ∧ n ≤ 15 then n else 3
def startS (s : State) : Nat := max 1 (fld s Reg.TWN_CFG 23 16)
def revertS (s : State) : Nat := max 10 (min 3600 (fld s Reg.TWN_CFG 15 0))
def degradeEp (s : State) : Nat := max 1 (fld s Reg.TWN_CFG2 15 0)

/-- The partner's word last received: epoch and word. -/
def peerLast (s : State) : Option (Nat × Nat) := s.twn.peerWords.foldl (fun o p => match o with
  | some x => if x.1 < p.1 then some p else some x
  | none => some p) none

/-- The word of an epoch in a list. -/
def wordFor (l : List (Nat × Nat)) (k : Nat) : Option Nat := (l.find? (fun p => p.1 == k)).map (·.2)

/-- Is a word's role active? -/
def wordActive (w : Nat) : Bool := bits w 29 28 == 1 || bits w 29 28 == 3

/-- Is the unit preferred, by what it knows of its partner? -/
def isPreferred (s : State) (w : Nat) : Bool := preferred s (bitOf w 24) (s.twn.peerId.getD 0)

/-- Decide a role change. -/
def decide_ (s : State) (act : Bool) (k rule x0 : Nat) : State := { s with twn := { s.twn with due := some (act, k, rule, x0) } }

/-- Rules of the active unit at the record of epoch `k`: Yield, Meet, Offer. -/
def rulesActive (s : State) (k : Nat) (contact : Bool) (w : Nat) : State :=
  let yield_ := match wordFor s.twn.ownWords (k - 1), wordFor s.twn.peerWords k with
    | some a, some b => bitOf a 27 && bitOf b 26
    | _, _ => false
  let meet := contact && wordActive w
  let g := ownGrade s
  let lower := if g < bits w 31 30 && bitOf w 22 then s.twn.lower + 1 else 0
  let offer := g == 0 || decide (degradeEp s ≤ lower) || (contact && bitOf w 25) || s.twn.hostRelinq
  let s := { s with twn := { s.twn with lower := lower, relinq := offer } }
  if yield_ then decide_ s false (k + 1) 1 0
  else if meet && !isPreferred s w then decide_ s false (k + 2) 3 0
  else s

/-- Rules of the standby unit: Take, Lost, Start, Revert. -/
def rulesStandby (s : State) (k : Nat) (contact assumed link : Bool) (w : Nat) : State :=
  let g := ownGrade s
  let takes := match wordFor s.twn.peerWords k with | some b => wordActive b && bitOf b 27 && g != 0 | none => false
  let pref := isPreferred s w
  let chosen := if pref then decide (bits w 31 30 ≤ g) else decide (bits w 31 30 < g)
  let ok := bit s Reg.TWN_CTRL 29 && pref && link && g == 2 && bits w 31 30 == 2 && cfgMatch s && bitOf w 23 && copyOk s && wordActive w
  let since := if ok then some (s.twn.revertAt.getD s.cycle) else none
  let want := match since with | some c => decide (c + revertS s * cycSec ≤ s.cycle) | none => false
  let s := { s with twn := { s.twn with take := takes, revertAt := since, want := want } }
  if takes then decide_ s true (k + 2) 0 (k + 1)
  else if !contact && !assumed then
    let x0 := match peerLast s with | some (e, _) => e | none => k
    if s.sys.twinMode = 2 then roleTake s true 2 x0 else decide_ s true (k + 1) 2 x0
  else if contact && bits w 29 28 == 2 && chosen then decide_ s true (k + 1) 4 (k + 1)
  else s

/-- TWIN_CONTACT_RECORD (R462, R463): 1 ms after an epoch instant. -/
def execTwinContactRecord (s : State) : Out :=
  if !inTwin (mode s) then .next s
  else
    let k := nextInstant s s.twn.recEp 1000
    let s := passTo s (epochPlus s k 1000)
    let hb := s.twn.hbEp.contains k
    let bc := s.twn.bcnEp.any (fun e => e.1 == k)
    let n := hbMiss s
    let recs := ((hb, bc) :: s.twn.recs).take 15
    let s := { s with twn := { s.twn with recEp := some k, recs := recs } }
    let s := if hb || bc then s else inc s Reg.TWN_HB_MISSED
    let link := (recs.take n).any (fun r => r.1)
    let bcn := (recs.take n).any (fun r => r.2)
    let contact := link || bcn
    let assumed := decide (recs.length < n) || decide (s.now < s.twn.entryAt + startS s * secU)
    let was := (bit s Reg.TWN_STATUS 26, bit s Reg.TWN_STATUS 25)
    let s := setB (setB s Reg.TWN_STATUS 26 link) Reg.TWN_STATUS 25 bcn
    let s := if was = (link, bcn) then s else pushDev s 0x0701 [b2n link + 2 * b2n bcn]
    let s := if contact then setB s Reg.TWN_STATUS 27 false else s
    let s := setF s Reg.TWN_STATUS 23 22 (ownGrade s)
    let w := match peerLast s with | some (_, w) => w | none => 0
    let act := mode s == Mode.active || mode s == Mode.legacyActive
    let role := if !act then 2 else if contact || assumed || bit s Reg.TWN_STATUS 27 then 1 else 3
    let s := if twinRole s = role ∨ s.twn.due.isSome then s else meshSettle (setF s Reg.SYS_STATUS 15 14 role)
    let s := if !act && bcn && !link && !assumed then setHealth s Health.twinStale true else s
    let s := if s.twn.due.isSome then { s with twn := { s.twn with take := false } }
      else if act then rulesActive s k contact w
      else rulesStandby s k contact assumed link w
    .next (gooseCheck s)

/-! Register writes (R464; TWN registers). -/

/-- Any write to the TWN region but the unlock spoils the unlock (R464). -/
def twnSpoil (s : State) : State := { s with twn := { s.twn with unlockAt := none } }

/-- A write of TWN_CTRL. -/
def twnCtrlWrite (s : State) (v : Nat) : State :=
  ungated s Reg.TWN_CTRL fun s =>
    let open_ := match s.twn.unlockAt with | some c => decide (s.cycle ≤ c + 500000) | none => false
    let was := bit s Reg.TWN_CTRL 31
    let s := setF (twnSpoil s) Reg.TWN_CTRL 31 29 (bits v 31 29)
    let s := if was && !bitOf v 31 then setLanes (sessEnd s) 0 else if !was && bitOf v 31 then setLanes s (twF s 17 16) else s
    match bits v 3 0 with
    | 1 => { s with twn := { s.twn with hostRelinq := mode s == Mode.active || mode s == Mode.legacyActive } }
    | 2 =>
      if open_ && twinRole s == 3 && (mode s == Mode.active || mode s == Mode.legacyActive) then
        gooseCheck (setB (setRole s 1 5) Reg.TWN_STATUS 27 true)
      else s
    | 3 => sessEnd s
    | _ => s

/-- TWN_RELINQUISH, TWN_PARTNER_DOWN, TWN_LINK_RESTART: writes of TWN_CTRL with that OP. -/
def execTwnRelinquish (v : Word) (s : State) : Out := .next (twnCtrlWrite s (putBits v.toNat 3 0 1))
/-- TWN_PARTNER_DOWN (R464). -/
def execTwnPartnerDown (v : Word) (s : State) : Out := .next (twnCtrlWrite s (putBits v.toNat 3 0 2))
/-- TWN_LINK_RESTART (R455). -/
def execTwnLinkRestart (v : Word) (s : State) : Out := .next (twnCtrlWrite s (putBits v.toNat 3 0 3))

/-- A write of TWN_UNLOCK. -/
def twnUnlockWrite (s : State) (v : Nat) : State :=
  ungated s Reg.TWN_UNLOCK fun s => { s with twn := { s.twn with unlockAt := if v = 0x0D0E7A1C then some s.cycle else none } }

/-- TWN_UNLOCK_WRITE (R464). -/
def execTwnUnlockWrite (v : Word) (s : State) : Out := .next (twnUnlockWrite s v.toNat)

/-- A write of a TWN configuration register: writable while LINK_EN and BCN_EN are 0. -/
def twnCfgWrite (s : State) (off v : Nat) : State := if fld s Reg.TWN_CTRL 31 30 = 0 then wr (twnSpoil s) off v else twnSpoil s

/-! The opening of a blank, and its seal. -/

/-- A blank opens: a twin slot without its key ends the session (17 R493). -/
def twinAtOpen (s : State) : State := if s.twn.sess.isSome && (liveNow s (fld s Reg.TWN_KEY_SLOT 8 0) Usage.twin).isNone then sessEnd s else s

/-- A blank has sealed: its content is kept for re-runs (R470). -/
def twinAtSeal (s : State) (b : Blank) : State :=
  if s.sys.twinMode = 0 then s
  else { s with twn := { s.twn with kept := (b :: s.twn.kept).take 2, sealsSince := s.twn.sealsSince + 1 } }

/-! Continuous self-tests (R459) and the scrub (01 R18, 17 R476). -/

/-- A self-test failed. -/
def selfTestFail (s : State) : State :=
  gooseCheck (setHealth { s with sys := { s.sys with selfFailAt := some s.cycle } } Health.selftestFail true)

/-- SELFTEST_LANE_KAT: on an idle lane; a lane that fails is treated as requested out of service. -/
def execSelftestLaneKat (lane : Fin 32) (pass : Bool) (s : State) : Out :=
  let l := lane.val
  if (laneOf s l).item.isSome || !domOn s (6 + l / 4) then .next s
  else if pass then .next s
  else .next (selfTestFail { s with sys := { s.sys with laneFail := setBitN s.sys.laneFail l } })

/-- SELFTEST_CRYPTO_KAT. -/
def execSelftestCryptoKat (pass : Bool) (s : State) : Out := .next (if pass then s else selfTestFail s)

/-- MONITOR_OUT_OF_LIMITS. -/
def execMonitorOutOfLimits (s : State) : Out := .next (selfTestFail s)

/-- A key cell failed its integrity code (17 R476, R484): a live cell invalidates its slot, another cell is dropped. -/
def keyFault (s : State) (n cell : Nat) : State :=
  let k := slotOf s n
  if (k.cell cell).isNone then s
  else
    let s := setHealth (inc s Reg.KEY_FAULTS) Health.keyFault true
    if k.st = 1 ∧ k.live = cell then invalidate (setSlot s n { k with fault := true }) n
    else setSlot s n { k.setCell cell none with staged := false, flip := none }

/-- KEY_MASK_REFRESH (17 R476): every cell takes a new mask; the cells of the list fail their integrity code when they are loaded for it. -/
def execKeyMaskRefresh (badCells : List (Fin 512 × Fin 2)) (s : State) : Out :=
  .next (badCells.foldl (fun s p => keyFault s p.1 p.2) s)

/-- The entries of a blank that hold the 64-bit word at a byte offset are lost (01 R18). -/
def loseWord (b : Blank) (o : Nat) : Blank :=
  if o < 0x200000 then b.setPh (o / 16) { PhSlot.missing with flags := 512 }
  else if o < 0x210000 then b.setHdr ((o - 0x200000) / 8) Hdr.missing
  else if o < 0x220000 then
    let i := (o - 0x210000) / 8
    ((((b.setFr i (0x7FC00000, 0x7FC00000)).setEnv i 0x7C00).setEnv (8192 + i) 0x7C00).setLost (chFr + i) true).setLost (chRo + i) true
  else if o < 0x240000 then
    let i := (o - 0x220000) / 4
    [i, i + 1].foldl (fun b i => ((b.setAn i 0x7FC00000).setEnv (16384 + i) 0x7C00).setLost (chAn + i) true) b
  else if o < 0x248000 then
    let i := (o - 0x240000) / 2
    [i, i + 1, i + 2, i + 3].foldl (fun b i => b.setDg i 0) b
  else b

/-- One error of the scrub. A memory's count of corrected errors is 32 bits and saturates (00 R13; its width is log 130). An uncorrectable error in a
management core's memory leads to HALT (02 R45), and a parity error of a kernel-table entry has it reloaded before it is next used (07 R221). -/
def scrubOne (s : State) (e : EccError) : State :=
  if e.mem = 7 then keyFault s (e.slot % 512) (e.addr % 2)
  else if e.mem = 9 then { s with ssk := { s.ssk with ktBad := (e.slot % 128 :: s.ssk.ktBad).eraseDups } }
  else if e.corrected then
    { s with eccCorr := Tab.set (fun _ => 0) s.eccCorr e.mem (satAdd 32 (Tab.get (fun _ => 0) s.eccCorr e.mem) 1) }
  else if e.mem = 8 then halt s 0x12
  else
    let s := if e.mem = 0 then
        match s.aln.ring.getD (e.slot % 32) none with
        | some b => setBlank s (loseWord b (e.addr * 8 % 2621440))
        | none => s
      else s
    let x := (e.mem, e.slot % 32, e.addr)
    let s := if e.mem = 0 ∨ s.sys.ue.contains x then s else { s with sys := { s.sys with ue := x :: s.sys.ue } }
    eccUe s e.mem (if e.mem = 0 then e.slot % 32 else 0) e.addr

/-- MEMORY_SCRUB_PASS (R459). -/
def execMemoryScrubPass (errors : List EccError) (s : State) : Out := .next (gooseCheck (errors.foldl scrubOne s))

/-- ETH_PCS_LOCK_CHANGE (R459). -/
def execEthPcsLockChange (port : Fin 4) (lock : Bool) (s : State) : Out :=
  .next { s with twn := { s.twn with pcs := if lock then setBitN s.twn.pcs port else clrBitN s.twn.pcs port } }

end Sys2Proof.Machine
end

