-- ==== Sys2Proof/Machine/Keys.lean ====
section
/-! DEFINITION. Signed commands (17_keys_security.md R475 to R494): the checks, the effects, persistence by class, zeroisation and attestation.
The time limits of the answers are collapsed (log 14). -/

namespace Sys2Proof.Machine

/-! Codes and statuses. -/

abbrev KC.attest : Nat := 0x0001
abbrev KC.installOwner : Nat := 0x0002
abbrev KC.provisionDone : Nat := 0x0003
abbrev KC.ownerRotate : Nat := 0x0004
abbrev KC.secRaise : Nat := 0x0005
abbrev KC.keyLoad : Nat := 0x0010
abbrev KC.keyCommit : Nat := 0x0011
abbrev KC.keyDerive : Nat := 0x0012
abbrev KC.keyDelete : Nat := 0x0013
abbrev KC.pair : Nat := 0x0014
abbrev KC.enterDiag : Nat := 0x0020
abbrev KC.zeroize : Nat := 0x0021
abbrev KC.nrgClear : Nat := 0x0030
abbrev KC.logClear : Nat := 0x0031

/-- The codes of the command table. -/
def keyCodes : List Nat := [1, 2, 3, 4, 5, 0x10, 0x11, 0x12, 0x13, 0x14, 0x20, 0x21, 0x30, 0x31]

/-! Zeroisation (R492, R48). -/

/-- Every secret of the part is cleared; `kind` 0 by TAMPER_N, 1 by ZEROIZE. The mode follows, but in HALT and LAST-GASP; TAMPER_N goes before every
other trigger of its cycle, and a HALT of the cycle follows it (R47); no later use in the cycle finds a key (R485). -/
def zeroise (s : State) (kind : Nat) : State :=
  let (s, h) := if kind = 0 then modeBack s 1 else (s, none)
  let stamp := rtcNow s
  let s := { s with cyc := { s.cyc with slots := [] }, key := { s.key with
    bbk := none, root := none, rootDone := false
    slots := s.key.slots.filterMap (fun p => if p.2.gen = 0 then none else some (p.1, { KeySlot.empty with gen := p.2.gen }))
    zevents := s.key.zevents ++ [(kind, stamp)] } }
  let s := setB (keyShow (sessEnd s)) Reg.KEY_STATUS (if kind = 0 then 3 else 2) true
  let s := wr (wr s Reg.KEY_TAMPER_RTC_LO stamp) Reg.KEY_TAMPER_RTC_HI (stamp / 2 ^ 32)
  let s := wr s Reg.KEY_ZCOUNT (satAdd 16 (rd s Reg.KEY_ZCOUNT) 1)
  let s := setB s Reg.SYS_STATUS 12 false
  let s := if mode s = Mode.halt ∨ mode s = Mode.lastGasp then s else enterMode s Mode.zeroized 0x0C
  match h with
  | some c => halt s c
  | none => s

/-! Answers. -/

/-- CMD_SEQ. -/
def cmdSeq (s : State) : Nat := rd s Reg.KEY_CMD_SEQ_LO + rd s Reg.KEY_CMD_SEQ_HI * 2 ^ 32
def setCmdSeq (s : State) (n : Nat) : State := wr (wr s Reg.KEY_CMD_SEQ_LO n) Reg.KEY_CMD_SEQ_HI (n / 2 ^ 32)

/-- A result enters the cache in the place of the oldest (R488). -/
def cachePut (s : State) (e : KeyRes) : State :=
  let l := s.key.cache.filter (fun x => x.seq != e.seq) ++ [e]
  { s with key := { s.key with cache := l.drop (l.length - 16) } }

/-- CMD_BUSY and ring 14's IDLE follow the command being handled. -/
def busyShow (s : State) : State := ringIdle (setB s Reg.KEY_STATUS 7 s.key.busy.isSome) 14

/-- The answer to a command (Response): the counters, the response in its buffer, the completion. -/
def keyAnswer (s : State) (d : Option (Nat × Desc)) (c : KeyCmd) (code status : Nat) (result : List Nat) : State :=
  let s := if status = 0 then inc s Reg.KEY_CMD_OK else inc s Reg.KEY_CMD_REJ
  match d with
  | none => s
  | some (i, d) =>
    let r := [0x4B, 0x52, 0x53, 0x50] ++ leBytes 2 code ++ leBytes 2 status ++ leBytes 8 c.seq ++ leBytes 2 result.length ++ List.replicate 6 0 ++ result
    answerIn s ⟨14, i, d, r, 3, c.seq⟩

/-- A sequenced command is answered: its result enters the cache. -/
def keyDone (s : State) (d : Option (Nat × Desc)) (c : KeyCmd) (status : Nat) (result : List Nat) : State :=
  let s := if c.kind = 0 then s else cachePut s ⟨c.seq, c.code, status, false⟩
  busyShow (keyAnswer { s with key := { s.key with busy := none } } d c c.code status result)

/-! Checks (R487, R488). -/

/-- The octets that a signature covers. -/
def cmdBytes (c : KeyCmd) : List Nat :=
  [0x4B, 0x43, 0x4D, 0x44] ++ leBytes 2 c.ver ++ leBytes 2 c.code ++ leBytes 8 c.seq ++ leBytes 8 c.target ++ leBytes 2 c.kind
    ++ leBytes 2 c.payload.length ++ [0, 0, 0, 0] ++ c.payload

/-- The Porvon public key of the factory area, X then Y. -/
def porvonKey (s : State) : Nat := ofBe (nvBytes s 0x2C0001 96)

/-- Does a code accept a KEY_KIND? -/
def signerOk (c : KeyCmd) : Bool :=
  if c.code = KC.attest ∨ c.code = KC.installOwner then c.kind == 0
  else if c.code = KC.enterDiag ∨ c.code = KC.zeroize then c.kind == 1 || c.kind == 2
  else c.kind == 2

/-- Does the signature of a command verify? -/
def sigOk (s : State) (c : KeyCmd) : Bool :=
  if c.kind = 0 then true
  else
    let range := decide (1 ≤ c.r) && decide (c.r < p384Order) && decide (1 ≤ c.s) && decide (c.s < p384Order)
    match (if c.kind = 1 then some (porvonKey s) else s.key.owner) with
    | some k => range && ecdsaOk k (cmdBytes c) c.r c.s
    | none => false

/-- May a command run in the mode? -/
def cmdModeOk (s : State) (code : Nat) : Bool :=
  let m := mode s
  if code = KC.attest then (m == 1 && bit s Reg.SYS_STATUS 12) || (decide (2 ≤ m) && decide (m ≤ 8))
  else if code = KC.installOwner then m == 1 && s.key.owner.isNone
  else if code = KC.provisionDone then m == 1
  else if code = KC.enterDiag then m == 2 || m == 3 || m == 5 || m == 7
  else if code = KC.zeroize then m != Mode.halt && m != Mode.lastGasp
  else decide (2 ≤ m) && decide (m ≤ 7)

/-- A field of a command's payload. -/
def cmdLe (c : KeyCmd) (o n : Nat) : Nat := ofLe ((c.payload.drop o).take n)

/-! Attestation (R494). -/

/-- The record of a slot as SLOTS_DIGEST takes it. -/
def slotDigest (k : KeySlot) : List Nat :=
  let c (x : Option KeyCell) : List Nat := match x with | some c => leBytes 4 c.keyId ++ leBytes 4 c.kcv | none => List.replicate 8 0
  (slotHead k).take 12 ++ c k.cell0 ++ c k.cell1

/-- The report, signed with a fresh k. -/
def attestReport (s : State) (nonce : List Nat) : State × List Nat :=
  let t := nowNs s
  let st (b : Nat) : Bool := bit s Reg.SYS_STATUS b
  let flags := b2n (st 10) + 2 * b2n (st 9) + 4 * b2n (st 13) + 8 * b2n (st 11) + 16 * b2n s.key.pair.isSome
  let body := [0x4B, 0x41, 0x54, 0x54] ++ leBytes 2 1 ++ leBytes 2 544 ++ leBytes 8 (unitId s) ++ leBytes 4 (rd s Reg.SYS_ID) ++ leBytes 4 (rd s Reg.SYS_STEP)
    ++ nonce ++ leBytes 8 (t / 1000000000) ++ leBytes 4 (t % 1000000000) ++ leBytes 2 (fld s Reg.SYS_STATUS 31 16) ++ [mode s, flags]
    ++ beBytes 16 s.fw.imageId ++ leBytes 4 s.fw.sec ++ leBytes 4 (rd s Reg.KEY_SEC_MIN) ++ beBytes 48 s.fw.hash ++ chuckHash s
    ++ (match s.key.owner with | some p => sha (4 :: pubBytes p) | none => List.replicate 48 0)
    ++ cfgDigest s ++ (match agPub s with | some p => pubBytes p | none => List.replicate 96 0)
    ++ sha (((List.range 512).map (fun n => slotDigest (slotOf s n))).flatten) ++ leBytes 8 (cmdSeq s) ++ leBytes 8 s.rseq
  let (s, k) := fresh s (2 ^ 384)
  let sig := match s.key.root.bind idScalar with | some d => ecdsaSign d body k | none => (0, 0)
  (s, body ++ beBytes 48 sig.1 ++ beBytes 48 sig.2)

/-! Key slots (R481, R482, R484, R490, R493). -/

/-- KEY_LOAD: its status and the state after it. -/
def keyLoad (s : State) (c : KeyCmd) : State × Nat :=
  let n := cmdLe c 0 2
  if c.payload.length ≠ 172 ∨ 512 ≤ n then (s, 7)
  else
    let k := slotOf s n
    if k.flip.isSome ∨ k.st = 2 then (s, 8)
    else
      let e := ofBe ((c.payload.drop 16).take 96)
      let i := if k.st = 1 then 1 - k.live else 0
      match onCurve e, agreeZ s e with
      | true, some z =>
        let kt := ofBe (hkdf z (leBytes 8 (unitId s)) (ascii "TY8192-keyload") 32)
        let iv := (c.payload.drop 112).take 12
        let pt := gcmText kt iv ((c.payload.drop 124).take 32)
        if ofBe ((c.payload.drop 156).take 16) ≠ gcmTag kt iv ((cmdBytes c).take 48) pt % 2 ^ 128 ∨ pt.length ≠ 32 then (s, 7)
        else
          let key := ofBe pt
          if kcvOf key ≠ cmdLe c 8 4 then (setSlot s n { k.setCell i none with staged := false }, 9)
          else
            let k := k.setCell i (some ⟨cmdLe c 4 4, cmdLe c 8 4, key⟩)
            (setSlot s n (if k.st = 1 then { k with staged := true }
              else { k with st := 1, live := 1, usage := cmdLe c 2 1 % 16, parent := none, staged := true, fault := false }), 0)
      | _, _ => (s, 7)

/-- The child key of KEY_DERIVE: none where the parent holds no live key. -/
def childKey (s : State) (c : KeyCmd) : Option Nat :=
  let p := cmdLe c 0 2
  (liveCell s p Usage.parent).map (fun x => ofBe (hkdf (keyBytes x.key) [] ((c.payload.drop 12).take (cmdLe c 5 1)) 32))

/-- Status of the own checks of a class P command. -/
def keyParam (s : State) (c : KeyCmd) : Nat :=
  let len := c.payload.length
  let n := cmdLe c 0 2
  if c.code = KC.installOwner ∨ c.code = KC.ownerRotate then (if len = 96 then 0 else 7)
  else if c.code = KC.provisionDone then (if len = 0 ∧ bit s Reg.SYS_STATUS 12 ∧ s.key.owner.isSome then 0 else 7)
  else if c.code = KC.secRaise then
    (if len = 4 ∧ rd s Reg.KEY_SEC_MIN ≤ cmdLe c 0 4 ∧ cmdLe c 0 4 ≤ s.fw.sec then 0 else 7)
  else if c.code = KC.keyCommit then
    if len ≠ 16 ∨ 512 ≤ n then 7
    else
      let k := slotOf s n
      if k.flip.isSome ∨ k.st ≠ 1 ∨ !k.staged then 8 else 0
  else if c.code = KC.keyDerive then
    let child := cmdLe c 2 2
    let il := cmdLe c 5 1
    if len ≠ 12 + il ∨ il = 0 ∨ 64 < il ∨ 512 ≤ n ∨ 512 ≤ child then 7
    else if (childKey s c).isNone ∨ (slotOf s child).st ≠ 0 ∨ (slotOf s child).flip.isSome then 8
    else 0
  else if c.code = KC.keyDelete then
    if len ≠ 2 ∨ 512 ≤ n then 7
    else if (slotOf s n).st ≠ 1 ∨ (slotOf s n).flip.isSome then 8
    else 0
  else
    let k := slotOf s n
    let pub := ofBe ((c.payload.drop 16).take 96)
    if len ≠ 112 ∨ 512 ≤ n ∨ !onCurve pub ∨ (k.st ≠ 0 ∧ !bitOf k.usage Usage.twin) ∨ (pairKey s (cmdLe c 8 8) pub).isNone then 7 else 0

/-- A key is written live into cell 0 of a slot, with GEN + 1. -/
def writeLive (k : KeySlot) (cell : KeyCell) (usage : Nat) (parent : Option Nat) : KeySlot :=
  { k with st := 1, live := 0, usage := usage, parent := parent, gen := satAdd 32 k.gen 1, cell0 := some cell, staged := false, flip := none, fault := false }

/-- The effect of a class P command on the key store; `now` is false for what its bank write records, true for what happens when the write is
complete. -/
def keyEffect (s : State) (c : KeyCmd) (now : Bool) : State :=
  let n := cmdLe c 0 2
  if c.code = KC.installOwner ∨ c.code = KC.ownerRotate then
    setB { s with key := { s.key with owner := some (ofBe c.payload % 2 ^ 768) } } Reg.SYS_STATUS 11 true
  else if c.code = KC.provisionDone then { s with key := { s.key with rootDone := s.key.root.isSome } }
  else if c.code = KC.secRaise then wr s Reg.KEY_SEC_MIN (cmdLe c 0 4)
  else if c.code = KC.keyCommit then
    let at_ := cmdLe c 8 8
    let s := setSlot s n { slotOf s n with flip := some at_ }
    if now && decide (at_ ≠ 0) && decide (newestOr s < at_) then s else flipSlot s n
  else if c.code = KC.keyDerive then
    match childKey s c with
    | some key =>
      let child := cmdLe c 2 2
      setSlot s child (writeLive (slotOf s child) ⟨cmdLe c 8 4, kcvOf key, key⟩ (cmdLe c 4 1 % 16) (some n))
    | none => s
  else if c.code = KC.keyDelete then invalidate s n
  else
    let partner := cmdLe c 8 8
    let pub := ofBe ((c.payload.drop 16).take 96)
    match pairKey s partner pub with
    | some key =>
      let s := setSlot s n (writeLive (slotOf s n) ⟨Config.pairKeyId partner % 2 ^ 32, kcvOf key, key⟩ (2 ^ Usage.twin) none)
      setB { s with key := { s.key with pair := some ⟨n, partner, pub⟩ } } Reg.KEY_STATUS 6 true
    | none => s

/-- The result of a class P command, once its effect stands. -/
def keyResult (s : State) (c : KeyCmd) : List Nat :=
  let n := cmdLe c 0 2
  if c.code = KC.keyCommit then
    let k := slotOf s n
    match k.flip with
    | some a => leBytes 4 (satAdd 32 k.gen 1) ++ leBytes 8 a
    | none => leBytes 4 k.gen ++ leBytes 8 (newestOr s)
  else if c.code = KC.keyDerive then leBytes 4 (((slotOf s (cmdLe c 2 2)).cell0.map (·.kcv)).getD 0)
  else if c.code = KC.pair then leBytes 4 (((slotOf s n).cell0.map (·.kcv)).getD 0)
  else []

/-- The mode that the configuration in force selects (R45, R55): the mode and, from BOOT, its cause. -/
def operatingMode (s : State) : Nat × Nat :=
  if bit s Reg.SYS_STATUS 13 then (Mode.safeDefault, 3)
  else match s.sys.twinMode with
    | 1 => (Mode.standby, 5)
    | 2 => (Mode.legacyStandby, 6)
    | _ => (Mode.solo, 4)

/-! Persistence (R489). -/

/-- The bank write of a class P command: its effect, CMD_SEQ and its result together. -/
def persistP (s : State) (c : KeyCmd) : State :=
  let t := keyEffect s c false
  let t := if c.kind = 0 then t else cachePut t ⟨c.seq, c.code, 0, false⟩
  let (t, p) := keyPayload t
  requestBank { s with freeCtr := t.freeCtr } 2 1 1 p

/-- A command begins to wait for bank writes. -/
def keyWait (s : State) (d : Nat × Desc) (c : KeyCmd) (writes : Nat) : State :=
  busyShow { s with key := { s.key with busy := some ⟨c, some d, writes⟩ } }

/-- The effect of NRG_CLEAR in the energy bank (R395, R489): with no authority and no shadow, or with authority, the bank is written. -/
def nrgClearNow (s : State) (circs : Nat) : State :=
  let s := nrgClearMask s circs
  if runsShadow (mode s) then s else startSave s (if runsAlarms (mode s) then 1 else 3) 3 7

/-- The pending class X command is done: PENDING clears in the next bank write. -/
def pendClear (s : State) : State :=
  saveKeys { s with key := { s.key with cache := s.key.cache.map (fun e => { e with pend := false }), pendArg := [] } } 0

/-- A bank write of the running command has been committed. -/
def keyCommitted (s : State) : State :=
  match s.key.busy with
  | none => s
  | some b =>
    let c := b.cmd
    if 1 < b.left then persistP { s with key := { s.key with busy := some { b with left := b.left - 1 } } } c
    else if c.code = KC.nrgClear then
      let s := nrgClearNow s (cmdLe c 0 1)
      let shadow := runsShadow (mode s)
      let s := { s with key := { s.key with busy := none } }
      let s := busyShow (keyAnswer (cachePut s ⟨c.seq, c.code, 0, !shadow⟩) b.desc c c.code 0 [])
      if shadow then pendClear s else s
    else
      let s := keyEffect s c true
      let s := keyDone s b.desc c 0 (keyResult s c)
      if c.code = KC.provisionDone ∧ mode s = Mode.provision then enterMode s (operatingMode s).1 7 else s

/-- A bank write of the running command has been abandoned: NV_FAIL, and none of its effect. -/
def keyAbandoned (s : State) : State :=
  match s.key.busy with
  | none => s
  | some b => keyDone s b.desc b.cmd 10 []

/-! The command (R487 to R489). -/

/-- A command that has passed the checks up to MODE runs: class V at once, class P and X with their bank write. -/
def keyRun (s : State) (d : Nat × Desc) (c : KeyCmd) : State :=
  if c.code = KC.attest then
    if c.payload.length ≠ 32 then keyDone s (some d) c 7 []
    else
      let (s, r) := attestReport s c.payload
      keyDone s (some d) c 0 r
  else if c.code = KC.keyLoad then
    let (s, st) := keyLoad s c
    keyDone s (some d) c st []
  else if c.code = KC.enterDiag then
    if c.payload.isEmpty then keyDone (enterMode s Mode.diagnostic 0x0A) (some d) c 0 [] else keyDone s (some d) c 7 []
  else if c.code = KC.zeroize then
    if c.payload.isEmpty then keyDone (zeroise s 1) (some d) c 0 [] else keyDone s (some d) c 7 []
  else if c.code = KC.logClear then
    match (if c.payload.length = 8 then logClear s (cmdLe c 0 4) (cmdLe c 4 4) else none) with
    | some s => keyDone s (some d) c 0 []
    | none => keyDone s (some d) c 7 []
  else if c.code = KC.nrgClear then
    if c.payload.length ≠ 1 then keyDone s (some d) c 7 []
    else
      let s := cachePut { s with key := { s.key with pendArg := c.payload } } ⟨c.seq, c.code, 0, true⟩
      keyWait (saveKeys s 1) d c 1
  else
    match keyParam s c with
    | 0 => keyWait (persistP s c) d c (if c.code = KC.provisionDone then 2 else 1)
    | st => keyDone s (some d) c st []

/-- A command of ring 14 (R487, R488), the next in descriptor order. While another is handled, or where the ring cannot work, it waits in its
descriptor. -/
def keyCommand (s : State) (c : KeyCmd) (known : Bool) : State :=
  if s.key.busy.isSome ∨ gated s Reg.KEY_STATUS ∨ !ringRuns s 14 ∨ !busOk s ∨ posted s 14 = 0 ∨ cplRoom s 14 = 0 then s
  else
    let (s, i, desc) := takeDesc s 14
    let d := (i, desc)
    if !descOk desc then haltRing s 14 4
    else
      let reject (s : State) (st : Nat) : State := keyAnswer s (some d) c c.code st []
      let size := 32 + c.payload.length + (if c.kind = 0 then 0 else 96)
      if !c.magicOk ∨ c.ver ≠ 1 ∨ 4064 < c.payload.length ∨ desc.len < 1024 ∨ desc.len < size ∨ !known then reject s 1
      else if !signerOk c then reject s 6
      else if !sigOk s c then reject (inc s Reg.KEY_SIG_FAIL) 2
      else if c.target ≠ unitId s then reject s 3
      else
        match (if c.kind = 0 then none else s.key.cache.find? (fun e => e.seq == c.seq)) with
        | some e => keyAnswer (inc s Reg.KEY_REPEAT) (some d) c e.code e.status []
        | none =>
          if c.kind ≠ 0 ∧ c.seq ≤ cmdSeq s then reject s 4
          else
            let s := if c.kind = 0 then s else setCmdSeq s c.seq
            if !cmdModeOk s c.code then keyDone s (some d) c 5 [] else keyRun s d c

/-- ATTEST (R494). -/
def execAttest (c : KeyCmd) (s : State) : Out := .next (keyCommand s { c with code := KC.attest } true)
/-- INSTALL_OWNER (R487, R489). -/
def execInstallOwner (c : KeyCmd) (s : State) : Out := .next (keyCommand s { c with code := KC.installOwner } true)
/-- PROVISION_DONE (R478, R55). -/
def execProvisionDone (c : KeyCmd) (s : State) : Out := .next (keyCommand s { c with code := KC.provisionDone } true)
/-- OWNER_ROTATE. -/
def execOwnerRotate (c : KeyCmd) (s : State) : Out := .next (keyCommand s { c with code := KC.ownerRotate } true)
/-- SEC_RAISE. -/
def execSecRaise (c : KeyCmd) (s : State) : Out := .next (keyCommand s { c with code := KC.secRaise } true)
/-- KEY_LOAD (R481). -/
def execKeyLoad (c : KeyCmd) (s : State) : Out := .next (keyCommand s { c with code := KC.keyLoad } true)
/-- KEY_COMMIT (R482). -/
def execKeyCommit (c : KeyCmd) (s : State) : Out := .next (keyCommand s { c with code := KC.keyCommit } true)
/-- KEY_DERIVE (R490). -/
def execKeyDerive (c : KeyCmd) (s : State) : Out := .next (keyCommand s { c with code := KC.keyDerive } true)
/-- KEY_DELETE (R484). -/
def execKeyDelete (c : KeyCmd) (s : State) : Out := .next (keyCommand s { c with code := KC.keyDelete } true)
/-- PAIR (R493). -/
def execPair (c : KeyCmd) (s : State) : Out := .next (keyCommand s { c with code := KC.pair } true)
/-- ENTER_DIAG (R45). -/
def execEnterDiag (c : KeyCmd) (s : State) : Out := .next (keyCommand s { c with code := KC.enterDiag } true)
/-- ZEROIZE (R492). -/
def execZeroize (c : KeyCmd) (s : State) : Out := .next (keyCommand s { c with code := KC.zeroize } true)
/-- NRG_CLEAR (R395, R489). -/
def execNrgClear (c : KeyCmd) (s : State) : Out := .next (keyCommand s { c with code := KC.nrgClear } true)
/-- LOG_CLEAR (R509). -/
def execLogClear (c : KeyCmd) (s : State) : Out := .next (keyCommand s { c with code := KC.logClear } true)
/-- UNKNOWN_COMMAND_CODE: a code outside the command table answers FORMAT. -/
def execUnknownCommandCode (c : KeyCmd) (s : State) : Out := .next (keyCommand s c false)

/-- KEY_FLIP (R482): the flip of a slot whose blank has come. -/
def execKeyFlip (slot : Fin 512) (s : State) : Out :=
  match (slotOf s slot).flip with
  | some a => .next (if a ≤ newestOr s then flipSlot s slot else s)
  | none => .next s

end Sys2Proof.Machine
end

