-- ==== Sys2Proof/Machine/NvLine.lean ====
section
/-! DEFINITION. The end of a bank line write, and whom a committed or abandoned bank write concerns (18_nonvolatile_drill_log.md R498 to R500). -/

namespace Sys2Proof.Machine

/-- A committed bank write. -/
def bankCommitted (s : State) (w : BankWr) : State :=
  let s := if w.kind = 0 then setB s Reg.SYS_STATUS 8 (w.bank == 1) else s
  let s := if w.kind = 1 then
      let s := wr (inc s Reg.NRG_SAVES) Reg.NRG_SAVE_SEQ w.seq
      setB s Reg.NRG_STATUS 3 (saving s)
    else s
  match w.who with
  | 1 => keyCommitted s
  | 2 => setB s Reg.TXN_STATUS 11 true
  | 4 => { s with pwr := { s.pwr with saveDone := some s.cycle } }
  | 7 => pendClear s
  | 8 => saveKeys s 9
  | 9 => setB s Reg.SYS_STATUS 12 s.key.root.isSome
  | _ => s

/-- An abandoned bank write. -/
def bankAbandoned (s : State) (w : BankWr) : State :=
  let s := if w.kind = 1 then setB s Reg.NRG_STATUS 3 (saving s) else s
  match w.who with
  | 1 => keyAbandoned s
  | 4 => { s with pwr := { s.pwr with saveDone := some s.cycle } }
  | _ => s

/-- NV_LINE_WRITE_COMPLETE (R498, R500). In HALT the store is not in service (02 R42). -/
def execNvLineWriteComplete (ok : Bool) (s : State) : Out :=
  if mode s = Mode.halt then .next s
  else match bankLine s ok with
  | (s, .going) => .next s
  | (s, .committed w) => .next (bankCommitted s w)
  | (s, .abandoned w) => .next (bankAbandoned s w)

end Sys2Proof.Machine
end

