-- ==== Sys2Proof/Machine/Image.lean ====
section
/-! DEFINITION. Kolit images: verification, and the chucks' VERIFY and ERASE (07_suesk_programming_model.md R235, R236, R240, R241; 02 R52; 17
R491). -/

namespace Sys2Proof.Machine

/-- Where an image lies: bytes by offset and length. -/
abbrev Image := Nat → Nat → List Nat

/-- A little-endian field of an image. -/
def Image.le (g : Image) (o n : Nat) : Nat := ofLe (g o n)

/-- IMAGE_SIZE; has it an owner signature; where the first signature block starts. -/
def Image.size (g : Image) : Nat := Image.le g 0x14 4
def Image.owned (g : Image) : Bool := bitOf (Image.le g 0x0C 4) 0
def Image.sigAt (g : Image) : Nat := Image.size g - (if Image.owned g then 208 else 104)

/-- The sections: type, offset, size, load address. -/
def Image.sections (g : Image) : List (Nat × Nat × Nat × Nat) :=
  (List.range (min 16 (Image.le g 0x18 4))).map (fun i =>
    let a := 0x40 + 16 * i
    (Image.le g a 2, Image.le g (a + 4) 4, Image.le g (a + 8) 4, Image.le g (a + 12) 4))

/-- Code 1: the header's fixed fields, and its type and flags (R241). -/
def imgHeader (g : Image) (ty : Nat) : Bool :=
  Image.le g 0 4 == 0x544C4F4B && Image.le g 4 2 == 1 && Image.le g 6 2 == 0x200 && Image.le g 8 4 == ty && Image.le g 0x1C 4 == 0x7A192001
    && !(ty == 2 && bitOf (Image.le g 0x0C 4) 1)

/-- Code 3: sections and size (R241). -/
def imgLayout (g : Image) (ty : Nat) : Bool :=
  let n := Image.le g 0x18 4
  let ss := Image.sections g
  let top := Image.sigAt g
  let apart := (List.range ss.length).all (fun i => (List.range i).all (fun j =>
    match ss[i]?, ss[j]? with
    | some a, some b => decide (a.2.1 + a.2.2.1 ≤ b.2.1) || decide (b.2.1 + b.2.2.1 ≤ a.2.1)
    | _, _ => true))
  decide (1 ≤ n) && decide (n ≤ 16) && decide (0x200 + 104 ≤ Image.size g) && decide (0x200 ≤ top)
    && ss.all (fun c => decide (0x200 ≤ c.2.1) && decide (c.2.1 % 64 = 0) && decide (c.2.1 + c.2.2.1 ≤ top)) && apart
    && (if ty = 2 then decide (Image.size g ≤ 1044480) && ss.any (fun c => c.1 == 1) else decide (Image.size g ≤ 0x2000000))

/-- One signature block at an offset, over a message, under a public key (R240). -/
def imgSig (g : Image) (o kind key : Nat) (m : List Nat) : Bool :=
  let r := ofBe (g (o + 8) 48)
  let v := ofBe (g (o + 56) 48)
  Image.le g o 4 == 0x4749534B && Image.le g (o + 4) 2 == kind && decide (1 ≤ r) && decide (r < p384Order) && decide (1 ≤ v)
    && decide (v < p384Order) && ecdsaOk key m r v

/-- The first failing check of an image, in the order of the FAIL codes; 0 where it passes (17 R491). -/
def imgFail (s : State) (g : Image) (ty : Nat) : Nat :=
  let o := Image.sigAt g
  if !imgHeader g ty then 1
  else if rd s Reg.SYS_STEP % 256 < Image.le g 0x38 4 then 2
  else if !imgLayout g ty then 3
  else if g 0x140 48 ≠ sha (g 0x200 (o - 0x200)) then 4
  else if sha384 (nvBytes s 0x2C0000 97) ≠ Config.romKeyHash ∨ !imgSig g o 1 (porvonKey s) (g 0 0x200) then 5
  else if (match s.key.owner with
      | some k => !Image.owned g || !imgSig g (o + 104) 2 k (g 0 0x200 ++ g o 104)
      | none => false) then 6
  else if Image.le g 0x10 4 < rd s Reg.KEY_SEC_MIN then 7
  else 0

/-- The record of an image that is refused. -/
def imgRefused (s : State) (code dev : Nat) (g : Image) : State := logRec s 0x0002 ([code, dev] ++ g 0x28 16)

/-! The chucks. -/

/-- The chuck that VERIFY and ERASE act on. -/
def idleChuck (s : State) : Nat := 1 - b2n (bit s Reg.SSK_CHUCK_SEL 0)

/-- The content state of the idle chuck takes a value. -/
def setIdleState (s : State) (v : Nat) : State := idleShow { s with ssk := { s.ssk with chuckSt := s.ssk.chuckSt.set (idleChuck s) v } }

/-- OP = VERIFY (R236). -/
def sskVerifyOp (s : State) : State :=
  let st := s.ssk.chuckSt.getD (idleChuck s) 0
  if st = 1 ∨ st = 3 ∨ st = 4 then setIdleState s 2 else s

/-- Is a write to the idle chuck refused? (R235) -/
def chuckRefuses (s : State) : Bool :=
  bit s Reg.SSK_CHUCK_SEL 2 || bit s Reg.SSK_CHUCK_SEL 4 || s.ssk.chuckSt.getD (idleChuck s) 0 == 2

/-- OP = ERASE. -/
def sskEraseOp (s : State) : State :=
  if chuckRefuses s then setB s Reg.SSK_CHUCK_SEL 3 true
  else
    let i := idleChuck s
    let m := (s.ssk.chucks.getD i []).filter (fun p => decide (0xFF000 ≤ p.1))
    setIdleState { s with ssk := { s.ssk with chucks := s.ssk.chucks.set i m } } 0

/-- A write of SSK_CTRL. -/
def sskCtrlWrite (s : State) (v : Nat) : State :=
  match bits v 2 0 with
  | 1 => sskVerifyOp s
  | 2 => sskEraseOp s
  | _ => s

/-- SSK_VERIFY (R236). -/
def execSskVerify (s : State) : Out := .next (ungated s Reg.SSK_CTRL fun s => sskCtrlWrite s 1)
/-- SSK_ERASE (R235). -/
def execSskErase (s : State) : Out := .next (ungated s Reg.SSK_CTRL fun s => sskCtrlWrite s 2)

/-- A chuck as an image. -/
def chuckImage (s : State) (k : Nat) : Image := fun o n => Memory.bytes Memory.zero (s.ssk.chucks.getD k []) o n

/-- SSK_VERIFY_COMPLETE (R236). An image that fails leaves a Drill Log record of its failing check (02 R52); the record's NOR device, which a chuck
has none of, is free (log 148). -/
def execSskVerifyComplete (s : State) : Out :=
  match s.ssk.chuckSt.findIdx? (fun x => x == 2) with
  | none => .next s
  | some k =>
    let g := chuckImage s k
    let code := imgFail s g 2
    let s := { s with ssk := { s.ssk with chuckSt := s.ssk.chuckSt.set k (if code = 0 then 3 else 4) } }
    let s := setF (idleShow s) Reg.SSK_VERIFY_STATUS 7 0 code
    .next (if code = 0 then setF s Reg.SSK_VERIFY_STATUS 23 8 (Image.le g 0x10 4 % 65536)
      else (let (s, dev) := fresh s 256; imgRefused s code dev g))

end Sys2Proof.Machine
end

