-- ==== Sys2Proof/Machine/Boot.lean ====
section
/-! DEFINITION. Reset, BOOT, PROVISION's entropy, the watchdogs, LAST-GASP and the battery domain (02_modes_startup.md R45 to R58; 17 R477, R478,
R492; 08 R278; 19 R518 to R527, R531). BOOT_EXIT carries out every step of BOOT in one fabric cycle (log 14). -/

namespace Sys2Proof.Machine

/-! Management cores (08 R278). -/

/-- A core leaves reset at the running firmware's entry. -/
def coreStart (s : State) (c : Nat) (held : Bool) : State :=
  let x : ProcS := { ProcS.reset held with pc := s.fw.entry, start := s.cycle, wdogAt := s.cycle }
  { s with ssk := { s.ssk with cores := s.ssk.cores.set c x } }

/-- A watchdog expiry of a core: it resets and restarts; the third within 60 s leads to HALT. -/
def coreExpiry (s : State) (c : Nat) : State :=
  let l := s.sys.wdog.filter (fun t => decide (s.cycle < t + 60 * cycSec)) ++ [s.cycle]
  let s := pushDev { s with sys := { s.sys with wdog := l } } 0x0060 [c]
  let s := coreStart s c false
  if 3 ≤ l.length then halt s 0x12 else s

/-- Does a core run? -/
def coreRuns (s : State) (c : Nat) : Bool :=
  domOn s c && mode s != Mode.boot && mode s != Mode.halt
    && (match s.ssk.cores[c]? with | some x => !x.held | none => false)

/-- WATCHDOG_EXPIRY: 100 ms after the watchdog's last restart (R277, R278). -/
def execWatchdogExpiry (core : Fin 4) (s : State) : Out :=
  if coreRuns s core then
    .next (coreExpiry (passCyc s ((s.ssk.cores.getD core (ProcS.reset true)).wdogAt + 50000000)) core)
  else .next s

/-! Reset (R45, R49; 19 R519 to R521). -/

/-- The part after a reset: every register and store at its reset value, but for what keeps its content: the non-volatile store, NOR, the battery
domain, levels at the balls, the TAP, and host memory. `pri` is the sample of TWIN_PRI. -/
def resetPart (s : State) (pri : Bool) : State :=
  let r := State.reset
  let keep (t : State) (off m : Nat) : State := wr t off (rd s off &&& m)
  let r := { r with
    pending := s.pending, cycle := s.cycle, freeCtr := s.freeCtr, hostData := s.hostData, rtcBase := s.rtcBase
    dma := { r.dma with hostMem := s.dma.hostMem, msixSent := s.dma.msixSent }
    nvs := { r.nvs with store := s.nvs.store, nor := s.nvs.nor.map (fun n => { n with run := none }) }
    key := { r.key with bbk := s.key.bbk, zevents := s.key.zevents }
    pwr := { r.pwr with stamp := s.pwr.stamp, fallAt := s.pwr.fallAt, riseAt := s.pwr.riseAt }
    pins := { r.pins with twinPri := pri, ref25 := s.pins.ref25, trstLow := s.pins.trstLow, xtrigLvl := s.pins.xtrigLvl }
    jtag := s.jtag }
  let r := keep (keep (keep (keep r Reg.KEY_STATUS 0xC) Reg.KEY_TAMPER_RTC_LO 0xFFFFFFFF) Reg.KEY_TAMPER_RTC_HI 0xFFFFFFFF) Reg.KEY_ZCOUNT 0xFFFF
  setB (keyShow (keep r Reg.PWR_STATUS 0x700)) Reg.TWN_STATUS 31 pri

/-- What a low pulse on a reset input does, by its width in ns. -/
def resetPulse (s : State) (lowNs : Nat) (pri : Bool) : State :=
  if lowNs < 1000 then s
  else if 10000 ≤ lowNs then resetPart s pri
  else
    let (s, v) := fresh s 2
    if v = 1 then resetPart s pri else s

/-- RESET_RELEASE (R519, R521): TWIN_PRI is sampled. -/
def execResetRelease (lowNs : Nat) (twinPri : Bool) (s : State) : Out := .next (resetPulse s lowNs twinPri)
/-- PERST_RESET (R519): no pin is sampled again. -/
def execPerstReset (lowNs : Nat) (s : State) : Out := .next (resetPulse s lowNs s.pins.twinPri)
/-- REF25_LOSS (R520): the loss lasts until REF25_RETURN. -/
def execRef25Loss (ns : Nat) (s : State) : Out :=
  if ns ≤ 10000 then .next s
  else .next (resetPart { s with pins := { s.pins with ref25 := false } } s.pins.twinPri)
/-- REF25_RETURN (R520). -/
def execRef25Return (s : State) : Out := .next { s with pins := { s.pins with ref25 := true } }

/-! BOOT step 2: domains and the key-wrap bank (R51, R478, R497). -/

/-- A domain that BOOT admits is on. -/
def bootDomain (s : State) (d : Nat) : State :=
  let s := putN s Win.PWR_DOM d 0 (putBits (getN s Win.PWR_DOM d 0) 30 27 (8 + 4))
  inc (putN s Win.PWR_DOM d 1 (getN s Win.PWR_DOM d 1 + 1)) Reg.PWR_RAMPS

/-- VALID, NVS_SEQ, the bank in use and the fault record of a kind. -/
def bootBank (s : State) (kind : Nat) : State :=
  let s := [0, 1].foldl (fun s b => bankShow s kind b (bankValid s kind b) (bankSeq s kind b)) s
  let p := bankPick s kind
  let s := { s with nvs := { s.nvs with inUse := s.nvs.inUse.set kind (p.1.getD 1) } }
  if p.2 then bankLog s kind 0 else s

/-- The root of a key-wrap bank's ROOT_WRAP with its DONE flag. -/
def bankRoot (s : State) (b : Nat) : Option (Nat × Bool) :=
  if bankValid s 2 b then rootUnwrap s.key.bbk ((bankPayload s 2 b).take 96) else none

/-- The root that BOOT finds: one of a wrap that is DONE, of the bank in use first; else one whose tag verifies. -/
def bootRoot (s : State) : Option (Nat × Bool) :=
  let b := s.nvs.inUse.getD 2 1
  let l := [bankRoot s b, bankRoot s (1 - b)].filterMap id
  match l.find? (fun r => r.2) with
  | some r => some r
  | none => l.head?

/-- The key store as the bank in use has it. -/
def bootKeys (s : State) : State :=
  let r := bootRoot s
  let s := { s with key := { s.key with root := r.map (·.1), rootDone := (r.map (·.2)).getD false } }
  let s := match (bankPick s 2).1 with | some b => loadKeys s (bankPayload s 2 b) | none => s
  keyShow s

/-! Steps 3 and 4: the image (R52, R54). -/

/-- A NOR device as an image from an offset on. -/
def norImage (s : State) (dev at_ : Nat) : Image := fun o n => Memory.bytes norDef (norOf s dev).mem (at_ + o) n

/-- The device whose image passes, every refusal recorded; none where both fail. -/
def bootImage (s : State) : State × Option Nat :=
  let g := norImage s 0 0
  match imgFail s g 1 with
  | 0 => (s, some 0)
  | c =>
    let s := imgRefused s c 0 g
    let h := norImage s 1 0
    match imgFail s h 1 with
    | 0 => (setB (setB s Reg.SYS_STATUS 10 true) Reg.SYS_STATUS 9 true, some 1)
    | c => (imgRefused s c 1 h, none)

/-! Step 7: the configuration bank (R57, R58, R501; 07 R239; 01 R22). -/

/-- The entries of a payload after the health block: REGION, TABLE, data. -/
def cfgEntries : Nat → List Nat → List (Nat × Nat × List Nat)
  | 0, _ => []
  | n + 1, p =>
    if p.length < 8 then []
    else
      let c := payLe p 4 4
      (payLe p 0 2, payLe p 2 2, (p.drop 8).take c) :: cfgEntries n (p.drop (8 + ceilDiv c 8 * 8))

/-- A plain register takes the RW fields of a saved word; a transactional one lies in the copy in use. TXN_TARGET is RW in OPEN only, and RUN of
AFE_GRP_CTRL reads 0 in BOOT (12 R371); the MODCLK pins follow AFE_CTRL (12 R365). -/
def bootReg (s : State) (off v : Nat) : State :=
  if off = Reg.AFE_GRP_CTRL ∨ off = Reg.TXN_TARGET_LO ∨ off = Reg.TXN_TARGET_HI ∨ off = Reg.SSK_SWAP_AT_LO ∨ off = Reg.SSK_SWAP_AT_HI then s
  else if txnRegs.contains off then { s with cfg := putC s.cfg off 0 0 v }
  else
    let m := ((regRow? off).map (·.rw)).getD 0
    let s := wr s off ((rd s off ^^^ (rd s off &&& m)) ||| (v &&& m))
    if off = Reg.AFE_CTRL then { s with pins := { s.pins with modclk := bit s Reg.AFE_CTRL 31 } } else s

/-- A table entry of a window; the words of NRG_PLS from 2 on are RO. -/
def bootWin (s : State) (w : WinRow) (i : Nat) (ws : List Nat) : State :=
  if w.entries ≤ i ∨ w.kind = .readOnly then s
  else if w.kind = .trans then { s with cfg := ws.zipIdx.foldl (fun c (v, j) => putC c w.idx i j v) s.cfg }
  else (ws.take (if w.idx = Win.NRG_PLS then 2 else 8)).zipIdx.foldl (fun s (v, j) => putN s w.idx i j v) s

/-- One entry of the payload. -/
def bootEntry (s : State) (e : Nat × Nat × List Nat) : State :=
  let (region, table, d) := e
  let ws := (chunks 4 (d.length / 4) d).map ofLe
  if table = 0 then
    match cfgRegions.find? (fun r => r.1 == region) with
    | some r => ((plainRegs r).zip ws).foldl (fun s p => bootReg s p.1 p.2) s
    | none => s
  else if region = 0 ∧ table = 1 then { s with sys := { s.sys with twinMode := let m := ws.headD 0; if m ≤ 2 then m else 0 } }
  else if region = 0 ∧ table = 2 then (if ws.length = 8 ∧ ws.sum = 2 ^ 30 then { s with histPart := ws } else s)
  else if region = 8 ∧ table = 1 then { s with fw := { s.fw with prog := some (ws.headD 0 % 2, ws.getD 1 0) } }
  else
    match winAt? (region * 0x10000 + table) with
    | some w => (chunks (w.ndata + 1) (ws.length / (w.ndata + 1)) ws).foldl (fun s x => bootWin s w (x.headD 0) (x.drop 1)) s
    | none => s

/-- The parameters of an oscillation unit under the factory defaults: each in its range, and otherwise free, for no rule gives them (log 144). -/
def factoryOsc (s : State) (u : Nat) : State :=
  let draw (x : State × List Nat) (r : Nat × Nat) : State × List Nat := let (s, v) := fresh x.1 (r.2 + 1 - r.1); (s, x.2 ++ [r.1 + v])
  let (s, v) := [(4, 24), (1, 512), (1, 255), (1, 15), (1, 15), (16, 1024), (0x3F666666, 0x3F800000), (1, 0x7F7FFFFF), (1, 0x7F7FFFFF),
    (0x3F800000, 0x447A0000), (0, 0x3F800000), (0, 131071)].foldl draw (s, [])
  let g (i : Nat) : Nat := v.getD i 0
  let ws := [2 ^ 31 + g 0 * 2 ^ 26 + g 1 * 2 ^ 16 + g 2 * 2 ^ 8 + g 3 * 2 ^ 4 + g 4, g 5 * 2 ^ 10, g 6, g 7, g 8, g 9, g 10, g 11]
  { s with cfg := ws.zipIdx.foldl (fun c p => putC c Win.DET_OSC u p.2 p.1) s.cfg }

/-- The factory defaults beside the reset values (R58): every detector unit parameterised and out of service. -/
def factoryDefaults (s : State) : State :=
  let s := (List.range 8).foldl factoryOsc s
  let s := { s with cfg := putC s.cfg Reg.DET_ISL_CFG 0 0 (setBitN (getC s.cfg Reg.DET_ISL_CFG 0 0) 31), sys := { s.sys with oosUnit := 511 } }
  let s := detCommit s [] s.cfg
  setF (wr s Reg.SYS_OOS_UNIT 511) Reg.SYS_OOS_ACK_UNIT 8 0 511

/-- The configuration bank is applied, or the factory defaults stay in force (R57). -/
def bootConfig (s : State) : State :=
  match (bankPick s 0).1 with
  | none => factoryDefaults (setB s Reg.SYS_STATUS 13 true)
  | some b =>
    let p := bankPayload s 0 b
    let s := if bankValid s 0 0 && bankValid s 0 1 then s else setHealth s Health.cfgBankErr true
    let s := setB s Reg.SYS_STATUS 8 (b == 1)
    let s := wr { s with nvs := { s.nvs with faultSlot := payLe p 8 4, faultSec := payLe p 12 8, faultNs := payLe p 20 4 } } Reg.NVS_LOG_DROPPED (payLe p 24 4)
    let s := (cfgEntries p.length (p.drop 64)).foldl bootEntry s
    let a := rd s Reg.TIME_ADDEND_LO + rd s Reg.TIME_ADDEND_HI * 2 ^ 32
    let s := if a = 0 then s else { s with time := { s.time with addend := a } }
    sessData (detCommit s [] s.cfg) [] s.cfg

/-- Every kernel-table entry is applied with EN = 0 (07 R239). -/
def ktOff (s : State) : State :=
  { s with cfg := (listed s.cfg Win.SSK_KT).foldl (fun c e => putC c Win.SSK_KT e 0 (bits (getC c Win.SSK_KT e 0) 30 0)) s.cfg }

/-- The program set that the configuration names is copied into chuck A and verified (07 R239). -/
def bootProgram (s : State) : State :=
  match s.fw.prog with
  | none => ktOff s
  | some (dev, at_) =>
    let g := norImage s dev at_
    let code := imgFail s g 2
    let s := setF s Reg.SSK_VERIFY_STATUS 7 0 code
    if code ≠ 0 then ktOff (imgRefused s code dev g)
    else
      let s := setF s Reg.SSK_VERIFY_STATUS 23 8 (Image.le g 0x10 4 % 65536)
      { s with ssk := { s.ssk with
        chucks := s.ssk.chucks.set 0 (Memory.put Memory.zero [] 0 (g 0 (Image.size g))), chuckSt := s.ssk.chuckSt.set 0 3 } }

/-! Step 6: the firmware. -/

/-- A firmware section goes to the cores' own memories, or to history memory, by its LOAD_ADDR. -/
def bootSection (g : Image) (s : State) (c : Nat × Nat × Nat × Nat) : State :=
  let (ty, off, size, at_) := c
  if ty ≠ 0x10 ∧ ty ≠ 0x11 then s
  else if at_ + size ≤ 0x40000 then
    { s with ssk := { s.ssk with coreMem := s.ssk.coreMem.map (fun m => Memory.put Memory.zero m at_ (g off size)) } }
  else if 0x40000000 ≤ at_ ∧ at_ + size ≤ 0x80000000 then { s with hist := Memory.put Memory.zero s.hist (at_ - 0x40000000) (g off size) }
  else s

/-- The firmware of a device is loaded, and the cores leave reset at its first FW_CODE section. -/
def bootFirmware (s : State) (dev : Nat) : State :=
  let g := norImage s dev 0
  let secs := Image.sections g
  let s := secs.foldl (bootSection g) s
  let s := { s with fw := { s.fw with
    imageId := ofBe (g 0x28 16), sec := Image.le g 0x10 4, hash := ofBe (g 0x140 48)
    entry := match secs.find? (fun c => c.1 == 0x10) with | some c => c.2.2.2 | none => 0 } }
  [0, 1, 2, 3].foldl (fun s c => coreStart s c false) s

/-! PROVISION (17 R477). -/

/-- Steps 1 to 4: a new battery key, a new root unless one exists, and the first of its two bank writes. -/
def provisionDraw (s : State) : State :=
  let (s, k) := fresh s (2 ^ 256)
  let s := { s with key := { s.key with bbk := some k } }
  let s :=
    if s.key.existing then s
    else
      let (s, r) := fresh s (2 ^ 384)
      { s with key := { s.key with root := some r, rootDone := false } }
  saveKeys (keyShow s) 8

/-- May the draws still be discarded: has no line of the first bank write been begun? -/
def provisionDrawing (s : State) : Bool :=
  mode s == Mode.provision && s.nvs.bw.any (fun w => w.who == 8 && w.line == 0 && w.fails == 0)

/-- ENTROPY_HEALTH_FAIL (17 R477; 16 R459). -/
def execEntropyHealthFail (s : State) : Out :=
  let s := selfTestFail (setB s Reg.KEY_STATUS 1 true)
  if !provisionDrawing s then .next s
  else
    let n := s.sys.entropyFails + 1
    let s := { s with sys := { s.sys with entropyFails := n }, nvs := { s.nvs with bw := s.nvs.bw.filter (fun w => w.who != 8) } }
    .next (if 3 ≤ n then halt s 0x11 else provisionDraw s)

/-! BOOT_EXIT (R51). -/

/-- Completion of a class X command that the key-wrap bank holds PENDING (17 R489). -/
def bootPending (s : State) : State :=
  match s.key.cache.find? (fun e => e.pend) with
  | some e => if e.code = KC.nrgClear then nrgClearNow s (s.key.pendArg.headD 0 % 256) else pendClear s
  | none => s

/-- Steps 5 to 8 with an image of a device. -/
def bootRest (s : State) (dev : Nat) : State :=
  let s := bootBank (bootBank s 0) 1
  let s := bootConfig (bootDomain { s with sys := { s.sys with bootStep := 8 } } 37)
  let s := bootFirmware s dev
  let s := ktShadow (bootProgram s) []
  let s := loadUpdate { s with now := rtcNow s * secU / 32768 }
  let s := nrgBoot s
  let s := s.key.zevents.foldl (fun s e => logRec s 0x0004 (e.1 :: leBytes 8 e.2)) s
  let s := { s with key := { s.key with zevents := [] }, sys := { s.sys with rateLocked := true } }
  if s.key.root.isSome && s.key.rootDone then
    let s := setB s Reg.SYS_STATUS 12 true
    let m := operatingMode s
    bootPending (enterMode s m.1 m.2)
  else
    let s := { s with key := { s.key with existing := s.key.root.isSome }, sys := { s.sys with entropyFails := 0 } }
    provisionDraw (enterMode s Mode.provision 2)

/-- BOOT_EXIT (R51): BOOT waits in step 1 while REF25_IN is lost, and before step 2 while PWR_FAIL_N is low (R520). -/
def execBootExit (romOk : Bool) (s : State) : Out :=
  if mode s ≠ Mode.boot ∨ !s.pins.ref25 then .next s
  else if !romOk then .next (halt s 0x12)
  else if s.pwr.fallAt.isSome then .next s
  else
    let s := [0, 1, 2, 3, 4, 5].foldl bootDomain { s with sys := { s.sys with bootStep := 2 } }
    let s := bootKeys (bootBank s 2)
    match bootImage s with
    | (s, some dev) => .next (bootRest s dev)
    | (s, none) => .next (halt s 0x10)

/-! LAST-GASP (R49, R540; 19 R523, R531; 13 R403). -/

/-- LAST_GASP_ENTRY (R540): when the low has lasted 2 µs, or in the cycle after an entry to a mode that finds it so. -/
def execLastGaspEntry (s : State) : Out :=
  match s.pwr.fallAt with
  | none => .next s
  | some c =>
    if !reachesLastGasp (mode s) then .next s
    else
      let s := if s.cycle < c + 1000 then passCyc s (c + 1000) else pass s 1
      let s := inc { s with pwr := { s.pwr with lgFall := c + 1, saveDone := none } } Reg.PWR_PF_EVENTS
      let s := twinLastGasp (enterMode s Mode.lastGasp 0x0B)
      let s := if s.key.busy.isSome then keyAbandoned s else s
      .next (if s.nvs.bw.any (fun w => w.who == 4) then s else { s with pwr := { s.pwr with saveDone := some s.cycle } })

/-- LAST_GASP_DOMAIN_OFF (19 R531): domains 23 and 24 at 150 µs after the fall, then 35 and 36 at 200 µs. -/
def execLastGaspDomainOff (s : State) : Out :=
  if mode s ≠ Mode.lastGasp then .next s
  else
    let fall := s.pwr.lgFall - 1
    let drop (s : State) (l : List Nat) : State := let s := l.foldl domDrop s; setB s Reg.PWR_STATUS 7 s.pwr.ramp.isSome
    if s.cycle < fall + 75000 ∨ domState s 23 ≠ 0 ∨ domState s 24 ≠ 0 then .next (drop (passCyc s (fall + 75000)) [23, 24])
    else .next (drop (passCyc s (fall + 100000)) [35, 36])

/-- LAST_GASP_RESET (R49): 10 ms after the later of the last rise of PWR_FAIL_N and the completion of the save. -/
def execLastGaspReset (s : State) : Out :=
  match s.pwr.saveDone, s.pwr.fallAt with
  | some c, none =>
    if mode s = Mode.lastGasp then .next (resetPart (passCyc s (max s.pwr.riseAt c + 5000000)) s.pins.twinPri) else .next s
  | _, _ => .next s

/-! The battery domain and the hold-up island (17 R492; 19 R524, R526). -/

/-- TAMPER_ASSERT (R492), by the width of the low. -/
def execTamperAssert (lowNs : Nat) (s : State) : Out :=
  if lowNs < 100 then .next s
  else if 1000 ≤ lowNs then .next (zeroise s 0)
  else
    let (s, v) := fresh s 2
    .next (if v = 1 then zeroise s 0 else s)

/-- HOLD_UP_COLLAPSE (19 R524): below 4.6 V the hold-up island is held in reset: core 0, the key store, the store's queues, the energy state. -/
def execHoldUpCollapse (s : State) : Out :=
  let r := State.reset
  let s := [0, 4, 5, 36].foldl domDrop s
  let s := { s with
    nvs := { s.nvs with bw := [], queue := [], fails := 0 }
    key := { r.key with bbk := s.key.bbk, zevents := s.key.zevents }
    nrg := r.nrg
    pwr := { s.pwr with saveDone := none } }
  .next (keyShow (setF (setB (coreStart s 0 true) Reg.KEY_STATUS 7 false) Reg.NVS_STATUS 22 16 0))

/-- BATTERY_LOSS (17 R492; 19 R526): the battery domain loses its content; what its registers hold then is open. -/
def execBatteryLoss (s : State) : Out :=
  let (s, t) := fresh s (2 ^ 64)
  let (s, z) := fresh s (2 ^ 16)
  let (s, p) := fresh s (2 ^ 64)
  let (s, st) := fresh s 2
  let (s, e) := fresh s 4
  let s := { s with rtcBase := t, key := { s.key with bbk := none, zevents := [] }, pwr := { s.pwr with stamp := if st = 1 then some p else none } }
  .next (keyShow (setF (wr s Reg.KEY_ZCOUNT z) Reg.KEY_STATUS 3 2 e))

end Sys2Proof.Machine
end

