-- ==== Sys2Proof/Machine/ChutePort.lean ====
section
/-! DEFINITION. The register port of the chutes (11_host_dma_chutes_compression.md R359). -/

namespace Sys2Proof.Machine

/-- The refusal of an item is taken back, with the message of vector 31 that it sent. -/
def unrefuse (s : State) (x : Refused) : State :=
  let others := s.cyc.refused.erase x
  let s := subC s (Reg.CH_PUSH_REFUSED x.ch) 1
  let s := if x.was || others.any (fun y => y.ch == x.ch) then s else setB s (Reg.CH_STATUS x.ch) 29 false
  let s := { s with cyc := { s.cyc with refused := others } }
  if x.sent && others.isEmpty then
    { s with
      dma := { s.dma with msixSent := Tab.set (fun _ => 0) s.dma.msixSent 31 (Tab.get (fun _ => 0) s.dma.msixSent 31 - 1) }
      cyc := { s.cyc with vecs := clrBitN s.cyc.vecs 31 } }
  else s

/-- A read of CH_RD_LO (R354): an item refused earlier in this cycle for which the stage that the pop frees makes room is admitted after all (R352,
R355). -/
def chuteRead (s : State) (n : Nat) (full : Bool) : State × Nat :=
  let (s, w) := chutePop s n full
  match s.cyc.refused.find? (fun x => x.ch == n && decide ((chuteOf s n).taken + x.req.payload.length + 3 ≤ 32)) with
  | some x => (chutAnswer (pushTo (unrefuse s x) n x.req x.dest).1 x.dest 1, w)
  | none => (s, w)

/-- CHUTE_POP (R354). -/
def execChutePop (ch : Fin 4) (be : BitVec 4) (s : State) : Out :=
  if gated s (Reg.CH_RD_LO ch) then .next { s with hostData := 0 }
  else
    let (s, w) := chuteRead s ch (be == 15)
    .next { s with hostData := BitVec.ofNat 32 w }

/-- CH_PUSH_SOI: a header word. An unfinished item is discarded; a LEN of 9 to 15, or too little room, refuses the item whole. -/
def portSoi (s : State) (n hi : Nat) : State :=
  ungated s (Reg.CH_PUSH_SOI n) fun s =>
    let w := hi % 2 ^ 32 * 2 ^ 32 + rd s (Reg.CH_PUSH_LO n)
    let c := chuteOf s n
    let s := if c.port.isSome then inc (setChute s n (c.release s.cycle)) (Reg.CH_FLUSH_TRUNC n) else s
    let c := chuteOf s n
    let len := bits w 15 12
    if 9 ≤ len ∨ 32 < c.taken + len + 3 then
      refuseItem { s with chutes := s.chutes.set n { c with portSkip := len } } n
    else
      let (s, q) := nextRseq s
      let h := itemHeader 7 0 0 (fld s Reg.SYS_STATUS 31 16) (bits w 31 16 % 2 ^ 15 + 2 ^ 15) len (bits w 11 10)
      let t := nowNs s
      let i : Item := ⟨bits w 11 10, [h, q, t]⟩
      let s := portDone s n { c with port := some (i, len), portSkip := 0, portAt := c.freeAt s.cycle }
      fireTaps s h t none

/-- CH_PUSH_HI: a continuation word of the open item; discarded after a refused header, refused where no item is open. -/
def portHi (s : State) (n hi : Nat) : State :=
  ungated s (Reg.CH_PUSH_HI n) fun s =>
    let w := hi % 2 ^ 32 * 2 ^ 32 + rd s (Reg.CH_PUSH_LO n)
    let c := chuteOf s n
    match c.port with
    | some (i, need + 1) => portDone s n { c with port := some ({ i with words := i.words ++ [w] }, need) }
    | _ =>
      if 0 < c.portSkip then { s with chutes := s.chutes.set n { c with portSkip := c.portSkip - 1 } }
      else setB (inc s (Reg.CH_PUSH_REFUSED n)) (Reg.CH_STATUS n) 29 true

/-- CH_PUSH_SOI (R359). -/
def execChPushSoi (ch : Fin 4) (v : Word) (s : State) : Out := .next (portSoi s ch v.toNat)

/-- CH_PUSH_HI (R359). -/
def execChPushHi (ch : Fin 4) (v : Word) (s : State) : Out := .next (portHi s ch v.toNat)

end Sys2Proof.Machine
end

