-- ==== Sys2Proof/Machine/Lathe.lean ====
section
/-! DEFINITION. The life of a blank (05_lathe_alignment.md R135 to R161): opening, speculation fill, seal, amendment. -/

namespace Sys2Proof.Machine

/-! Opening (R23, R87 to R89, R136). -/

/-- May the Lathe open a blank: it runs, and device time is declared or free-running (03 R87)? -/
def latheGate (s : State) : Bool := runsLathe (mode s) && (bit s Reg.TIME_STATUS 3 || bit s Reg.TIME_CTRL 7)

/-- The epoch index of the next blank to open (R87 to R89, R136). -/
def nextIndex (s : State) : Nat :=
  match s.aln.newest with
  | none => epochNow s
  | some n => if s.time.openNow = 0 then n + 1 else max (n + 1) (epochNow s)

/-- The expected set of a blank that opens (R148), ascending. -/
def expectedSet (s : State) (c : Tab Word) : List Nat :=
  (enabledStreams c).filter (fun i => stExpect c i && !(bit s Reg.ALN_CTRL 1 && (healthOf s i).silent))

/-- A blank as it opens (R148, R157, R162, R170). -/
def newBlank (s : State) (c : Tab Word) (k : Nat) : Blank where
  epoch := k
  state := 1
  cause := 0
  amendCount := 0
  bflags := b2n (oldCfg s k)
  timeGen := fld s Reg.SYS_STATUS 31 16
  provOfs := 0xFFFFFFFF
  sealOfs := 0xFFFFFFFF
  amendOfs := 0xFFFFFFFF
  expected := (expectedSet s c).length
  arrExp := 0
  arrAll := 0
  lateArr := 0
  predicted := 0
  missing := 0
  expectMap := (expectedSet s c).foldl setBitN 0
  arrivedMap := 0
  ph := []
  hdr := []
  fr := []
  an := []
  dg := []
  env := []
  ecc := []
  dup := []
  specEn := bit s Reg.ALN_CTRL 0
  silentSkip := bit s Reg.ALN_CTRL 1
  amendMax := fld s Reg.ALN_AMEND_MAX 7 0
  preds := []
  fillAt := none
  fillPos := 0
  fillDone := false
  offered := []
  missN := 0
  missCh := 0
  missX := 0
  missed := false
  provAlarm := false
  lateMap := 0
  dets := []
  amendBusy := false
  evalAt := 0
  fullAt := if (expectedSet s c).isEmpty then some s.cycle else none
  sent := []
  mute := []

/-- A block of the early queue is written at its blank's opening (R144, R145): it arrives at the epoch instant. -/
def placeEarly (s : State) (blk : Block) : State :=
  let t := epochPlus s blk.epoch 0
  let blk := { blk with early := true, arrAt := t, judge := t }
  match blankOf s blk.epoch with
  | some b => if blk.resampled then writeArrival s blk else meetBlank s b blk
  | none => s

/-- What an opening puts into effect: a commit, key changes, the link key, out-of-service masks, the resampler bank, a history clear. -/
def openEffects (s : State) (k : Nat) : State :=
  let s := rsAtOpen (oosAtOpen (twinAtOpen (keysAtOpen (txnAtOpen (releaseIfDone s) k) k)))
  let s := if s.spc.histClr then { s with spc := { s.spc with chans := [], histClr := false } } else s
  detOpen s k

/-- Blank `k` opens in this cycle and retires the blank of its slot. -/
def openBlank (s : State) (k : Nat) : State :=
  let s := match s.aln.ring.getD (k % 32) none with | some b => retireBlank s b | none => s
  let s := openEffects { s with aln := { s.aln with newest := some k }, time := { s.time with openNow := 0 } } k
  let c := confOf s k
  let s := setBlank s (newBlank s c k)
  let (s, mute) := (sessions c).foldl (fun (s, m) i =>
    let (s, q) := sessAtOpen s c k i
    (s, if q then m ++ [i] else m)) (s, [])
  let s := onBlank s k (fun b => { b with mute := mute })
  let mine := s.aln.earlyQ.filter (fun x => x.epoch == k)
  let gone := s.aln.earlyQ.filter (fun x => decide (x.epoch < k))
  let s := { s with aln := { s.aln with earlyQ := s.aln.earlyQ.filter (fun x => decide (k < x.epoch)) } }
  let s := mine.foldl placeEarly (gone.foldl tooLate s)
  govSettle (gooseCheck (alnShow s))

/-- BLANK_OPEN (R138, R23): the next blank opens at its epoch instant, or at once where device time has passed it. -/
def execBlankOpen (s : State) : Out :=
  if !latheGate s then .next s
  else
    let k := nextIndex s
    let s := match s.aln.newest with
      | some n => if s.time.openNow = 1 then addC s Reg.ALN_SKIPPED (k - n - 1) else s
      | none => s
    .next (openBlank (passTo s (epochPlus s k 0)) k)

/-- Is a blank to be retired in this cycle by the opening of the next one in its slot? That trigger goes before its others (R138). -/
def retireDue (s : State) (b : Blank) : Bool :=
  latheGate s && nextIndex s % 32 == b.epoch % 32 && decide (epochPlus s (nextIndex s) 0 ≤ s.now)

/-! The speculation fill (R138 to R140; 06 R172, R179). -/

/-- SPEC_FILL_START (01 R25; 06 R179): at the deadline plus the drain time, or in the cycle after the engine is free; not once a seal is due
(R139). -/
def execSpecFillStart (epoch : Nat) (s : State) : Out :=
  match blankOf s epoch with
  | none => .next s
  | some b =>
    if !fillWaits s b then .next s
    else
      let s1 := deadlineTo s epoch (getC (confOf s epoch) Reg.SPC_DEADLINE 0 0 % 2 ^ 22)
      let wait := s.spc.freeAt != 0 && decide (s1.cycle ≤ s.spc.freeAt)
      let s2 := if wait then passCyc s1 (s.spc.freeAt + 1) else s1
      if sealDue s2 b || retireDue s2 b then .next s
      else .next (startFill (if wait && s.spc.updating then inc s2 Reg.SPC_FILL_DEFER else s2) b)

/-- An evaluation point of a blank starts its detectors (01 R29; 09 R280). -/
def evalPoint (s : State) (b : Blank) (point : Nat) : Blank :=
  { b with evalAt := s.cycle, dets := b.dets ++ detsAt s (confOf s b.epoch) point }

/-- The blank becomes PROVISIONAL, and its provisional evaluation point (R29, R138). -/
def provBlank (s : State) (b : Blank) : State :=
  let b := evalPoint s { b with
    state := 2
    provOfs := ofsAfter s s.now b.epoch 0xFFFFFFFF
    bflags := setBitN b.bflags 1
    fillDone := true } 0
  let s := invoke (alnShow (setBlank (inc s Reg.SPC_FILLS) b)) b 0 0
  thrBlank (sendProv s b.epoch) b.epoch 0

/-- SPEC_FILL_COMPLETE (R138; 01 R28): ceil(N / 16) + 64 cycles after its start, unless a seal comes first. -/
def execSpecFillComplete (epoch : Nat) (s : State) : Out :=
  match blankOf s epoch with
  | none => .next s
  | some b =>
    match b.fillAt with
    | none => .next s
    | some st =>
      if b.state ≠ 1 ∨ b.fillDone then .next s
      else
        let s1 := passCyc s (st + fillCycles (confOf s epoch))
        if sealDue s1 b || retireDue s1 b then .next s
        else
          let s2 := syncFill s1 epoch s1.cycle
          match blankOf s2 epoch with
          | some b => .next (provBlank s2 b)
          | none => .next s2

/-! The seal (R138 to R142). -/

/-- Mapped entries that are neither measured nor predicted (R168). -/
def missingIn (c : Tab Word) (b : Blank) : Nat :=
  ((fillList c).filter (fun ch => !b.measured c ch &&
    !(if ch < chAn then bitOf (b.phOf ch).flags 1 else (Tab.get (fun _ => (⟨0, 0, 0, 0, 0, false⟩ : Pred)) b.preds ch).written))).length

/-- A fill in progress stops at its blank's seal (R139): predictions of entries that it has not reached are none, and the engine is free. -/
def cutFill (s : State) (b : Blank) : State × Blank :=
  match b.fillAt with
  | some st =>
    if b.fillDone then (s, b)
    else
      let c := confOf s b.epoch
      let kept := ((fillUnits c).take b.fillPos).flatten.foldl (fun t ch =>
        if Tab.has b.preds ch then Tab.put t ch (Tab.get (fun _ => (⟨0, 0, 0, 0, 0, false⟩ : Pred)) b.preds ch) else t) ([] : Tab Pred)
      let s := if st < s.cycle then inc s Reg.SPC_FILL_CUT else s
      let s := { s with spc := { s.spc with freeAt := s.spc.freeAt - (st + fillCycles c - s.cycle) } }
      (s, { b with bflags := if st < s.cycle then setBitN b.bflags 2 else b.bflags, fillAt := none, preds := kept })
  | none => (s, b)

/-- The blank seals in this cycle (R138 to R141) and has its seal evaluation point. -/
def sealBlank (s : State) (k cause : Nat) : State :=
  let s := syncFill s k s.cycle
  match blankOf s k with
  | none => s
  | some b =>
    let c := confOf s k
    let (s, b) := cutFill s b
    let b := { b with state := 3, cause := cause, sealOfs := ofsAfter s s.now k 0xFFFFFFFF, missing := missingIn c b }
    let s := inc s (if cause = 1 then Reg.ALN_SEAL_ALL else Reg.ALN_SEAL_WAIT)
    let (s, b) := histUpdate (silSeal s b) b true
    let (s, b) := reportMisses s b
    let b := evalPoint s b 1
    let s := invoke (alnShow (setBlank s b)) b 1 0
    let s := thrBlank (sendSeal s k) k 1
    let s := norecSealed (chanBlank s b) k true
    match blankOf s k with
    | some b => twinAtSeal s b
    | none => s

/-- SEAL_ALL (01 R27): in the cycle after the last expected stream was written. -/
def execSealAll (epoch : Nat) (s : State) : Out :=
  match blankOf s epoch with
  | none => .next s
  | some b =>
    match b.fullAt with
    | none => .next s
    | some f =>
      let t := passCyc s (f + 1)
      if 2 < b.state || retireDue t b then .next s else .next (sealBlank t epoch 1)

/-- SEAL_WAIT (01 R25): at the epoch instant plus ALN_WAIT and the drain time; where both triggers fall in one cycle, the cause is ALL (R138). -/
def execSealWait (epoch : Nat) (s : State) : Out :=
  match blankOf s epoch with
  | none => .next s
  | some b =>
    if 2 < b.state ∨ retireDue (deadlineTo s epoch (getC (confOf s epoch) Reg.ALN_WAIT 0 0 % 2 ^ 22)) b then .next s
    else
      let s := deadlineTo s epoch (getC (confOf s epoch) Reg.ALN_WAIT 0 0 % 2 ^ 22)
      let all := match b.fullAt with | some f => decide (f < s.cycle) | none => false
      .next (sealBlank s epoch (if all then 1 else 2))

/-- SEAL_EVALUATION_END (R138, R31): every ON_SEAL invocation and detector seal evaluation of the blank has ended. -/
def execSealEvaluationEnd (epoch : Nat) (s : State) : Out :=
  match blankOf s epoch with
  | none => .next s
  | some b =>
    if b.state ≠ 3 ∨ s.ssk.invs.any (fun v => v.epoch == epoch && v.point == 1 && !v.quiet) ∨ b.dets.any (fun d => d.2.1 == 1) then .next s
    else
      let s := passCyc s (b.evalAt + 1)
      .next (copyStart (alnShow (setBlank s { b with state := 4 })) epoch)

/-! Amendments (R155 to R159). -/

/-- One late block is written by amendment `n`. -/
def amendWrite (n : Nat) (sb : State × Blank) (blk : Block) : State × Blank :=
  let (s, b) := writeBlockIn sb.1 sb.2 blk n
  let first := !bitOf b.arrivedMap blk.stream
  (s, { b with arrivedMap := setBitN b.arrivedMap blk.stream, arrAll := b.arrAll + b2n first })

/-- Is this cycle the evaluation point of another blank's amendment? One that started beside it has its own in the same cycle (R158). -/
def amendPoint (s : State) : Bool :=
  s.aln.ring.any (fun o => match o with | some b => b.amendBusy && b.evalAt == s.cycle | none => false)

/-- AMENDMENT_APPLY (R155 to R159): every queued block of the blank is written, and the evaluation point follows in the next cycle. -/
def execAmendmentApply (epoch : Nat) (s : State) : Out :=
  match blankOf s epoch with
  | none => .next s
  | some b =>
    let q := s.aln.amendQ.filter (fun x => x.epoch == epoch)
    if b.state ≠ 4 ∨ q.isEmpty ∨ b.amendBusy ∨ retireDue s b then .next s
    else
      let n := b.amendCount + 1
      let s := { s with aln := { s.aln with amendQ := s.aln.amendQ.filter (fun x => x.epoch != epoch) } }
      let (s, b) := q.foldl (amendWrite n) (s, b)
      let s := inc (if amendPoint s then s else pass s 1) Reg.ALN_AMENDS
      let b := { b with amendCount := n, amendOfs := ofsAfter s s.now epoch 0xFFFFFFFF, amendBusy := true }
      let (s, b) := histUpdate s b false
      let (s, b) := reportMisses s b
      let b := evalPoint s b 2
      .next (sendAmended (invoke (setBlank s b) b 2 n) epoch n)

/-- AMENDMENT_END (R156): every ON_AMEND invocation and output frame of the amendment has completed. -/
def execAmendmentEnd (epoch : Nat) (s : State) : Out :=
  match blankOf s epoch with
  | none => .next s
  | some b =>
    if !b.amendBusy ∨ s.ssk.invs.any (fun v => v.epoch == epoch && v.point == 2 && !v.quiet) ∨
        s.out.tx.any (fun q => q.any (fun f => f.kind == 1 && f.epoch == epoch)) then .next s
    else .next (setBlank s { b with amendBusy := false })

end Sys2Proof.Machine
end

