-- ==== Sys2Proof/Machine/Time.lean ====
section
/-! DEFINITION. The time base (03_time_base.md): addend, steps, references and holdover, leap seconds, PTP timestamps, PPS and 10 MHz, compare
slots. -/

namespace Sys2Proof.Machine

/-- A write in the TIME region that is no unlock ends the unlock (R83). -/
def timeTouch (s : State) : State := { s with time := { s.time with unlockAt := none } }

/-! Holdover (R102). -/

/-- HOLDOVER and its mirror take a value. -/
def setHold (s : State) (v : Bool) : State := setHealth (setB s Reg.TIME_STATUS 4 v) Health.timeHoldover v

/-- TIME_LOSS_TMO as it acts, in cycles. -/
def lossCycles (s : State) : Nat := max 100 (min 60000 (rd s Reg.TIME_LOSS_TMO)) * 500000

/-- TIME_CTRL.SRC as it acts. -/
def timeSrc (s : State) : Nat := let v := fld s Reg.TIME_CTRL 3 0; if v ≤ 4 then v else 0

/-- An event of a reference at device time `t` ns; the selected one's shows in TIME_REF_TS and REF_OK. -/
def refEvent (s : State) (src t : Nat) : State :=
  let s := { s with time := { s.time with refAt := s.time.refAt.set src (some s.cycle) } }
  if timeSrc s ≠ src then s
  else
    let sec := t / 1000000000
    let s := wr (wr (wr s Reg.TIME_REF_TS_SEC_LO (sec % 2 ^ 32)) Reg.TIME_REF_TS_SEC_HI (sec / 2 ^ 32)) Reg.TIME_REF_TS_NS (t % 1000000000)
    setB s Reg.TIME_STATUS 5 true

/-- Another reference is selected: REF_OK says whether it delivered an event of late. -/
def srcChange (s : State) (was : Nat) : State :=
  let n := timeSrc s
  if n = was then s
  else
    let ok := n != 0 && (match s.time.refAt.getD n none with | some c => decide (s.cycle < c + lossCycles s) | none => false)
    setB { s with time := { s.time with srcAt := s.cycle } } Reg.TIME_STATUS 5 ok

/-- HOLDOVER_ENTRY (R102): no event of the selected reference for TIME_LOSS_TMO. -/
def execHoldoverEntry (s : State) : Out :=
  if mode s = Mode.halt ∨ timeSrc s = 0 ∨ (!bit s Reg.TIME_STATUS 5 ∧ bit s Reg.TIME_STATUS 4) then .next s
  else
    let last := match s.time.refAt.getD (timeSrc s) none with | some c => max c s.time.srcAt | none => s.time.srcAt
    let s := passCyc s (last + lossCycles s)
    .next (setHold (setB s Reg.TIME_STATUS 5 false) true)

/-! Steps (R82 to R89, R105). -/

/-- TIME_STEP, in ns. -/
def stepNs (s : State) : Int := sext 64 (rd s Reg.TIME_STEP_LO + rd s Reg.TIME_STEP_HI * 2 ^ 32)

/-- A compare slot under a step from `t0` to `t1`: a forward step carries targets into the past, a backward one brings them back (R105). -/
def stepSlot (t0 t1 : Nat) (c : CmpSlot) : CmpSlot :=
  if !c.wait then c
  else if t0 ≤ c.tgt ∧ c.tgt < t1 then { c with late := true }
  else if t1 ≤ c.tgt ∧ c.tgt < t0 then { c with late := false }
  else c

/-- A step is applied in this cycle (R86): the next cycle begins at the stepped time. A time before the format's origin is a free value. -/
def applyStep (s : State) (d : Int) : State :=
  let a := addendNow s
  let s := pass s 1
  let t0 := s.now
  let s := timeBreak s s.cycle t0 a
  let x := (t0 : Int) + d * (nsU : Int)
  let (s, t1) := if 0 ≤ x then (s, x.toNat) else fresh s secU
  let s := { s with now := t1 }
  let was := match s.time.fwd with | some (a, b) => if t0 < b + 5000 * nsU then a else t0 | none => t0
  let s := { s with time := { s.time with
    cmp := s.time.cmp.map (stepSlot t0 t1)
    ppsSec := if t1 < t0 then 0 else s.time.ppsSec
    fwd := if t0 < t1 then some (was, t1) else none } }
  let s := nrgStep s t0 t1
  let s := match s.aln.newest with
    | some n => if t0 < t1 ∧ latheGate s ∧ n < epochNow s ∧ s.time.openNow = 0 then { s with time := { s.time with openNow := 1 } } else s
    | none => s
  let s := setB s Reg.TIME_STATUS 0 true
  setF s Reg.TIME_STEP_CNT 15 0 (satAdd 16 (fld s Reg.TIME_STEP_CNT 15 0) 1)

/-- A refused step or forced step is counted. -/
def stepRefused (s : State) : State := setF s Reg.TIME_STEP_CNT 31 16 (satAdd 16 (fld s Reg.TIME_STEP_CNT 31 16) 1)

/-- OP = STEP (R82, R85, R102). -/
def opStep (s : State) : State :=
  let d := stepNs s
  let small := decide (d.natAbs ≤ rd s Reg.TIME_JUMP_LIM)
  if bit s Reg.TIME_STATUS 3 && !small then
    logRec (stepRefused (setB s Reg.TIME_STATUS 2 true)) 0x0010 (leBytes 8 (toU 64 d))
  else
    let s := applyStep s d
    if small && bit s Reg.TIME_STATUS 5 then setHold s false else s

/-- OP = FORCE_STEP (R83, R85). -/
def opForce (s : State) : State :=
  if !bit s Reg.TIME_STATUS 3 then opStep s
  else
    let ok := match s.time.unlockAt with | some c => decide (s.cycle ≤ c + 500000) | none => false
    if !ok then stepRefused (setB s Reg.TIME_STATUS 1 true)
    else
      let d := stepNs s
      let gen := (fld s Reg.SYS_STATUS 31 16 + 1) % 2 ^ 16
      let s := setF (applyStep s d) Reg.SYS_STATUS 31 16 gen
      pushDev (logRec s 0x0011 (leBytes 8 (toU 64 d) ++ leBytes 2 gen)) 0x0003 [toU 64 d, gen]

/-- May PPS_OUT pulse (R100)? -/
def ppsRuns (s : State) : Bool := bit s Reg.TIME_PPS_CFG 31 && (bit s Reg.TIME_STATUS 3 || bit s Reg.TIME_CTRL 7)

/-- PPS_OUT pulses only while it may: a pulse ends where that ends (R100). -/
def ppsSettle (s : State) : State := if ppsRuns s then s else { s with time := { s.time with ppsEnd := none } }

/-- R87 lets the Lathe go on: the next blank to open is that of device time. -/
def gateOpened (s : State) (was : Bool) : State :=
  match s.aln.newest with
  | some n => if !was ∧ latheGate s ∧ n < epochNow s then { s with time := { s.time with openNow := 2 } } else s
  | none => s

/-- A write of TIME_CTRL. -/
def timeCtrlWrite (s : State) (v : Nat) : State :=
  let gate := latheGate s
  let src := timeSrc s
  let s := setF (setF (setB (setF s Reg.TIME_CTRL 31 28 (bits v 31 28)) Reg.TIME_CTRL 7 (bitOf v 7)) Reg.TIME_CTRL 11 10 (bits v 11 10))
    Reg.TIME_CTRL 3 0 (bits v 3 0)
  let s := srcChange s src
  let s := match bits v 19 16 with
    | 1 => opStep s
    | 2 => opForce s
    | 3 => setB s Reg.TIME_STATUS 3 true
    | 4 => if bit s Reg.TIME_STATUS 5 then setHold s false else s
    | _ => s
  ppsSettle (gateOpened (timeTouch s) gate)

/-- TIME_STEP (R82). -/
def execTimeStep (v : Word) (s : State) : Out := .next (ungated s Reg.TIME_CTRL fun s => timeCtrlWrite s (putBits v.toNat 19 16 1))
/-- TIME_FORCE_STEP (R83). -/
def execTimeForceStep (v : Word) (s : State) : Out := .next (ungated s Reg.TIME_CTRL fun s => timeCtrlWrite s (putBits v.toNat 19 16 2))
/-- TIME_DECLARE_SYNC (R85). -/
def execTimeDeclareSync (v : Word) (s : State) : Out := .next (ungated s Reg.TIME_CTRL fun s => timeCtrlWrite s (putBits v.toNat 19 16 3))
/-- TIME_END_HOLDOVER (R102). -/
def execTimeEndHoldover (v : Word) (s : State) : Out := .next (ungated s Reg.TIME_CTRL fun s => timeCtrlWrite s (putBits v.toNat 19 16 4))

/-- A write of TIME_FORCE_UNLOCK (R83). -/
def unlockWrite (s : State) (v : Nat) : State :=
  { s with time := { s.time with unlockAt := if v = 0x7E57F0CE then some s.cycle else none } }

/-- TIME_FORCE_UNLOCK_WRITE (R83). -/
def execTimeForceUnlockWrite (v : Word) (s : State) : Out := .next (ungated s Reg.TIME_FORCE_UNLOCK fun s => unlockWrite s v.toNat)

/-- A write of TIME_ADDEND_HI commits both words from the next cycle; the old addend is that of this cycle, a step's too (R81, R86). -/
def addendWrite (s : State) (v : Nat) : State :=
  let s := timeTouch (setF s Reg.TIME_ADDEND_HI 23 0 (bits v 23 0))
  let a := fld s Reg.TIME_ADDEND_HI 23 0 * 2 ^ 32 + rd s Reg.TIME_ADDEND_LO
  if a * 1000 < 1999 * nsU ∨ 2001 * nsU < a * 1000 then setB s Reg.TIME_STATUS 8 true
  else
    let t := timeBreak s (s.cycle + 1) (s.now + addendNow s) (addendNow s)
    { t with cyc := { t.cyc with addend := some (addendNow s) }, time := { t.time with addend := a } }

/-- ADDEND_COMMIT (R81). -/
def execAddendCommit (v : Word) (s : State) : Out := .next (ungated s Reg.TIME_ADDEND_HI fun s => addendWrite s v.toNat)

/-! Leap seconds (R91). -/

/-- LEAP_APPLY (R91). -/
def execLeapApply (s : State) : Out :=
  let p := fld s Reg.TIME_LEAP 17 16
  if (p ≠ 1 ∧ p ≠ 2) ∨ mode s = Mode.halt then .next s
  else
    let sec := rd s Reg.TIME_LEAP_AT_LO + rd s Reg.TIME_LEAP_AT_HI * 2 ^ 32
    let s := passTo s (sec * secU)
    let ofs := fld s Reg.TIME_LEAP 15 0
    let s := setF (setF s Reg.TIME_LEAP 17 16 0) Reg.TIME_LEAP 15 0 (if p = 1 then ofs + 1 else ofs + 65535)
    .next { s with time := { s.time with leaps := s.time.leaps ++ [(sec, p == 1)] } }

/-! References and timestamps (R92 to R101). -/

/-- The time receiver's port: the one in use, or this one where there is none or the time base is in holdover (R95, log 132). -/
def ptpTake (s : State) (p : Nat) : State :=
  if s.time.ptpPort.isNone || bit s Reg.TIME_STATUS 4 then { s with time := { s.time with ptpPort := some p } } else s

/-- PTP_FRAME_RECEIVE (R92, R93, R95): the frame goes to firmware with its arrival time. Within the limits of R95 (`within`: mapping, destination
address, tag, domain, message), a Sync at the time receiver's port is an event of the reference PTP, and firmware answers a Pdelay_Req with a
Pdelay_Resp marked for a timestamp. A frame that the receive queue drops, firmware never sees. -/
def execPtpFrameReceive (port : Fin 4) (msg : PtpMsg) (within : Bool) (s : State) : Out :=
  let p := port.val
  if gated s Reg.ETH0_CFG || !bit s (ethReg p 0) 31 then .next s
  else
    let (s, len) := fresh s 9153
    let (s, t) := arrivalOf s p
    match fwOffer s ⟨64 + len, p, t, .ptp msg.msgType msg.seqId⟩ with
    | (s, false) => .next s
    | (s, true) =>
      if !within then .next s
      else if msg.msgType = 0 then
        let s := ptpTake s p
        .next (if s.time.ptpPort = some p then refEvent s 1 (t / nsU) else s)
      else if msg.msgType = 2 then .next (enqueue s p (ptpFrame 3 msg.seqId)).1
      else .next s

/-- A full read of TIME_TXTSn_TAG: the oldest timestamp is popped and its time latched (R94). One that finds none leaves the four time registers as
they are (DESIGN CHOICE, log 133). -/
def txtsPop (s : State) (p : Nat) : State × Nat :=
  let ovf := b2n (bit s (Reg.TIME_TXTS_TAG p) 30) * 2 ^ 30
  match s.time.txts.getD p [] with
  | [] =>
    (notePop (wr s (Reg.TIME_TXTS_TAG p) ovf) (Reg.TIME_TXTS_TAG p) ovf, ovf)
  | (ty, q, t) :: rest =>
    let s := { s with time := { s.time with txts := s.time.txts.set p rest } }
    let ns := t / nsU
    let sec := ns / 1000000000
    let s := wr (wr s (Reg.TIME_TXTS_SEC_LO p) (sec % 2 ^ 32)) (Reg.TIME_TXTS_SEC_HI p) (sec / 2 ^ 32)
    let s := wr (wr s (Reg.TIME_TXTS_NS p) (ns % 1000000000)) (Reg.TIME_TXTS_FRAC p) (t % nsU / 2 ^ 32)
    let v := 2 ^ 31 + ovf + ty % 16 * 2 ^ 24 + rest.length * 2 ^ 16 + q % 65536
    (notePop (wr s (Reg.TIME_TXTS_TAG p) v) (Reg.TIME_TXTS_TAG p) v, v)

/-- TXTS_POP (R94). -/
def execTxtsPop (port : Fin 4) (s : State) : Out :=
  if gated s (Reg.TIME_TXTS_TAG port) then .next { s with hostData := 0 }
  else
    let (s, v) := txtsPop s port
    .next { s with hostData := BitVec.ofNat 32 v }

/-- Days from 1970-01-01 to the first day of a year. -/
def daysTo (y : Nat) : Nat := 365 * (y - 1970) + ((y - 1) / 4 - 492) - ((y - 1) / 100 - 19) + ((y - 1) / 400 - 4)

/-- The UTC second at which the year of a UTC second begins. -/
def yearStart (utc : Nat) : Nat :=
  let d := utc / 86400
  let y := 1970 + d / 366
  let rec go (n y : Nat) : Nat := match n with
    | 0 => y
    | n + 1 => if daysTo (y + 1) ≤ d then go n (y + 1) else y
  daysTo (go (d / 100000 + 2) y) * 86400

/-- The UTC second of an IRIG frame: its time less the local offset; a frame without a year takes it from device time (R98). -/
def irigUtc (s : State) (f : IrigFrame) : Nat :=
  let local_ := ((nowSec s : Int) - sext 16 (fld s Reg.TIME_LEAP 15 0) + f.offset * 1800).toNat
  (((if f.hasYear then f.sec else yearStart local_ + f.secOfYear : Nat) : Int) - f.offset * 1800).toNat

/-- IRIG_FRAME (R97, R98): a frame of the format selected, with the IEEE 1344 extensions and correct parity, that agrees with the one before it to
within 1 s is accepted: its on-time mark is timestamped, its time in UTC left in TIME_REF_TS, its extensions left for firmware. A frame without a
year is used only when SYNCED is 1. -/
def execIrigFrame (f : IrigFrame) (s : State) : Out :=
  let m := fld s Reg.TIME_CTRL 11 10
  if m = 0 ∨ m = 3 ∨ mode s = Mode.halt then .next s
  else if !f.parityOk || !f.ext || f.b124 != (m == 2) then .next { s with time := { s.time with irigPrev := none } }
  else
    let t := irigUtc s f
    let agrees := match s.time.irigPrev with | some p => decide (p ≤ t) && decide (t ≤ p + 2) | none => false
    let s := { s with time := { s.time with irigPrev := some t } }
    if agrees && (f.hasYear || bit s Reg.TIME_STATUS 3) then
      let (s, mark) := around s s.now ((if f.b124 then 5000 else 50) * nsU)
      .next (refEvent { s with time := { s.time with irig := some (f, mark) } } 2 (t * 1000000000))
    else .next s

/-- PPS_IN_EDGE (R99). -/
def execPpsInEdge (s : State) : Out :=
  if mode s = Mode.halt then .next s
  else
    let (s, t) := around s s.now (4 * nsU)
    .next (refEvent s 3 (t / nsU))

/-- The next whole second, less the offset, that PPS_OUT has not pulsed and whose 4 ns have not passed. -/
def ppsNext (s : State) : Nat :=
  let off := sext 12 (fld s Reg.TIME_PPS_CFG 27 16) * (nsU : Int)
  max (s.time.ppsSec + 1) (ceilDiv ((s.now : Int) - off - ((4 * nsU : Nat) : Int)).toNat secU)

/-- PPS_OUT_PULSE (R100): the line rises in a cycle within 4 ns of the boundary. -/
def execPpsOutPulse (s : State) : Out :=
  if !ppsRuns s ∨ mode s = Mode.halt then .next s
  else
    let n := ppsNext s
    let t := ((n * secU : Nat) : Int) + sext 12 (fld s Reg.TIME_PPS_CFG 27 16) * (nsU : Int)
    let (s, d) := fresh s (8 * nsU + 1 - s.time.addend)
    let s := passTo s ((t + (d : Int) - ((4 * nsU : Nat) : Int)).toNat)
    let w := max 1 (min 999 (fld s Reg.TIME_PPS_CFG 9 0))
    .next { s with time := { s.time with ppsSec := n, ppsEnd := some (s.cycle + w * 500000) } }

/-- The level of PPS_OUT; in HALT the time base is out of service (02 R42). -/
def ppsLevel (s : State) : Bool :=
  mode s != Mode.halt && (match s.time.ppsEnd with | some e => decide (s.cycle < e) | none => false)

/-- REF10M_MEASURE (R101): the edges of a whole second of device time. An error that the register cannot hold is a free value. -/
def execRef10mMeasure (edges : Nat) (s : State) : Out :=
  if mode s = Mode.halt then .next s
  else
    let s := passTo s ((nowSec s + 1) * secU)
    let e : Int := ((edges : Int) - 10000000) * 10000
    let (s, v) := if -(2 ^ 31 : Int) ≤ e ∧ e < 2 ^ 31 then (s, toU 32 e) else fresh s (2 ^ 32)
    .next (setB (wr s Reg.TIME_REF10M_ERR v) Reg.TIME_STATUS 6 (decide (9999000 ≤ edges) && decide (edges ≤ 10001000)))

/-- REF10M_LOSS (R101): no edge for 1 µs. -/
def execRef10mLoss (s : State) : Out := if mode s = Mode.halt then .next s else .next (setB (pass s 500) Reg.TIME_STATUS 6 false)

/-! Compare slots (R103 to R107). -/

/-- Word `j` of slot `i`. -/
def cmpW (s : State) (i j : Nat) : Nat := getN s Win.TIME_CMP i j

def cmpOf (s : State) (i : Nat) : CmpSlot := s.time.cmp.getD i ⟨0, false, false, 0, false, none⟩
def setCmp (s : State) (i : Nat) (c : CmpSlot) : State := { s with time := { s.time with cmp := s.time.cmp.set i c } }

/-- The target or arming time of an entry (R103). -/
def cmpTarget (ws : List Nat) : Nat := (ws.getD 1 0 + ws.getD 2 0 * 2 ^ 32) * secU + bits (ws.getD 3 0) 29 0 * nsU

/-- Deliver a compare action (R106). -/
def cmpAction (s : State) (slot act arg : Nat) : State :=
  match act with
  | 1 => grpFire s arg
  | 2 => applyCc s arg
  | 3 => timedInvoke s arg
  | 4 => capEvent s (0x90 + arg) s.now none
  | 5 => (pushItem s arg ⟨6, slot, none, 0x0080, 0, nowNs s, [slot]⟩).1
  | 6 => pulseXtrig s (2 ^ arg)
  | _ => s

/-- The largest ARG of an action. -/
def actLimit : Nat → Nat
  | 1 => 7
  | 2 => 15
  | 3 => 127
  | 4 => 15
  | _ => 3

/-- The destination of a slot's action: its code with its argument (R106); none for an action that does nothing, or out of its range. -/
def cmpDest (s : State) (i : Nat) : Option Nat :=
  let act := bits (cmpW s i 0) 23 16
  let arg := bits (cmpW s i 0) 15 0
  if act = 0 ∨ 6 < act ∨ actLimit act < arg then none else some (act * 65536 + arg)

/-- The first cycle in which a destination is free. -/
def destFree (s : State) (d : Nat) : Nat := max s.cycle (Tab.get (fun _ => 0) s.time.dest d)

/-- A slot's action is given the cycle of its delivery, and joins the others in order of cycle (R106). -/
def cmpPlan (x : State × List (Nat × Nat)) (i : Nat) : State × List (Nat × Nat) :=
  match cmpDest x.1 i with
  | none => x
  | some d =>
    let at_ := destFree x.1 d
    ({ x.1 with time := { x.1.time with dest := Tab.put x.1.time.dest d (at_ + 1) } },
      x.2.takeWhile (fun p => decide (p.1 ≤ at_)) ++ (at_, i) :: x.2.dropWhile (fun p => decide (p.1 ≤ at_)))

/-- Slots that fire in this cycle, in ascending order, deliver their actions: in this cycle, or one a cycle where they have one destination; a cycle
number out of range is counted (R106; 12 R377). -/
def cmpDeliver (s : State) (is_ : List Nat) : State :=
  let bad := is_.filter (fun i => bits (cmpW s i 0) 23 16 == 2 && decide (15 < bits (cmpW s i 0) 15 0))
  let s := bad.foldl (fun s _ => inc s Reg.AFE_CC_BADARG) s
  let (s, plan) := is_.foldl cmpPlan (s, [])
  plan.foldl (fun s p => cmpAction (passCyc s p.1) p.2 (bits (cmpW s p.2 0) 23 16) (bits (cmpW s p.2 0) 15 0)) s

/-- What a fire of slot `i` records (R103, R106), and EN cleared by REPEAT. -/
def cmpRecord (s : State) (i : Nat) (late : Bool) : State :=
  let w0 := cmpW s i 0
  let n := (bits (cmpW s i 5) 15 0 + 1) % 65536
  let rep := bits (cmpW s i 5) 31 16
  let ends := rep != 0 && decide (rep ≤ n)
  let w0' := putBits (putBits w0 28 28 (b2n late)) 31 31 (b2n (!ends))
  let s := putN (putN s Win.TIME_CMP i 0 w0') Win.TIME_CMP i 5 (putBits (cmpW s i 5) 15 0 n)
  let s := setB s (if i < 32 then Reg.TIME_CMP_FIRED_LO else Reg.TIME_CMP_FIRED_HI) (i % 32) true
  if ends then setCmp s i { cmpOf s i with wait := false, armed := false } else s

/-- Is slot `i` enabled, in time mode and still to fire? -/
def cmpWaits (s : State) (i : Nat) : Bool := bitOf (cmpW s i 0) 31 && !bitOf (cmpW s i 0) 30 && (cmpOf s i).wait

/-- Does time slot `i` fire in this cycle (R103, R105)? -/
def cmpDue (s : State) (i : Nat) : Bool :=
  cmpWaits s i && decide ((cmpOf s i).since ≤ s.cycle) && decide ((cmpOf s i).tgt ≤ s.now)

/-- A time slot that fires in this cycle: its next target, and what it records (R103, R105). -/
def cmpTurn (s : State) (i : Nat) : State :=
  let c := cmpOf s i
  let p := max 1000 (min 1000000000 (cmpW s i 4)) * nsU
  let next := if c.late then c.tgt + ((s.now - c.tgt) / p + 1) * p else c.tgt + p
  let per := bitOf (cmpW s i 0) 29
  cmpRecord (setCmp s i { c with tgt := if per then next else c.tgt, wait := per, late := false }) i c.late

/-- Time slots that fire in this cycle (R106). -/
def cmpFires (s : State) (is_ : List Nat) : State := cmpDeliver (is_.foldl cmpTurn s) is_

/-- The time slots that fire in one cycle with slot `i` where its destination is taken: every one due, for its own action has to wait (R106). -/
def cmpWith (s : State) (i : Nat) : List Nat :=
  let due := (List.range 64).filter (fun j => j == i || cmpDue s j)
  match cmpDest s i with
  | none => [i]
  | some d => if s.cycle < destFree s d || due.any (fun j => j != i && cmpDest s j == some d) then due else [i]

/-- A window write of slot `i` (R105, R107): a fire due in its cycle completes under the old entry, and the new one applies from the next. -/
def cmpWrite (s : State) (i : Nat) (ws : List Nat) : State :=
  let s := if cmpDue s i then cmpFires s [i] else s
  let old := (List.range 6).map (cmpW s i)
  let rose := bitOf (ws.getD 0 0) 31 && !bitOf (old.getD 0 0) 31
  let moved := cmpTarget ws != cmpTarget old || bitOf (ws.getD 0 0) 30 != bitOf (old.getD 0 0) 30
  let w0 := putBits (putBits (ws.getD 0 0) 28 24 0) 28 28 (bits (old.getD 0 0) 28 28)
  let w5 := putBits (ws.getD 5 0) 15 0 (if rose then 0 else bits (old.getD 5 0) 15 0)
  let s := [(0, w0), (1, ws.getD 1 0), (2, ws.getD 2 0), (3, bits (ws.getD 3 0) 29 0), (4, ws.getD 4 0), (5, w5)].foldl
    (fun s p => putN s Win.TIME_CMP i p.1 p.2) s
  let c := cmpOf s i
  let t := cmpTarget ws
  setCmp s i (if !bitOf w0 31 then { c with wait := false, armed := false, since := s.cycle + 1 }
    else if rose || moved then ⟨t, true, decide (t < s.now), s.cycle + 1, false, none⟩
    else { c with since := s.cycle + 1 })

/-- CMP_FIRE_TIME (R103, R105, R106): the slot fires; where an action has to wait its turn, the slots of the same cycle fire along, and their own
commands of that cycle find them fired (log 131). -/
def execCmpFireTime (slot : Fin 64) (s : State) : Out :=
  let i := slot.val
  if s.time.along.contains (i, s.cycle) then
    .next { s with time := { s.time with along := s.time.along.filter (fun p => p != (i, s.cycle)) } }
  else if mode s = Mode.halt ∨ !cmpWaits s i then .next s
  else
    let s := passTo (passCyc s (cmpOf s i).since) (cmpOf s i).tgt
    let is_ := cmpWith s i
    let s := cmpFires s is_
    .next { s with time := { s.time with along := (is_.filter (fun j => j != i)).map (fun j => (j, s.cycle)) } }

/-- CMP_PHASE_ARM (R104). -/
def execCmpPhaseArm (slot : Fin 64) (s : State) : Out :=
  let i := slot.val
  let c := cmpOf s i
  if mode s = Mode.halt ∨ !bitOf (cmpW s i 0) 31 ∨ !bitOf (cmpW s i 0) 30 ∨ !c.wait then .next s
  else .next (setCmp (passTo (passCyc s c.since) c.tgt) i { c with wait := false, late := false, armed := true, pass := none })

/-- The first passing of ANGLE after an instant, from a crossing at `t0` and a cycle of length `d`; the crossing lies at phase 0xC000 (R104). -/
def passAfter (t0 d angle after : Nat) : Nat :=
  let p := t0 + (angle + 0x4000) % 65536 * d / 65536
  if after < p then p else p + ((after - p) / d + 1) * d

/-- How far from the passing at `t` that the last cycle predicts a slot may fire: 2 µs from the true crossing, and the true crossing from that
prediction by a ROCOF of up to 5 Hz/s since the middle of the last cycle (R104, log 134). -/
def phaseTol (t0 d t : Nat) : Nat :=
  let x := t - t0 + d / 2
  2000 * nsU + ceilDiv (5 * d * x * x) (2 * secU * secU)

/-- CMP_FIRE_PHASE (R104): within 2 µs of the true crossing; not while the tracker is unlocked. -/
def execCmpFirePhase (slot : Fin 64) (s : State) : Out :=
  let i := slot.val
  let c := cmpOf s i
  let ch := bits (cmpW s i 4) 12 8
  if mode s = Mode.halt ∨ !bitOf (cmpW s i 0) 31 ∨ !bitOf (cmpW s i 0) 30 ∨ !c.armed ∨ 24 ≤ ch ∨ !trkLocked s ch then .next s
  else
    match (trkOf s ch).cycs with
    | (a, b, _) :: _ =>
      let d := b - a
      if d = 0 then .next s
      else
        let after := match c.pass with | some p => max s.now (p + d / 2) | none => s.now
        let t := passAfter b d (bits (cmpW s i 4) 31 16) after
        let (s, u) := around s t (phaseTol b d t)
        let s := passTo s u
        let s := setCmp s i { c with pass := some t, armed := bitOf (cmpW s i 0) 29 }
        .next (cmpDeliver (cmpRecord s i false) [i])
    | [] => .next s

end Sys2Proof.Machine
end

