-- ==== Sys2Proof/Machine/HostAccess.lean ====
section
/-! DEFINITION. Register access: decode errors, gating, reads with their side effects, shadows, windows and writes (01_architecture.md R32 to
R41, R539; 00_scope.md R9 to R12; the register descriptions of the chapters). -/

namespace Sys2Proof.Machine

/-- All ones. -/
abbrev ones32 : Nat := 0xFFFFFFFF

/-! Decode errors (R35). -/

/-- A decode error is counted: the first since DECODE_ERR was last clear leaves its offset. -/
def decodeError (s : State) (off : Nat) (part write : Bool) : State :=
  if bit s Reg.SYS_HEALTH Health.decodeErr then s
  else setHealth (wr s Reg.SYS_BADADDR (off + 2 * b2n part + b2n write)) Health.decodeErr true

/-- Does a register, or a register of a window, lie at an offset? -/
def occupied (off : Nat) : Bool := (regRow? off).isSome || (winAt? off).isSome || (winData? off).isSome

/-- The offset lies in the BAR and on a word (R32, R34). -/
def inBar (off : Nat) : Bool := decide (off < 0x200000) && off % 4 == 0

/-! Windows: what a read of an entry returns (R38, R41, R539). -/

/-- Is the pending copy the one that a window shows? -/
def showsPending (s : State) : Bool := let st := fld s Reg.TXN_STATUS 3 0; decide (1 ≤ st) && decide (st ≤ 3)

/-- The words of a transactional entry. -/
def transRead (s : State) (w : WinRow) (i : Nat) : List Nat :=
  let c := if showsPending s then s.cfgPend else s.cfg
  (List.range w.ndata).map (fun j =>
    let v := getC c w.idx i j
    if w.idx = Win.ING_ST ∧ i = 0 ∧ j = 6 then putBits v 25 25 (fld s Reg.AFE_TRK 8 8) else v)

/-- Stream health (04, Counters and stream health). -/
def shRead (s : State) (i : Nat) : List Nat :=
  let h := healthOf s i
  [h.frames, h.repaired * 65536 + h.dup, h.prpDup * 65536 + h.late, h.future * 65536 + h.misalign, h.authFail * 65536 + h.wrongPort, h.fmtErr,
    h.lastEpoch, b2n h.silent * 2 ^ 31 + b2n h.cfgchg * 2 ^ 30 + b2n h.dataErr * 2 ^ 29 + b2n h.syncErr * 2 ^ 28 + h.lastOfs]

/-- A channel history (06, Channel history entry). -/
def chRead (s : State) (i : Nat) : List Nat :=
  let c := chanOf s i
  [c.miss * 65536 + c.res.length * 1024 + c.vals.length * 256 + c.cls * 64, if c.res.isEmpty then 0 else rmsF c.res, c.m,
    match c.lastSeen with | some e => e % 2 ^ 32 | none => ones32]

/-- Kernel statistics (07, Kernel statistics entry). -/
def ksRead (s : State) (i : Nat) : List Nat :=
  let k := statOf s i
  [k.invokes % 2 ^ 32, k.cuts * 65536 + k.exc, k.maxRun * 65536 + k.lastRun, k.lastExc]

/-- Mode outputs (09, Mode output entry): RUN at the newest ring blank with a recorded outcome. -/
def modeRead (s : State) (i : Nat) : List Nat :=
  let o := oscOf s (i / 16)
  let b := i % 16
  let m := Tab.get (fun _ => ⟨0, 0, 0, 0, 0, true⟩) o.modes b
  let n := s.aln.newest.getD 0
  let k := (List.range 32).find? (fun d => decide (d ≤ n) && (blankOf s (n - d)).isSome && Tab.get (fun _ => 0) o.outc (b * 32 + (n - d) % 32) != 0)
  let run := match k with | some d => runAt s o.outc b (n - d) | none => 0
  [m.freq, m.zeta, m.amp, m.nf, m.epoch % 2 ^ 32,
    Tab.get (fun _ => 0) o.last b * 16 + b2n (oscWarm s.cfg (i / 16) o) * 8 + b2n m.stale * 4,
    min run 65535 * 65536 + Tab.get (fun _ => 0) o.asserts b, 0]

/-- Session statistics (10, Session statistics entry). -/
def ssRead (s : State) (i : Nat) : List Nat :=
  let x := sessOf s i
  [x.frames % 2 ^ 32, x.prov * 65536 + x.amended, x.txDrop * 65536 + x.keyDrop,
    b2n x.dataOn * 2 ^ 31 + b2n x.keyWait * 2 ^ 30 + x.cfgcnt % 65536]

/-- The capture directory, newest first (14, Directory). -/
def rdRead (s : State) (i : Nat) : List Nat :=
  match s.cap.dir.reverse[i]? with
  | some d => [d.rseq % 2 ^ 32, d.rseq / 2 ^ 32, d.sectors % 65536 * 65536 + d.first % 65536, 2 ^ 31 + d.input % 256 * 256 + d.rflags % 256]
  | none => [0, 0, 0, 0]

/-- Eight words of 32 bytes. -/
def words8 (bs : List Nat) : List Nat := (List.range 8).map (fun j => ofLe ((bs.drop (4 * j)).take 4))

/-- Is a byte of the store kept from the bank window: ROOT_WRAP and the wrapped keys of slot records (17 R475)? -/
def bkHidden (a : Nat) : Bool :=
  let p := a % 0x40000
  decide (a < 0x80000) && decide (64 ≤ p) &&
    (decide (p - 64 < 96) || (decide (0x400 ≤ p - 64) && decide (p - 64 < 0xE400) &&
      (let r := (p - 64 - 0x400) % 112; (decide (24 ≤ r) && decide (r < 64)) || decide (72 ≤ r))))

/-- A unit of the bank window (18). -/
def bkRead (s : State) (i : Nat) : List Nat :=
  words8 ((nvBytes s (32 * i) 32).zipIdx.map (fun p => if bkHidden (32 * i + p.2) then 0 else p.1))

/-- An entry of the chuck window (07 R235): the idle chuck's bytes. While the other chuck retires there is no idle one, and no rule says what is
read: free words (log 149). -/
def ckRead (s : State) (i : Nat) : List Nat :=
  if bit s Reg.SSK_CHUCK_SEL 2 then (List.range 8).map (fun j => Config.ulp 90 [s.cycle, i, j] % 2 ^ 32)
  else words8 (Memory.bytes Memory.zero (s.ssk.chucks.getD (idleChuck s) []) (32 * i) 32)

/-- The words of an entry. -/
def winRead (s : State) (w : WinRow) (i : Nat) : List Nat :=
  if w.kind = .trans then transRead s w i
  else if w.idx = Win.ING_SH then shRead s i
  else if w.idx = Win.SPC_CH then chRead s i
  else if w.idx = Win.SSK_KS then ksRead s i
  else if w.idx = Win.SSK_CK then ckRead s i
  else if w.idx = Win.DET_MODE then modeRead s i
  else if w.idx = Win.DET_SHP then (let z := Tab.get (fun _ => (0, 0)) (oscOf s (i / 8192)).shapes (i % 8192); [z.1, z.2])
  else if w.idx = Win.OUT_SS then ssRead s i
  else if w.idx = Win.NRG_ACC then
    (let a := Tab.get (fun _ => 0) s.nrg.snap i; [a / 2 ^ 32 % 2 ^ 32, a / 2 ^ 64, a % 2 ^ 32])
  else if w.idx = Win.NRG_H then (List.range 4).map (fun j => Tab.get (fun _ => 0) s.nrg.harm (i * 4 + j))
  else if w.idx = Win.NRG_IR then
    words8 (if i % 8 ≤ 4 then (Tab.get (fun _ => []) s.nrg.irs (i / 8)).drop (32 * (i % 8)) else [])
  else if w.idx = Win.CAP_RD then rdRead s i
  else if w.idx = Win.MSH_NS then nodeStatus s i
  else if w.idx = Win.KEY_PUB then words8 (pubEntry s i)
  else if w.idx = Win.KEY_SLOT then slotStatus s i
  else if w.idx = Win.NVS_BK then bkRead s i
  else (List.range w.ndata).map (fun j => getN s w.idx i j)

/-! Windows: what a write of an entry does. -/

/-- The bits of word `j` of entry `i` that a window write holds; the others are reserved (the entry tables of the chapters). -/
def winMask (w i j : Nat) : Nat :=
  if w = Win.ING_ST then (if j = 6 then (if i = 0 then 0x0DFFFFFF else 0x0FFFFFFF) else ones32)
  else if w = Win.ING_DIR then
    (if i < 131072 then (if j = 1 then 0xDFFF0000 else ones32)
     else if i < 163840 then (if j = 1 then 0xFFFF0000 else ones32)
     else if j = 0 then 0x9FFFFFFF else 0)
  else if w = Win.SSK_KT then (if j = 0 then 0xFFC3FFFF else if j = 3 then 0xFFFF0FFF else ones32)
  else if w = Win.DET_OSC then (if j = 1 then 0x001FFC00 else if j = 7 then 0x3FFFF else ones32)
  else if w = Win.DET_SIG then (if j = 0 then 0xC003FFFF else ones32)
  else if w = Win.DET_BAND then (if j = 0 then 0xC0F00000 else if j = 3 then 0 else ones32)
  else if w = Win.DET_GRP then 0x8000FF7F
  else if w = Win.DET_MEM then (if j = 0 then 0x3FFFF else ones32)
  else if w = Win.OUT_SESS then (if j = 0 then 0xFFFCFFFF else if j = 1 then 0xFE3FFFFF else if j = 2 then 0xFFFFFFC0 else ones32)
  else if w = Win.OUT_SX then (if j = 1 then 0xFFFF01FF else ones32)
  else if w = Win.OUT_BLK then (if j = 0 then 0xFFF8FFFF else if j = 2 then 0xF000FFFF else ones32)
  else if w = Win.CAP_CH then (if j = 0 then 0xF3FFFFFF else if j = 2 then 0xFFFF0000 else if j = 3 then 0x3FFFF else ones32)
  else if w = Win.CAP_TH then (if j = 0 then 0xFC03FFFF else if j = 3 then 0x3FFFF else ones32)
  else if w = Win.CAP_IN then 0xF000FFFF
  else if w = Win.CAP_TAP then (if j = 0 then 0xFFF80000 else ones32)
  else if w = Win.CAP_SQ then (if j = 0 then 0x80000000 else ones32)
  else if w = Win.CAP_TR then (if j = 0 then 0xFEFFFC00 else 0xFFFF)
  else if w = Win.AFE_MX ∧ i % 4 = 3 then (if j = 0 then 0x8F3F0000 else if j = 1 ∨ j = 2 then 0x1F1F1F1F else 0)
  else if w = Win.AFE_PHS then 0x3F
  else if w = Win.AFE_DIN then 0xF800FFFF
  else ones32

/-- The staged words as an entry holds them. -/
def stagedData (w i : Nat) (data : List Nat) : List Nat := data.zipIdx.map (fun p => p.1 &&& winMask w i p.2)

/-- A write of the chuck window (07 R235): 32 bytes of the idle chuck, refused in the shadow area and while the chuck is held. -/
def ckWrite (s : State) (i : Nat) (data : List Nat) : State :=
  if chuckRefuses s || decide (0xFF000 ≤ 32 * i) then setB s Reg.SSK_CHUCK_SEL 3 true
  else
    let c := idleChuck s
    let m := Memory.put Memory.zero (s.ssk.chucks.getD c []) (32 * i) (data.map (leBytes 4)).flatten
    setIdleState { s with ssk := { s.ssk with chucks := s.ssk.chucks.set c m } } 1

/-- A write of a domain entry (19 R529): REQ and PRIO. -/
def domWrite (s : State) (d : Nat) (data : List Nat) : State :=
  let v := data.getD 0 0
  govSettle (putN s Win.PWR_DOM d 0 (putBits (putBits (getN s Win.PWR_DOM d 0) 31 31 (bits v 31 31)) 26 25 (bits v 26 25)))

/-- A write sets STRAY outside OPEN (02 R70). -/
def stray (s : State) : State := setB s Reg.TXN_STATUS 9 true

/-- The copy of the staged words into an entry. -/
def winWrite (s : State) (w : WinRow) (i : Nat) (staged : List Nat) : State :=
  let data := stagedData w.idx i staged
  if w.kind = .trans then
    if txnState s = Txn.opened then { s with cfgPend := data.zipIdx.foldl (fun t p => putC t w.idx i p.2 p.1) s.cfgPend } else stray s
  else if w.idx = Win.TIME_CMP then cmpWrite s i data
  else if w.idx = Win.ING_RSC ∧ !rsStopped s then setB s Reg.ING_RS_STATUS 1 true
  else if w.idx = Win.SSK_CK then ckWrite s i data
  else if w.idx / 0x10000 = 0xD then afeWinWrite s w.idx i data
  else if w.idx = Win.NRG_CIR then nrgCirWrite s i data
  else if w.idx = Win.NRG_CAL then nrgCalWrite s i data
  else if w.idx = Win.NRG_PLS then nrgPlsWrite s i data
  else if w.idx = Win.MSH_NODE then meshNodeWrite s i data
  else if w.idx = Win.PWR_DOM then domWrite s i data
  else data.zipIdx.foldl (fun s p => putN s w.idx i p.2 p.1) s

/-! Windows: operations (R38 to R40). -/

/-- Does an operation name no entry that it may act on? -/
def winRange (s : State) (w : WinRow) (write : Bool) (i : Nat) : Bool :=
  decide (w.entries ≤ i) || (write && w.kind == .readOnly)
    || (i == 0 && (w.idx == Win.OUT_SESS || w.idx == Win.OUT_SX || w.idx == Win.OUT_SS))
    || (w.idx == Win.NRG_CAL && i % 4 == 3)
    || (write && w.idx == Win.DET_GS_STR && bit s Reg.DET_GS_CFG 31)

/-- The staged words of a window. -/
def staged (s : State) (w : WinRow) : List Nat := (List.range w.ndata).map (fun j => rd s (w.idx + 4 + 4 * j))

/-- An operation starts: BUSY, with the staged words captured. -/
def winBegin (s : State) (w : WinRow) (write : Bool) (i : Nat) : State :=
  setB { s with winOps := s.winOps ++ [⟨w.idx, write, i, staged s w, s.cycle⟩] } w.idx 31 true

/-- An operation is asked for; `advance`: by AINC. One out of range sets RANGE_ERR, a pending-copy write outside OPEN sets STRAY. -/
def winStart (s : State) (w : WinRow) (write advance : Bool) (i : Nat) : State :=
  if winRange s w write i then setB s w.idx 28 true
  else if write && w.kind == .trans && txnState s != Txn.opened then stray s
  else
    let s := if advance then setF s w.idx 19 0 i else s
    winBegin s w write i

/-- A write of an index register. -/
def winIdxWrite (s : State) (w : WinRow) (v : Nat) : State :=
  if bit s w.idx 31 then setB s w.idx 29 true
  else
    let old := rd s w.idx
    let keep := (bits old 29 28) &&& ((3 - bits v 29 28) ||| bits (cycReg s w.idx).2.1 29 28)
    let s := wr s w.idx (keep * 2 ^ 28 + bits v 24 24 * 2 ^ 24 + bits v 21 20 * 2 ^ 20 + bits v 19 0)
    match bits v 21 20 with
    | 1 => winStart s w false false (bits v 19 0)
    | 2 => winStart s w true false (bits v 19 0)
    | _ => s

/-- The highest data register of a window has been read or written with AINC. -/
def winAinc (s : State) (w : WinRow) (write : Bool) : State :=
  if !bit s w.idx 24 || bit s w.idx 31 then s else winStart s w write true (fld s w.idx 19 0 + 1)

/-- A write of data register `j`. -/
def winDataWrite (s : State) (w : WinRow) (j v : Nat) : State :=
  let s := wr s (w.idx + 4 + 4 * j) v
  if j + 1 = w.ndata then winAinc s w true else s

/-- The operation of a window completes (log 13): the copy, then BUSY clears. -/
def winComplete (s : State) (win : Nat) : State :=
  match s.winOps.find? (fun o => o.win == win), winAt? win with
  | some o, some w =>
    let s := passCyc { s with winOps := s.winOps.filter (fun x => x.win != win) } (o.at_ + 1)
    let s :=
      if gated s win then s
      else if o.write then winWrite s w o.entry o.data
      else (winRead s w o.entry).zipIdx.foldl (fun s p => wr s (win + 4 + 4 * p.2) p.1) s
    setB s win 31 false
  | _, _ => s

/-! Reads (R34, R37, R80, R171). -/

/-- The registers that only management cores reach (18, NVS_NOR_OP and its companions). -/
def norReg (off : Nat) : Bool := decide (Reg.NVS_NOR_OP ≤ off) && decide (off ≤ Reg.NVS_NOR_TMO)

/-- The index of a mesh channel's register. -/
def meshChan (off : Nat) : Nat := (off - Reg.MSH_CH_CFG 0) / 0x40

/-- The value that a register shows in this cycle. -/
def liveWord (s : State) (off : Nat) : State × Nat :=
  let frac := s.now % nsU / 2 ^ 32
  if off = Reg.TIME_NOW_SEC_LO then (s, nowSec s % 2 ^ 32)
  else if off = Reg.TIME_NOW_SEC_HI then (s, nowSec s / 2 ^ 32)
  else if off = Reg.TIME_NOW_NS then (s, nowNs s % 1000000000)
  else if off = Reg.TIME_NOW_FRAC then (s, frac)
  else if off = Reg.PWR_TEMP then fresh s 65536
  else if off = Reg.ALN_WAIT_PEND then (s, getC s.cfgPend Reg.ALN_WAIT 0 0)
  else if off = Reg.SPC_DEADLINE_PEND then (s, getC s.cfgPend Reg.SPC_DEADLINE 0 0)
  else if off = Reg.SPC_GAIN_PEND then (s, getC s.cfgPend Reg.SPC_GAIN 0 0)
  else if off = Reg.SSK_SWAP_PEND_LO then (s, getC s.cfgPend Reg.SSK_SWAP_AT_LO 0 0)
  else if off = Reg.SSK_SWAP_PEND_HI then (s, getC s.cfgPend Reg.SSK_SWAP_AT_HI 0 0)
  else if off = Reg.SSK_SWAP_AT_LO ∨ off = Reg.SSK_SWAP_AT_HI then (s, rd s off)
  else if txnRegs.contains off then (s, getC s.cfg off 0 0)
  else if Reg.CH_CFG 0 ≤ off ∧ off < Reg.CH_CFG 4 ∧ off % 0x40 = 4 then (s, chuteStatus s ((off - Reg.CH_CFG 0) / 0x40))
  else if off = Reg.MSH_CH_TOKENS 0 ∨ off = Reg.MSH_CH_TOKENS 1 then (s, meshTokens s (meshChan off) % 2 ^ 32)
  else if off = Reg.MSH_CH_SFNUM 0 ∨ off = Reg.MSH_CH_SFNUM 1 then (s, meshSfnum s (meshChan off))
  else (s, rd s off)

/-- A partial read: the current value, or what the last full read of a popping register returned. -/
def partRead (s : State) (off : Nat) : State × Nat :=
  match s.shadow.find? (fun p => p.1 == 2 ^ 21 + off) with
  | some p => (s, p.2.toNat)
  | none => liveWord s off

/-- Latch the value of a register into its shadow. -/
def latch (s : State) (off : Nat) : State :=
  let (s, v) := liveWord s off
  { s with shadow := Tab.put s.shadow off (BitVec.ofNat 32 v) }

/-- The registers that a full read of an offset latches: the parts of device time (R80), the state words and ALN_NEWEST (R171), the high word
of a 64-bit quantity (R37). -/
def latched (off : Nat) : List Nat :=
  if off = Reg.TIME_NOW_SEC_LO then [Reg.TIME_NOW_SEC_HI, Reg.TIME_NOW_NS, Reg.TIME_NOW_FRAC]
  else if off = Reg.TIME_REF_TS_SEC_LO then [Reg.TIME_REF_TS_SEC_HI, Reg.TIME_REF_TS_NS]
  else if off = Reg.ALN_BLANK_STATE 0 then
    [Reg.ALN_BLANK_STATE 1, Reg.ALN_BLANK_STATE 2, Reg.ALN_BLANK_STATE 3, Reg.ALN_NEWEST_LO, Reg.ALN_NEWEST_HI]
  else match wideHi? off with
    | some h => [h]
    | none => []

/-- A full read of a register that pops an entry, if the offset is one. -/
def popRead (s : State) (off : Nat) : Option (State × Nat) :=
  if off = Reg.AFE_DINEV_TAG then some (dinPop s)
  else
    match (List.range 4).find? (fun n => off == Reg.TIME_TXTS_TAG n) with
    | some n => some (txtsPop s n)
    | none =>
      match (List.range 4).find? (fun n => off == Reg.CH_RD_LO n) with
      | some n => some (chuteRead s n true)
      | none => none

/-- A full read of RC bits (00 R9, R11): the read returns what they held before this cycle, and what hardware has counted or set in it stays. -/
def rcRead (s : State) (off rc v : Nat) : State × Nat :=
  let (was, set, n) := cycReg s off
  let rest := v &&& (ones32 - rc)
  let s := wr s off (rest ||| ((min n ones32 ||| set) &&& rc))
  ({ s with cyc := { s.cyc with regs := Tab.put s.cyc.regs off (rest, set, n) } }, rest ||| (was &&& rc))

/-- A full read of an occupied, ungated register. -/
def fullRead (s : State) (off : Nat) : State × Nat :=
  match popRead s off with
  | some r => r
  | none =>
    if Tab.has s.shadow off then
      ({ s with shadow := Tab.del s.shadow off }, (Tab.get (fun _ => (0 : Word)) s.shadow off).toNat)
    else
      let (s, v) := liveWord s off
      let s := (latched off).foldl latch s
      let (s, v) := match regRow? off with
        | some r => if r.rc = 0 then (s, v) else rcRead s off r.rc v
        | none => (s, v)
      if off = Reg.NVS_LOG_RD 15 then (logAdvance s, v)
      else match winData? off with
        | some (w, j) => (if j + 1 = w.ndata then winAinc s w false else s, v)
        | none => (s, v)

/-- A read with its byte enables: a decode error and a gated register read 0 (R34 to R37). -/
def hostRead (s : State) (off : Nat) (full core : Bool) : State × Nat :=
  if !occupied off then (decodeError s off false false, 0)
  else if gated s off then (s, 0)
  else if norReg off && !core then (s, 0)
  else if full then fullRead s off else partRead s off

/-! Writes. -/

/-- The word that a full-word write leaves in a register of its kind: RW fields take the written bits, W1C fields written 1 clear (00 R9). -/
def writeWord (r : RegRow) (old v : Nat) : Nat :=
  ((old &&& (ones32 - r.rw)) ||| (v &&& r.rw)) &&& (ones32 - (v &&& r.w1c))

/-- The W1C bits of a register that hardware has set in this cycle: a write of the cycle leaves them 1 (00 R10). -/
def setNow (s : State) (r : RegRow) (off : Nat) : Nat := rd s off &&& (cycReg s off).2.1 &&& r.w1c

/-- A write to a register that does nothing but hold its fields. -/
def plainWrite (s : State) (r : RegRow) (off v : Nat) : State := wr s off (writeWord r (rd s off) v ||| setNow s r off)

/-- A write of a transactional register goes to the pending copy (02 R70; 07 R237). -/
def txnRegWrite (s : State) (r : RegRow) (off v : Nat) : State :=
  if txnState s = Txn.opened then { s with cfgPend := putC s.cfgPend off 0 0 (v &&& r.rw) } else stray s

/-- SYS. -/
def sysWrite (s : State) (r : RegRow) (off v : Nat) : State :=
  if off = Reg.TXN_CTRL then txnCtrlWrite s v
  else if off = Reg.TXN_TARGET_LO ∨ off = Reg.TXN_TARGET_HI then (if txnState s = Txn.opened then plainWrite s r off v else s)
  else if off = Reg.SYS_OOS_LANE then oosLaneWrite s v
  else if off = Reg.SYS_OOS_UNIT then oosUnitWrite s v
  else if off = Reg.SYS_HEALTH then gooseCheck (plainWrite s r off v)
  else plainWrite s r off v

/-- TIME. -/
def timeWrite (s : State) (r : RegRow) (off v : Nat) : State :=
  if off = Reg.TIME_CTRL then timeCtrlWrite s v
  else if off = Reg.TIME_FORCE_UNLOCK then unlockWrite s v
  else if off = Reg.TIME_ADDEND_HI then addendWrite s v
  else if off = Reg.TIME_PPS_CFG then ppsSettle (plainWrite (timeTouch s) r off v)
  else plainWrite (timeTouch s) r off v

/-- ETH and ING. -/
def ingWrite (s : State) (r : RegRow) (off v : Nat) : State :=
  match (List.range 4).find? (fun p => off == Reg.ETH_CFG p) with
  | some p => ethCfgWrite s p v
  | none =>
    if off = Reg.ING_SHCLR then shClrWrite s v
    else if (List.range 8).any (fun n => off == Reg.ING_RSSET n) && !rsStopped s then setB s Reg.ING_RS_STATUS 1 true
    else plainWrite s r off v

/-- ALN and SPC. -/
def alnWrite (s : State) (r : RegRow) (off v : Nat) : State :=
  if off = Reg.ALN_RATE then (if s.sys.rateLocked then s else plainWrite s r off v)
  else if off = Reg.SPC_CTRL then spcCtrlWrite s v
  else if off = Reg.SPC_CHCLR then chClrWrite s v
  else match (List.range 4).find? (fun i => off == Reg.SPC_FLOOR_PH + 4 * i) with
    | some i => floorWrite s i v
    | none => plainWrite s r off v

/-- SSK and DET. -/
def sskWrite (s : State) (r : RegRow) (off v : Nat) : State :=
  if off = Reg.SSK_CTRL then sskCtrlWrite s v
  else if off = Reg.SSK_LOAD_CFG then loadUpdate (plainWrite s r off v)
  else if off = Reg.DET_ALM_ACK then alarmAckWrite s v
  else if off = Reg.DET_ALM_CFG then almCfgWrite s v
  else if off = Reg.DET_GS_CFG then gsCfgWrite s v
  else gooseCheck (plainWrite s r off v)

/-- DMA: the rings. -/
def ringWrite (s : State) (r : RegRow) (off v : Nat) : State :=
  let n := (off - Reg.RING_CTRL 0) / 0x40
  if off = Reg.RING_CTRL n then ringCtrlWrite s n v
  else if off = Reg.RING_DESC_TAIL n then descTailFree s n v
  else if off = Reg.RING_CPL_HEAD n then cplHeadWrite s n v
  else if off = Reg.RING_IRQ_MOD n then irqModWrite s n v
  else if off = Reg.RING_DESC_BASE_LO n ∨ off = Reg.RING_DESC_BASE_HI n ∨ off = Reg.RING_CPL_BASE_LO n ∨ off = Reg.RING_CPL_BASE_HI n then
    (if !bit s (Reg.RING_CTRL n) 31 && bit s (Reg.RING_STATUS n) 31 then plainWrite s r off v else s)
  else plainWrite s r off v

/-- DMA: the chutes. -/
def chuteWrite (s : State) (r : RegRow) (off v : Nat) : State :=
  let n := (off - Reg.CH_CFG 0) / 0x40
  if off = Reg.CH_CFG n then chCfgWrite s n v
  else if off = Reg.CH_PUSH_HI n then portHi s n v
  else if off = Reg.CH_PUSH_SOI n then portSoi s n v
  else plainWrite s r off v

/-- AFE. -/
def afeWrite (s : State) (r : RegRow) (off v : Nat) : State :=
  if off = Reg.AFE_CTRL then mclkWrite s v
  else if off = Reg.AFE_GRP_CTRL then grpCtrlWrite s v
  else if off = Reg.AFE_TRK then afeTrkWrite s v
  else if off = Reg.AFE_CC_CMD then applyCc s (bits v 3 0)
  else if off = Reg.AFE_RSLEAD then afeRsleadWrite s v
  else match (List.range 8).find? (fun n => off == Reg.AFE_FIRGD n) with
    | some n => afeFirgdWrite s n v
    | none => plainWrite s r off v

/-- NRG and CAP: the store's place is fixed while records stand in it (14 R415). -/
def capWrite (s : State) (r : RegRow) (off v : Nat) : State :=
  if off = Reg.NRG_CTRL then nrgCtrlWrite s v
  else if off = Reg.CAP_CTRL then capCtrlWrite s v
  else if off = Reg.CAP_STORE_BASE ∨ off = Reg.CAP_STORE_SIZE then
    (if !bit s Reg.CAP_CTRL 31 && s.cap.staged.isEmpty && s.cap.commit.isNone then plainWrite s r off v else s)
  else plainWrite s r off v

/-- MSH. -/
def mshWrite (s : State) (r : RegRow) (off v : Nat) : State :=
  if off = Reg.MSH_CTRL then meshCtrlWrite s v
  else if off = Reg.MSH_CMD then meshCmdWrite s v
  else if off = Reg.MSH_SPI then spiWrite s v
  else if Reg.MSH_CH_CFG 0 ≤ off ∧ meshChan off < 2 ∧ r.rw ≠ 0 then meshChWrite s (meshChan off) off (writeWord r (rd s off) v ||| setNow s r off)
  else plainWrite s r off v

/-- TWN: the addresses, the beacon's frame and the key slot stand while the link or the beacon is enabled. -/
def twnWrite (s : State) (r : RegRow) (off v : Nat) : State :=
  if off = Reg.TWN_CTRL then twnCtrlWrite s v
  else if off = Reg.TWN_UNLOCK then twnUnlockWrite s v
  else if (Reg.TWN_MAC_LO ≤ off ∧ off ≤ Reg.TWN_BCN_CFG) ∨ off = Reg.TWN_KEY_SLOT then twnCfgWrite s off (writeWord r (rd s off) v)
  else plainWrite (twnSpoil s) r off v

/-- NVS: a host's write of a NOR register is only counted. -/
def nvsWrite (s : State) (r : RegRow) (off v : Nat) (core : Bool) : State :=
  if off = Reg.NVS_LOG_CUR then logCurWrite s v
  else if norReg off && !core then inc s Reg.NVS_NOR_HOSTWR
  else if off = Reg.NVS_NOR_OP then norOpWrite s v
  else plainWrite s r off v

/-- A full-word write of an ungated register. -/
def regRowWrite (s : State) (r : RegRow) (off v : Nat) (core : Bool) : State :=
  if txnRegs.contains off then txnRegWrite s r off v
  else
    match off / 0x10000 with
    | 0 => sysWrite s r off v
    | 2 => timeWrite s r off v
    | 3 | 4 => ingWrite s r off v
    | 6 | 7 => alnWrite s r off v
    | 8 | 10 => sskWrite s r off v
    | 12 => if off < Reg.RING_CTRL 0 then plainWrite s r off v else if off < Reg.CH_CFG 0 then ringWrite s r off v else chuteWrite s r off v
    | 13 => afeWrite s r off v
    | 14 | 15 => capWrite s r off v
    | 16 => mshWrite s r off v
    | 17 => twnWrite s r off v
    | 19 => nvsWrite s r off v core
    | 20 => govSettle (plainWrite s r off v)
    | _ => plainWrite s r off v

/-- A full-word write (R34 to R36). -/
def regWrite (s : State) (off v : Nat) (core : Bool) : State :=
  if !occupied off then decodeError s off false true
  else if gated s off then s
  else
    let t := if off / 0x10000 = 2 ∧ (regRow? off).isNone then timeTouch s else s
    match winAt? off, winData? off, regRow? off with
    | some w, _, _ => winIdxWrite t w v
    | _, some (w, j), _ => winDataWrite t w j v
    | _, _, some r => regRowWrite t r off v core
    | _, _, _ => t

/-- A write with its byte enables: one without all of them is discarded and a decode error. -/
def hostWrite (s : State) (off v : Nat) (full : Bool) : State := if full then regWrite s off v false else decodeError s off true true

/-- A management core's full read. -/
def regRead (s : State) (off : Nat) : State × Nat := hostRead s off true true

/-! The commands. -/

/-- A host read as a command: the word returned. -/
def readOut (s : State) (off : Nat) (full : Bool) : Out :=
  if inBar off then
    let (s, v) := hostRead s off full false
    .next { s with hostData := BitVec.ofNat 32 v }
  else if inBar2 off then .next { s with hostData := BitVec.ofNat 32 (if gated s Reg.DMA_CTRL then 0 else bar2Word s off) }
  else .fault .outsideBar

/-- A host write as a command. -/
def writeOut (s : State) (off v : Nat) (full : Bool) : Out :=
  if inBar off then .next (hostWrite s off v full)
  else if inBar2 off then .next (if full && !gated s Reg.DMA_CTRL then bar2Write s off v else s)
  else .fault .outsideBar

/-- REGISTER_WRITE (00 R9; 01 R34). -/
def execRegisterWrite (off : Nat) (v : Word) (be : BitVec 4) (s : State) : Out := writeOut s off v.toNat (be == 15)

/-- DECODE_ERROR_ACCESS (R35): an access as the host makes it, a write or a read, with its byte enables. -/
def execDecodeErrorAccess (off : Nat) (write : Bool) (v : Word) (be : BitVec 4) (s : State) : Out :=
  if write then writeOut s off v.toNat (be == 15) else readOut s off (be == 15)

/-- RC_COUNTER_READ (00 R11). -/
def execRcCounterRead (off : Nat) (be : BitVec 4) (s : State) : Out := readOut s off (be == 15)

/-- WIDE_LOW_READ (R37). -/
def execWideLowRead (off : Nat) (be : BitVec 4) (s : State) : Out := readOut s off (be == 15)

/-- TIME_NOW_READ (03 R80). -/
def execTimeNowRead (be : BitVec 4) (s : State) : Out := readOut s Reg.TIME_NOW_SEC_LO (be == 15)

/-- BLANK_STATE_READ (05 R171). -/
def execBlankStateRead (be : BitVec 4) (s : State) : Out := readOut s (Reg.ALN_BLANK_STATE 0) (be == 15)

/-- WINDOW_READ (R38): a write of a window's index register with OP = read. -/
def execWindowRead (win : Nat) (v : Word) (s : State) : Out := writeOut s win (putBits v.toNat 21 20 1) true

/-- WINDOW_WRITE (R39, R539): the same with OP = write. -/
def execWindowWrite (win : Nat) (v : Word) (s : State) : Out := writeOut s win (putBits v.toNat 21 20 2) true

/-- The highest data register of the window whose index register lies at an offset. -/
def topData (win : Nat) : Nat := match winAt? win with | some w => win + 4 * w.ndata | none => win

/-- WINDOW_AINC_READ (R40): a full read of the highest data register. -/
def execWindowAincRead (win : Nat) (s : State) : Out := readOut s (topData win) true

/-- WINDOW_AINC_WRITE (R40): a write of that register. -/
def execWindowAincWrite (win : Nat) (v : Word) (s : State) : Out := writeOut s (topData win) v.toNat true

/-- WINDOW_OP_COMPLETE (R38, R39). -/
def execWindowOpComplete (win : Nat) (s : State) : Out := .next (winComplete s win)

end Sys2Proof.Machine
end

