-- ==== Sys2Proof/Machine/Jtag.lean ====
section
/-! DEFINITION. The IEEE 1149.1 port (19_electrical_package.md R536). A command is an instruction taking effect in Update-IR with the data register it
selects captured; RESET_N low is no state between commands (log 35). -/

namespace Sys2Proof.Machine

/-- The content of the identification register. -/
abbrev idcode : Nat := 0x181924EF

/-- May EXTEST, CLAMP and HIGHZ act? -/
def jtagLets (s : State) : Bool := mode s == Mode.diagnostic || mode s == Mode.halt

/-- The instruction as it acts: EXTEST, CLAMP and HIGHZ act as BYPASS where they may not act. -/
def jtagActs (s : State) : Nat := if 4 ≤ s.jtag.ir ∧ !jtagLets s then 1 else s.jtag.ir

/-- An instruction is loaded: not while TRST_N is low. -/
def jtagLoad (s : State) (ir : Nat) : State :=
  if s.pins.trstLow then s
  else
    let s := { s with jtag := { s.jtag with ir := ir } }
    match jtagActs s with
    | 2 => { s with jtag := { s.jtag with dr := idcode } }
    | 3 | 4 =>
      let (s, v) := fresh s (2 ^ 4096)
      { s with jtag := { s.jtag with dr := v } }
    | _ => { s with jtag := { s.jtag with dr := 0 } }

/-- JTAG_BYPASS. -/
def execJtagBypass (s : State) : Out := .next (jtagLoad s 1)
/-- JTAG_IDCODE. -/
def execJtagIdcode (s : State) : Out := .next (jtagLoad s 2)
/-- JTAG_SAMPLE_PRELOAD: the levels at the balls are sampled, which no state of the part gives, and the boundary register takes a new value. -/
def execJtagSamplePreload (boundary : Nat) (s : State) : Out :=
  let t := jtagLoad s 3
  .next (if s.pins.trstLow then t else { t with jtag := { t.jtag with boundary := boundary } })
/-- JTAG_EXTEST: the outputs take the preloaded boundary. -/
def execJtagExtest (s : State) : Out := .next (jtagLoad s 4)
/-- JTAG_CLAMP. -/
def execJtagClamp (s : State) : Out := .next (jtagLoad s 5)
/-- JTAG_HIGHZ. -/
def execJtagHighz (s : State) : Out := .next (jtagLoad s 6)
/-- JTAG_TRST: low holds the TAP in Test-Logic-Reset, in which IDCODE is selected. -/
def execJtagTrst (low : Bool) (s : State) : Out :=
  let s := { s with pins := { s.pins with trstLow := low } }
  .next (if low then { s with jtag := { s.jtag with ir := 0, dr := idcode } } else s)

end Sys2Proof.Machine
end

