-- ==== Sys2Proof/Machine/Suesk.lean ====
section
/-! DEFINITION. What every Suesk instruction shares: registers, code and data spaces, exceptions, issue, gathers
(07_suesk_programming_model.md; 08_suesk_instructions.md R242 to R247, R255, R267 to R279). A command of an instruction is that
instruction issued by the processor it names (log 7). -/

namespace Sys2Proof.Machine

/-! Processors and registers (R204, R205, R207). -/

/-- A processor. -/
def procOf (s : State) : Proc → ProcS
  | .lane l => laneOf s l
  | .core c => s.ssk.cores.getD c (ProcS.reset true)

/-- Put a processor back. -/
def setProc (s : State) (p : Proc) (x : ProcS) : State :=
  match p with
  | .lane l => setLane s l x
  | .core c => { s with ssk := { s.ssk with cores := s.ssk.cores.set c x } }

/-- Change a processor. -/
def onProc (s : State) (p : Proc) (f : ProcS → ProcS) : State := setProc s p (f (procOf s p))

/-- Is it a lane, which runs the vector profile? -/
def isLane : Proc → Bool
  | .lane _ => true
  | .core _ => false

/-- A scalar register, 64 bits; s0 reads zero. -/
def ProcS.sGet (x : ProcS) (i : Nat) : Nat := if i = 0 then 0 else Tab.get (fun _ => 0) x.s i % 2 ^ 64
/-- Write it; s0 ignores writes. -/
def ProcS.sSet (x : ProcS) (i v : Nat) : ProcS := if i = 0 then x else { x with s := Tab.set (fun _ => 0) x.s i (v % 2 ^ 64) }
/-- Element `e` of a predicate register; k0 is TRUE. -/
def ProcS.kGet (x : ProcS) (r e : Nat) : Nat := if r = 0 then kT else kRead (Tab.get (fun _ => kU) x.k (4 * r + e))
/-- Write it; k0 ignores writes. -/
def ProcS.kSet (x : ProcS) (r e v : Nat) : ProcS := if r = 0 then x else { x with k := Tab.set (fun _ => kU) x.k (4 * r + e) (kRead v) }
/-- Element `e` of a vector register. -/
def ProcS.vGet (x : ProcS) (r e : Nat) : VEl := Tab.get (fun _ => VEl.every) x.v (4 * r + e)
/-- Write it. -/
def ProcS.vSet (x : ProcS) (r e : Nat) (v : VEl) : ProcS := { x with v := Tab.set (fun _ => VEl.every) x.v (4 * r + e) v }
/-- The four elements of a vector register. -/
def ProcS.vAll (x : ProcS) (r : Nat) : List VEl := (List.range 4).map (x.vGet r)

/-- The predicate elements a processor has: four on a lane, element 0 on a core (R204). -/
def elems (p : Proc) : List Nat := if isLane p then [0, 1, 2, 3] else [0]
/-- A predicate register as a branch or a reduction sees it (R257): on a core all elements equal element 0. -/
def ProcS.kAll (x : ProcS) (p : Proc) (r : Nat) : List Nat :=
  (List.range 4).map (fun e => x.kGet r (if isLane p then e else 0))

/-- Write a predicate register under its governing predicate (R208). -/
def ProcS.kWrite (x : ProcS) (p : Proc) (kd kg : Nat) (f : Nat → Nat) : ProcS :=
  (elems p).foldl (fun y e => y.kSet kd e (kMerge (x.kGet kg e) (x.kGet kd e) (f e))) x

/-- Write a vector register under its governing predicate (R208, R249). -/
def ProcS.vWrite (x : ProcS) (d kg : Nat) (hull : VEl → VEl → VEl) (f : Nat → VEl) : ProcS :=
  [0, 1, 2, 3].foldl (fun y e =>
    let g := x.kGet kg e
    if g = kF then y else if g = kT then y.vSet d e (f e) else y.vSet d e (hull (x.vGet d e) (f e))) x

/-! Images and code. -/

/-- Sections of the Kolit image at an offset of a memory: type, offset, size, load address (07, Kolit images). -/
def kolitSections (d : Nat → Byte) (m : Memory) (base : Nat) : List (Nat × Nat × Nat × Nat) :=
  (List.range (min 16 (Memory.le d m (base + 0x18) 4))).map (fun i =>
    let a := base + 0x40 + 16 * i
    (Memory.le d m a 2, Memory.le d m (a + 4) 4, Memory.le d m (a + 8) 4, Memory.le d m (a + 12) 4))

/-- The chuck that a lane's work item runs under. -/
def laneChuck (s : State) (l : Nat) : Nat :=
  match (laneOf s l).item with
  | some (id, _) => (match invOf s id with | some v => v.chuck | none => 0)
  | none => 0

/-- A chuck's content. -/
def chuckMem (s : State) (k : Nat) : Memory := s.ssk.chucks.getD k []

/-- May an instruction be fetched from an address? (R211, R276) -/
def codeAt (s : State) (p : Proc) (a : Nat) : Bool :=
  match p with
  | .lane l =>
    decide (0x20000000 ≤ a) &&
      (kolitSections Memory.zero (chuckMem s (laneChuck s l)) 0).any (fun c =>
        c.1 == 1 && decide (c.2.1 ≤ a - 0x20000000) && decide (a - 0x20000000 < c.2.1 + c.2.2.1))
  | .core _ => decide (a < 0x40000) || (decide (0x10000000 ≤ a) && decide (a < 0x10020000)) ||
    (decide (0x40000000 ≤ a) && decide (a < 0x80000000))

/-! Data spaces (R211, R276). -/

/-- A place of data. -/
inductive Space where
  | scratch (l a : Nat)
  | core (c a : Nat)
  | hist (a : Nat)
  | chuck (k a : Nat)
  | rom (a : Nat)
  | dev (off : Nat)
deriving DecidableEq, Repr

/-- Where the kernel result store begins in history memory (01 R22). -/
def resultBase (s : State) : Nat := s.histPart.getD 0 0

/-- Where the device reserve region begins. -/
def reserveBase (s : State) : Nat := (s.histPart.take 7).sum

/-- The place of `n` bytes at an address for an access of a processor; none where no space of its profile permits it. `word`: it is LDW or
STW. -/
def spaceOf (s : State) (p : Proc) (a n : Nat) (write word : Bool) : Option Space :=
  match p with
  | .lane l =>
    if a + n ≤ 0x10000 then some (.scratch l a)
    else if a < 0x10000000 then none
    else if a < 0x20000000 then
      match (laneOf s l).item with
      | some (id, i) =>
        match invOf s id with
        | some v =>
          let size := ktStSize v.words * 64
          if a - 0x10000000 + n ≤ size then some (.hist (resultBase s + ktStBase v.words * 65536 + i * size + (a - 0x10000000)))
          else none
        | none => none
      | none => none
    else
      let k := laneChuck s l
      if !write && decide (a - 0x20000000 + n ≤ Memory.le Memory.zero (chuckMem s k) 0x14 4) then some (.chuck k (a - 0x20000000))
      else none
  | .core c =>
    if a + n ≤ 0x40000 then some (.core c a)
    else if a < 0x10000000 then none
    else if a + n ≤ 0x10020000 then (if write then none else some (.rom (a - 0x10000000)))
    else if a < 0x40000000 then none
    else if a + n ≤ 0x80000000 then
      (if write && decide (reserveBase s < a - 0x40000000 + n) then none else some (.hist (a - 0x40000000)))
    else if 0x80000000 ≤ a ∧ a + n ≤ 0x80200000 ∧ word then some (.dev (a - 0x80000000))
    else none

/-- Bytes of lane-local memory: what the work item has not written is undefined, and free (R211, log 10). -/
def scratchBytes (s : State) (l a n : Nat) : List Nat :=
  let (id, item) := (laneOf s l).item.getD (0, 0)
  (List.range n).map (fun i => (Tab.get (fun x => BitVec.ofNat 8 (Config.scratch l id item x)) (s.ssk.scratch.getD l []) (a + i)).toNat)

/-- Read bytes. A register read has its effect (01 R34). -/
def spaceRead (s : State) (n : Nat) : Space → State × List Nat
  | .scratch l a => (s, scratchBytes s l a n)
  | .core c a => (s, Memory.bytes Memory.zero (s.ssk.coreMem.getD c []) a n)
  | .hist a => (s, Memory.bytes Memory.zero s.hist a n)
  | .chuck k a => (s, Memory.bytes Memory.zero (chuckMem s k) a n)
  | .rom a => (s, (List.range n).map (fun i => Config.bootRom (a + i) % 256))
  | .dev off => let (s, w) := regRead s off; (s, leBytes 4 w)

/-- Put bytes into a table that lists what has been written. -/
def putAll (m : Memory) (a : Nat) (bs : List Nat) : Memory :=
  match bs with
  | [] => m
  | b :: rest => putAll (Tab.put m a (BitVec.ofNat 8 b)) (a + 1) rest

/-- The 64-bit word of a memory of item 0x0004, with a lane, that holds an uncorrectable error among `n` bytes (01 R18). -/
def ueAmong (s : State) (n : Nat) (mem lane a : Nat) : Option (Nat × Nat × Nat) :=
  s.sys.ue.find? (fun u => u.1 == mem && (mem != 6 || u.2.1 == lane) && decide (8 * u.2.2 < a + n) && decide (a < 8 * u.2.2 + 8))

/-- The same of a place of data. -/
def ueIn (s : State) (n : Nat) : Space → Option (Nat × Nat × Nat)
  | .scratch l a => ueAmong s n 6 l a
  | .hist a => ueAmong s n 5 0 a
  | .chuck k a => ueAmong s n (1 + k) 0 a
  | .core _ _ => none
  | .rom _ => none
  | .dev _ => none

/-- Bytes put into a place of data. -/
def spacePut (s : State) (bs : List Nat) : Space → State
  | .scratch l a => { s with ssk := { s.ssk with scratch := s.ssk.scratch.set l (putAll (s.ssk.scratch.getD l []) a bs) } }
  | .core c a => { s with ssk := { s.ssk with coreMem := s.ssk.coreMem.set c (Memory.put Memory.zero (s.ssk.coreMem.getD c []) a bs) } }
  | .hist a => { s with hist := Memory.put Memory.zero s.hist a bs }
  | .chuck _ _ => s
  | .rom _ => s
  | .dev off => regWrite s off (ofLe bs) true

/-- Write bytes; a word that held an uncorrectable error holds none once it is written. -/
def spaceWrite (s : State) (bs : List Nat) (sp : Space) : State :=
  let s := spacePut s bs sp
  (List.range 64).foldl (fun s _ => match ueIn s bs.length sp with
    | some u => { s with sys := { s.sys with ue := s.sys.ue.erase u } }
    | none => s) s

/-! Exceptions (R232, R278). -/

/-- An instruction raises an exception: on a lane it ends the work item; a core enters its fault handler, or, in it, its watchdog expires. -/
def raiseExc (s : State) (p : Proc) (code arg addr : Nat) : State :=
  match p with
  | .lane l => excWork s l code arg
  | .core c =>
    let x := procOf s p
    if x.fault then coreExpiry s c
    else setProc s p { x with fault := true, fltPc := x.pc, fltCode := code + arg * 256, fltAddr := addr, pc := x.fltEntry }

/-- Read bytes and go on with them, unless a word of theirs holds an uncorrectable error: exception ECC, detected as the access completes, with
ECC_UE and its item (R232, R246; 01 R18). -/
def withRead (s : State) (p : Proc) (n a : Nat) (sp : Space) (k : State → List Nat → State) : State :=
  match ueIn s n sp with
  | some u => raiseExc (eccUe s u.1 0 u.2.2) p 9 0 a
  | none => let (s, bs) := spaceRead s n sp; k s bs

/-! Issue (R242 to R246). -/

/-- The place that a processor's instruction at an address lies in. -/
def codeSpace (s : State) (p : Proc) (a : Nat) : Space :=
  match p with
  | .lane l => .chuck (laneChuck s l) (a - 0x20000000)
  | .core c => if a < 0x40000 then .core c a else if a < 0x40000000 then .rom (a - 0x10000000) else .hist (a - 0x40000000)

/-- The word that a processor fetches at an address. -/
def codeWord (s : State) (p : Proc) (a : Nat) : Nat := ofLe (spaceRead s 4 (codeSpace s p a)).2

/-- Does a processor execute? A lane has a work item; a core is powered, not held in reset and not dozing. -/
def procRuns (s : State) : Proc → Bool
  | .lane l => (laneOf s l).item.isSome
  | .core c =>
    let x := procOf s (.core c)
    !x.held && !x.dozing && domOn s c && mode s != Mode.halt

/-- The program counter moves on by `n` bytes. -/
def advance (s : State) (p : Proc) (n : Nat) : State := onProc s p (fun x => { x with pc := (x.pc + n) % 2 ^ 64 })

/-- Profiles an instruction belongs to. -/
inductive Profile where
  | both
  | vector
  | scalar
deriving DecidableEq, Repr

def Profile.has (q : Profile) (p : Proc) : Bool :=
  match q with
  | .both => true
  | .vector => isLane p
  | .scalar => !isLane p

/-- What an instruction needs before its own effect: its profile, its words' bytes, whether its fields are as its table asks, and the scalar
and vector registers it reads or writes. -/
structure Need where
  prof : Profile := .both
  size : Nat := 4
  legal : Bool := true
  sregs : List Nat := []
  vregs : List Nat := []
  drained : Bool := false

/-- Does a register it needs, or everything where it must drain, wait for a gather? (R246, R269, R274) -/
def stalled (x : ProcS) (n : Need) : Bool :=
  x.gath.any (fun g => n.drained || (if g.isFlag then n.sregs.contains g.dest else n.vregs.contains g.dest))

/-- Issue one instruction: nothing where the processor does not execute; FETCH where its program counter is no place of code; ECC where its word cannot be
read; ILLEGAL where the word fetched spells no instruction, or the instruction is not the profile's or has a field it may not have, before FETCH for
its extension word (R234); a stall changes nothing; else its own effect. -/
def issue (p : Proc) (n : Need) (s : State) (f : State → ProcS → State) : Out :=
  if !procRuns s p then .next s
  else
    let x := procOf s p
    if x.pc % 4 ≠ 0 ∨ !codeAt s p x.pc then .next (raiseExc s p 2 0 x.pc)
    else if (ueIn s 4 (codeSpace s p x.pc)).isSome then .next (withRead s p 4 x.pc (codeSpace s p x.pc) (fun s _ => s))
    else if illegalWord (codeWord s p x.pc) || !(n.prof.has p) || !n.legal then .next (raiseExc s p 1 0 0)
    else if n.size = 8 ∧ !codeAt s p (x.pc + 4) then .next (raiseExc s p 2 0 (x.pc + 4))
    else if n.size = 8 ∧ (ueIn s 4 (codeSpace s p (x.pc + 4))).isSome then .next (withRead s p 4 (x.pc + 4) (codeSpace s p (x.pc + 4)) (fun s _ => s))
    else if stalled x n then .next s
    else .next (f s x)

/-- An effect on the processor's own registers, and the next instruction. -/
def regsOnly (p : Proc) (n : Need) (s : State) (f : ProcS → ProcS) : Out :=
  issue p n s (fun s x => advance (setProc s p (f x)) p n.size)

/-- A scalar result governed by element 0 of KG (R209), from the scalar registers `rs`. -/
def scalarFrom (p : Proc) (f : FmtR) (legal : Bool) (rs : List Nat) (g : ProcS → Nat) (s : State) : Out :=
  regsOnly p { legal := legal, sregs := f.d.toNat :: rs } s
    (fun x => if x.kGet f.kg.toNat 0 = kT then x.sSet f.d.toNat (g x) else x)

/-- A function of scalars A and B (R250). -/
def scalar2 (p : Proc) (f : FmtR) (g : Nat → Nat → Nat) (s : State) : Out :=
  scalarFrom p f true [f.a.toNat, f.b.toNat] (fun x => g (x.sGet f.a.toNat) (x.sGet f.b.toNat)) s

/-- A function of scalar A alone; `legal` where the table asks that B be s0. -/
def scalar1 (p : Proc) (f : FmtR) (legal : Bool) (g : Nat → Nat) (s : State) : Out :=
  scalarFrom p f legal [f.a.toNat] (fun x => g (x.sGet f.a.toNat)) s

/-! Gathers (R213 to R217, R267 to R271). -/

/-- The epoch index that a gather of an invocation's blank k - d names; a negative one names no blank. -/
def gathEpoch (k d : Nat) : Option Nat := if d ≤ k then some (k - d) else none

/-- The stream that owns a channel that is no phasor, if one does. -/
def ownerOf (c : Tab Word) (i : Nat) : Option Nat :=
  if i < chFr then (if dirMapped c i then some (dirStream c i) else none)
  else if i < chDg then some (chOwner c i)
  else
    let w := getC c Win.ING_DIR (chFr + (i - chDg)) 0
    if bitOf w 31 then some (bits w 28 16) else none

/-- Does an entry hold the missing pattern, neither measured nor predicted? A lost one is delivered with its ECC_LOST flag (01 R18), and is not
counted here. -/
def entryGone (c : Tab Word) (b : Blank) (i : Nat) : Bool :=
  if i < chAn then (b.phOf i).flags == 0 || (bitOf (b.phOf i).flags 2 && !bitOf (b.phOf i).flags 1)
  else if i < chDg then !b.measured c i && !(Tab.get (fun _ => (⟨0, 0, 0, 0, 0, false⟩ : Pred)) b.preds i).written
  else match ownerOf c i with | some o => !bitOf (b.hdrOf o).sflags 0 | none => true

/-- Flag word that a flag gather delivers (R214): 0 of a missing entry. -/
def gatherFl (s : State) (k i : Nat) : Nat :=
  match blankOf s k with
  | none => 0
  | some b =>
    if entryGone (confOf s k) b i then 0
    else if i < chAn then
      let q := b.phOf i
      q.flags % 65536 + q.qual % 256 * 2 ^ 16 + q.ofs % 2 ^ 24 * 2 ^ 24
    else
      match ownerOf (confOf s k) i with
      | some o =>
        let h := b.hdrOf o
        h.stat % 65536 + h.sflags % 256 * 2 ^ 16 + h.ofs % 2 ^ 24 * 2 ^ 24
      | none => 0

/-- A gather completes: it reads its blank's content as it stands (R216, R268). -/
def gathDone (s : State) (x : ProcS) (g : Gath) : ProcS :=
  if g.isFlag then x.sSet g.dest (match g.el with | (_, i) :: _ => gatherFl s g.epoch i | [] => 0)
  else
    g.el.zipIdx.foldl (fun y (gi, e) =>
      if gi.1 = kF then y
      else
        let v := gatherEl s g.epoch gi.2
        y.vSet g.dest e (if gi.1 = kT then v else discHull (x.vGet g.dest e) v)) x

/-- What a read of the blank store sees in this cycle: each slot as it was before the cycle, with what a fill wrote up to then (01 R16). -/
def storeView (s : State) (k : Nat) : State :=
  let ring := s.cyc.blanks.foldl (fun r p => r.set p.1 p.2) s.aln.ring
  syncFill { s with aln := { s.aln with ring := ring } } k (s.cycle - 1)

/-- What a lane's gather of blank `k` reads: the ring, or, in a re-run for the twin, the blanks as they stood at their seals (16 R470). -/
def gathView (s : State) (x : ProcS) (k : Nat) : State :=
  match x.item with
  | some (id, _) => (match invOf s id with | some v => if v.quiet then s.twn.kept.foldl withKept s else storeView s k | none => storeView s k)
  | none => storeView s k

/-- GATHER_COMPLETE (R269): an outstanding gather of a lane completes, in any order. -/
def execGatherComplete (lane : Fin 32) (which : Nat) (s : State) : Out :=
  let x := laneOf s lane
  match x.gath[which]? with
  | some g => .next (setLane s lane (gathDone (gathView s x g.epoch) { x with gath := x.gath.eraseIdx which } g))
  | none => .next s

/-! Scalar memory (R255). -/

/-- The alignment and the space of an access, then its effect. -/
def access (p : Proc) (s : State) (a n al : Nat) (write word : Bool) (k : Space → State) : State :=
  if a % al ≠ 0 then raiseExc s p 3 0 a
  else
    match spaceOf s p a n write word with
    | some sp => k sp
    | none => raiseExc s p 4 0 a

/-- The address of format M with a size. -/
def addrM (x : ProcS) (f : FmtM) (n : Nat) : Nat := toU 64 ((x.sGet f.a.toNat : Int) + f.ofs.toInt * n)

/-- A scalar load of `n` bytes, zero-extended. -/
def loadOp (p : Proc) (f : FmtM) (n : Nat) (s : State) : Out :=
  issue p { sregs := [f.d.toNat, f.a.toNat] } s fun s x =>
    if x.kGet f.kg.toNat 0 ≠ kT then advance s p 4
    else access p s (addrM x f n) n n false (n == 4) fun sp => withRead s p n (addrM x f n) sp fun s bs =>
      advance (onProc s p (fun x => x.sSet f.d.toNat (ofLe bs))) p 4

/-- A scalar store of `n` bytes. -/
def storeOp (p : Proc) (f : FmtM) (n : Nat) (s : State) : Out :=
  issue p { sregs := [f.d.toNat, f.a.toNat] } s fun s x =>
    if x.kGet f.kg.toNat 0 ≠ kT then advance s p 4
    else access p s (addrM x f n) n n true (n == 4) fun sp =>
      advance (spaceWrite s (leBytes n (x.sGet f.d.toNat)) sp) p 4

/-! Vector and predicate shapes. -/

/-- A governed vector result from the scalar registers `rs` and the vector registers `vs`. -/
def vectorOp (p : Proc) (f : FmtR) (legal : Bool) (rs vs : List Nat) (hull : VEl → VEl → VEl) (g : ProcS → Nat → VEl) (s : State) : Out :=
  regsOnly p { prof := .vector, legal := legal, sregs := rs, vregs := f.d.toNat :: vs } s
    (fun x => x.vWrite f.d.toNat f.kg.toNat hull (g x))

/-- Two-operand and one-operand VALU functions; a one-operand function asks for B = 0 (R261). -/
def valu2 (p : Proc) (f : FmtR) (hull : VEl → VEl → VEl) (g : VEl → VEl → VEl) (s : State) : Out :=
  vectorOp p f true [] [f.a.toNat, f.b.toNat] hull (fun x e => lift2 g (x.vGet f.a.toNat e) (x.vGet f.b.toNat e)) s
def valu1 (p : Proc) (f : FmtR) (hull : VEl → VEl → VEl) (g : VEl → VEl) (s : State) : Out :=
  vectorOp p f (f.b == 0) [] [f.a.toNat] hull (fun x e => lift1 g (x.vGet f.a.toNat e)) s
/-- A VALU function of a vector and the binary32 in a scalar register. -/
def valuS (p : Proc) (f : FmtR) (g : Nat → VEl → VEl) (s : State) : Out :=
  vectorOp p f true [f.b.toNat] [f.a.toNat] discHull (fun x e => lift1 (g (x.sGet f.b.toNat % 2 ^ 32)) (x.vGet f.a.toNat e)) s

/-- A predicate result of formats C: the zero bits are zero. -/
def cmpOp (p : Proc) (f : FmtC) (prof : Profile) (g : ProcS → Nat → Nat) (s : State) : Out :=
  let ab := [f.a.toNat, f.b.toNat]
  let vec := prof == .vector
  let n : Need := { prof := prof, legal := f.z == 0, sregs := if vec then [] else ab, vregs := if vec then ab else [] }
  regsOnly p n s
    (fun x => x.kWrite p f.kd.toNat f.kg.toNat (g x))
/-- A comparison of two scalars. -/
def scmpOp (p : Proc) (f : FmtC) (g : Nat → Nat → Bool) (s : State) : Out :=
  cmpOp p f .both (fun x _ => kOf (g (x.sGet f.a.toNat) (x.sGet f.b.toNat))) s
/-- A comparison of two vectors, by FUNC (R266). -/
def vcmpOp (p : Proc) (f : FmtC) (func : Nat) (s : State) : Out :=
  cmpOp p f .vector (fun x e => elCmp func (x.vGet f.a.toNat e) (x.vGet f.b.toNat e)) s

/-- A PLOG function (R260). -/
def plogOp (p : Proc) (f : FmtP) (legal : Bool) (g : ProcS → Nat → Nat) (s : State) : Out :=
  regsOnly p { legal := legal } s (fun x => x.kWrite p f.kd.toNat f.kg.toNat (g x))

/-- A format I function: not governed (R245). -/
def immOp (p : Proc) (f : FmtI) (legal : Bool) (g : Nat → Nat) (s : State) : Out :=
  regsOnly p { legal := legal, sregs := [f.d.toNat, f.a.toNat] } s (fun x => x.sSet f.d.toNat (g (x.sGet f.a.toNat)))

end Sys2Proof.Machine
end

