-- ==== Sys2Proof/Machine/SueskScalar.lean ====
section
/-! DEFINITION. The scalar instructions of Suesk, its branches and predicate logic (08_suesk_instructions.md R250 to R260). -/

namespace Sys2Proof.Machine

/-- The signed reading of a scalar. -/
abbrev s64 (a : Nat) : Int := sext 64 a
/-- A truth for comparisons. -/
abbrev cmpI (a b : Nat) : Bool := decide (s64 a < s64 b)

/-- ADD (R250) -/
def execAdd (p : Proc) (f : FmtR) (s : State) : Out := scalar2 p f (fun a b => a + b) s

/-- SUB (R250) -/
def execSub (p : Proc) (f : FmtR) (s : State) : Out := scalar2 p f (fun a b => a + 2 ^ 64 - b) s

/-- MUL: the low 64 bits of the product (R250) -/
def execMul (p : Proc) (f : FmtR) (s : State) : Out := scalar2 p f (fun a b => a * b) s

/-- MULHS: the high 64 bits of the signed product (R250) -/
def execMulhs (p : Proc) (f : FmtR) (s : State) : Out := scalar2 p f (fun a b => toU 64 (s64 a * s64 b / (2 ^ 64 : Nat))) s

/-- The signed quotient rounded down, saturating (R250). -/
def divFloor (a b : Int) : Int :=
  if b = 0 then (if 0 ≤ a then 2 ^ 63 - 1 else -2 ^ 63) else min (2 ^ 63 - 1) (a.fdiv b)

/-- DIVF (R250) -/
def execDivf (p : Proc) (f : FmtR) (s : State) : Out := scalar2 p f (fun a b => toU 64 (divFloor (s64 a) (s64 b))) s

/-- DIVU (R250) -/
def execDivu (p : Proc) (f : FmtR) (s : State) : Out := scalar2 p f (fun a b => if b = 0 then (if a = 0 then 0 else 2 ^ 64 - 1) else a / b) s

/-- MODF (R250) -/
def execModf (p : Proc) (f : FmtR) (s : State) : Out := scalar2 p f (fun a b => if b = 0 then 0 else toU 64 ((s64 a).fmod (s64 b))) s

/-- MODU (R250) -/
def execModu (p : Proc) (f : FmtR) (s : State) : Out := scalar2 p f (fun a b => if b = 0 then 0 else a % b) s

/-- AND (R250) -/
def execAndOp (p : Proc) (f : FmtR) (s : State) : Out := scalar2 p f (fun a b => a &&& b) s

/-- OR (R250) -/
def execOrOp (p : Proc) (f : FmtR) (s : State) : Out := scalar2 p f (fun a b => a ||| b) s

/-- XOR (R250) -/
def execXorOp (p : Proc) (f : FmtR) (s : State) : Out := scalar2 p f (fun a b => a ^^^ b) s

/-- The three shifts of R250 by a count below 64. -/
def shl64 (a n : Nat) : Nat := a * 2 ^ n
def shr64 (a n : Nat) : Nat := a / 2 ^ n
def sra64 (a n : Nat) : Nat := toU 64 (s64 a / (2 ^ n : Nat))

/-- SHL (R250) -/
def execShl (p : Proc) (f : FmtR) (s : State) : Out := scalar2 p f (fun a b => shl64 a (b % 64)) s

/-- SHR (R250) -/
def execShr (p : Proc) (f : FmtR) (s : State) : Out := scalar2 p f (fun a b => shr64 a (b % 64)) s

/-- SRA (R250) -/
def execSra (p : Proc) (f : FmtR) (s : State) : Out := scalar2 p f (fun a b => sra64 a (b % 64)) s

/-- MIN (R250) -/
def execMinOp (p : Proc) (f : FmtR) (s : State) : Out := scalar2 p f (fun a b => if cmpI b a then b else a) s

/-- MAX (R250) -/
def execMaxOp (p : Proc) (f : FmtR) (s : State) : Out := scalar2 p f (fun a b => if cmpI a b then b else a) s

/-- EXTS32 (R250) -/
def execExts32 (p : Proc) (f : FmtR) (s : State) : Out := scalar1 p f (f.b == 0) (fun a => toU 64 (sext 32 a)) s

/-- EXTZ32 (R250) -/
def execExtz32 (p : Proc) (f : FmtR) (s : State) : Out := scalar1 p f (f.b == 0) (fun a => a % 2 ^ 32) s

/-- ADDI (R251) -/
def execAddi (p : Proc) (f : FmtI) (s : State) : Out := immOp p f (true) (fun a => toU 64 ((a : Int) + f.imm.toInt)) s

/-- ANDI (R251) -/
def execAndi (p : Proc) (f : FmtI) (s : State) : Out := immOp p f (true) (fun a => a &&& f.imm.toNat) s

/-- ORI (R251) -/
def execOri (p : Proc) (f : FmtI) (s : State) : Out := immOp p f (true) (fun a => a ||| f.imm.toNat) s

/-- XORI (R251) -/
def execXori (p : Proc) (f : FmtI) (s : State) : Out := immOp p f (true) (fun a => a ^^^ f.imm.toNat) s

/-- SHI (R251) -/
def execShi (p : Proc) (f : FmtI) (s : State) : Out := immOp p f (decide (f.imm.toNat < 192)) (fun a =>
  let n := f.imm.toNat % 64
  match f.imm.toNat / 64 with
  | 0 => shl64 a n
  | 1 => shr64 a n
  | _ => sra64 a n) s

/-- SCMP EQ (R252) -/
def execScmpEq (p : Proc) (f : FmtC) (s : State) : Out := scmpOp p f (fun a b => a == b) s

/-- SCMP NE (R252) -/
def execScmpNe (p : Proc) (f : FmtC) (s : State) : Out := scmpOp p f (fun a b => a != b) s

/-- SCMP LT (R252) -/
def execScmpLt (p : Proc) (f : FmtC) (s : State) : Out := scmpOp p f (fun a b => cmpI a b) s

/-- SCMP GE (R252) -/
def execScmpGe (p : Proc) (f : FmtC) (s : State) : Out := scmpOp p f (fun a b => !cmpI a b) s

/-- SCMP LTU (R252) -/
def execScmpLtu (p : Proc) (f : FmtC) (s : State) : Out := scmpOp p f (fun a b => decide (a < b)) s

/-- SCMP GEU (R252) -/
def execScmpGeu (p : Proc) (f : FmtC) (s : State) : Out := scmpOp p f (fun a b => decide (b ≤ a)) s

/-- SFCMP FEQ (R252) -/
def execFeq (p : Proc) (f : FmtC) (s : State) : Out := scmpOp p f (fun a b => Sys2Proof.Machine.feq f64 a b) s

/-- SFCMP FLT (R252) -/
def execFlt (p : Proc) (f : FmtC) (s : State) : Out := scmpOp p f (fun a b => Sys2Proof.Machine.flt f64 a b) s

/-- SFCMP FLE (R252) -/
def execFle (p : Proc) (f : FmtC) (s : State) : Out := scmpOp p f (fun a b => Sys2Proof.Machine.fle f64 a b) s

/-- FADD (R253) -/
def execFadd (p : Proc) (f : FmtR) (s : State) : Out := scalar2 p f (fun a b => fadd f64 .near a b) s

/-- FSUB (R253) -/
def execFsub (p : Proc) (f : FmtR) (s : State) : Out := scalar2 p f (fun a b => fsub f64 .near a b) s

/-- FMUL (R253) -/
def execFmul (p : Proc) (f : FmtR) (s : State) : Out := scalar2 p f (fun a b => fmul f64 .near a b) s

/-- FDIV (R253) -/
def execFdiv (p : Proc) (f : FmtR) (s : State) : Out := scalar2 p f (fun a b => fdiv f64 .near a b) s

/-- FMIN (R253) -/
def execFmin (p : Proc) (f : FmtR) (s : State) : Out := scalar2 p f (fun a b => fmin f64 a b) s

/-- FMAX (R253) -/
def execFmax (p : Proc) (f : FmtR) (s : State) : Out := scalar2 p f (fun a b => fmax f64 a b) s

/-- FSQRT (R253) -/
def execFsqrt (p : Proc) (f : FmtR) (s : State) : Out := scalar1 p f (true) (fun a => fsqrt f64 .near a) s

/-- FCVTDL (R253) -/
def execFcvtdl (p : Proc) (f : FmtR) (s : State) : Out := scalar1 p f (true) (fun a => fofInt f64 (s64 a)) s

/-- FCVTLD (R253) -/
def execFcvtld (p : Proc) (f : FmtR) (s : State) : Out := scalar1 p f (true) (fun a => toU 64 (ftoInt f64 64 a)) s

/-- FCVTDS (R253) -/
def execFcvtds (p : Proc) (f : FmtR) (s : State) : Out := scalar1 p f (true) (fun a => fcvt f32 f64 .near (a % 2 ^ 32)) s

/-- FCVTSD (R253) -/
def execFcvtsd (p : Proc) (f : FmtR) (s : State) : Out := scalar1 p f (true) (fun a => fcvt f64 f32 .near a) s

/-- LI and LIH (R254). -/
def liOp (p : Proc) (f : FmtX) (g : Nat → Nat) (s : State) : Out :=
  regsOnly p { size := 8, legal := f.a == 0 && f.b == 0, sregs := [f.d.toNat] } s
    (fun x => if x.kGet f.kg.toNat 0 = kT then x.sSet f.d.toNat (g (x.sGet f.d.toNat)) else x)

/-- LI (R254) -/
def execLi (p : Proc) (f : FmtX) (s : State) : Out := liOp p f (fun _ => toU 64 f.imm32.toInt) s

/-- LIH (R254) -/
def execLih (p : Proc) (f : FmtX) (s : State) : Out := liOp p f (fun d => f.imm32.toNat * 2 ^ 32 + d % 2 ^ 32) s

/-- LDB (R255) -/
def execLdb (p : Proc) (f : FmtM) (s : State) : Out := loadOp p f 1 s

/-- LDH (R255) -/
def execLdh (p : Proc) (f : FmtM) (s : State) : Out := loadOp p f 2 s

/-- LDW (R255) -/
def execLdw (p : Proc) (f : FmtM) (s : State) : Out := loadOp p f 4 s

/-- LDD (R255) -/
def execLdd (p : Proc) (f : FmtM) (s : State) : Out := loadOp p f 8 s

/-- STB (R255) -/
def execStb (p : Proc) (f : FmtM) (s : State) : Out := storeOp p f 1 s

/-- STH (R255) -/
def execSth (p : Proc) (f : FmtM) (s : State) : Out := storeOp p f 2 s

/-- STW (R255) -/
def execStw (p : Proc) (f : FmtM) (s : State) : Out := storeOp p f 4 s

/-- STD (R255) -/
def execStd (p : Proc) (f : FmtM) (s : State) : Out := storeOp p f 8 s

/-- KLD (R256): one byte, element i in bits [2i+1:2i]; the destination follows R208. -/
def execKld (p : Proc) (f : FmtM) (s : State) : Out :=
  issue p { legal := decide (f.d.toNat < 8), sregs := [f.a.toNat] } s fun s x =>
    access p s (addrM x f 1) 1 1 false false fun sp => withRead s p 1 (addrM x f 1) sp fun s bs =>
      advance (onProc s p (fun x => x.kWrite p f.d.toNat f.kg.toNat (fun e => kRead (bs.getD 0 0 / 4 ^ e)))) p 4

/-- KST (R256): a core's byte has free bits where the profile has no elements (log 19). -/
def execKst (p : Proc) (f : FmtM) (s : State) : Out :=
  issue p { legal := decide (f.d.toNat < 8), sregs := [f.a.toNat] } s fun s x =>
    if x.kGet f.kg.toNat 0 ≠ kT then advance s p 4
    else access p s (addrM x f 1) 1 1 true false fun sp =>
      let r := f.d.toNat
      if isLane p then
        let b := x.kGet r 0 + 4 * x.kGet r 1 + 16 * x.kGet r 2 + 64 * x.kGet r 3
        advance (spaceWrite s [b] sp) p 4
      else
        let (s, hi) := fresh s 64
        advance (spaceWrite s [x.kGet r 0 + 4 * hi] sp) p 4

/-! Control flow (R257, R258). -/

/-- Go to an address. -/
def jump (x : ProcS) (a : Nat) : ProcS := { x with pc := a % 2 ^ 64 }

/-- The address `n` words on. -/
def wordsOn (pc : Nat) (n : Int) : Nat := toU 64 ((pc : Int) + 4 * n)

/-- BR (R257) -/
def execBr (p : Proc) (f : FmtB) (s : State) : Out :=
  let c := f.cond.toNat
  issue p { legal := decide (c < 6) || (decide (c = 6) && f.kn == 0) } s fun s x =>
    if condMet c (x.kAll p f.kn.toNat) then setProc s p (jump x (wordsOn x.pc f.ofs.toInt)) else advance s p 4

/-- CALL (R258) -/
def execCall (p : Proc) (ofs : BitVec 26) (s : State) : Out :=
  issue p { sregs := [31] } s fun s x => setProc s p (jump (x.sSet 31 (x.pc + 4)) (wordsOn x.pc ofs.toInt))

/-- JMPR (R258): FUNC 0x00 links nothing, 0x01 links to D. -/
def execJmpr (p : Proc) (f : FmtR) (link : BitVec 8) (s : State) : Out :=
  issue p { legal := f.kg == 0 && (link == 1 || (link == 0 && f.d == 0)), sregs := [f.d.toNat, f.a.toNat, f.b.toNat] } s fun s x =>
    let t := x.sGet f.a.toNat + x.sGet f.b.toNat
    setProc s p (jump (if link = 1 then x.sSet f.d.toNat (x.pc + 4) else x) t)

/-! Predicate logic (R260). -/

/-- Elements of KA folded, as a lane has four and a core one. -/
def kFold (x : ProcS) (p : Proc) (r : Nat) (f : Nat → Nat → Nat) (z : Nat) : Nat := ((elems p).map (x.kGet r)).foldl f z

/-- KAND (R260) -/
def execKand (p : Proc) (f : FmtP) (s : State) : Out :=
  plogOp p f (f.imm == 0) (fun x e => kAnd (x.kGet f.ka.toNat e) (x.kGet f.kb.toNat e)) s

/-- KOR (R260) -/
def execKor (p : Proc) (f : FmtP) (s : State) : Out :=
  plogOp p f (f.imm == 0) (fun x e => kOr (x.kGet f.ka.toNat e) (x.kGet f.kb.toNat e)) s

/-- KNOT (R260) -/
def execKnot (p : Proc) (f : FmtP) (s : State) : Out :=
  plogOp p f (f.imm == 0 && f.kb == 0) (fun x e => kNot (x.kGet f.ka.toNat e)) s

/-- KANDN (R260) -/
def execKandn (p : Proc) (f : FmtP) (s : State) : Out :=
  plogOp p f (f.imm == 0) (fun x e => kAnd (x.kGet f.ka.toNat e) (kNot (x.kGet f.kb.toNat e))) s

/-- KMOV (R260) -/
def execKmov (p : Proc) (f : FmtP) (s : State) : Out :=
  plogOp p f (f.imm == 0) (fun x e => x.kGet f.ka.toNat e) s

/-- KSET (R260): a code 0b11 is written as 0b10. -/
def execKset (p : Proc) (f : FmtP) (s : State) : Out := plogOp p f true (fun _ e => kRead (f.imm.toNat / 4 ^ e)) s

/-- KALL (R260) -/
def execKall (p : Proc) (f : FmtP) (s : State) : Out :=
  plogOp p f (f.imm == 0) (fun x _ => kFold x p f.ka.toNat kAnd kT) s

/-- KANY (R260) -/
def execKany (p : Proc) (f : FmtP) (s : State) : Out :=
  plogOp p f (f.imm == 0) (fun x _ => kFold x p f.ka.toNat kOr kF) s

/-- KSPLAT (R260) -/
def execKsplat (p : Proc) (f : FmtP) (s : State) : Out :=
  plogOp p f (decide (f.imm.toNat < 4)) (fun x e => x.kGet f.ka.toNat (if isLane p then f.imm.toNat % 4 else e)) s

end Sys2Proof.Machine
end

