-- ==== Sys2Proof/Machine/SueskSystem.lean ====
section
/-! DEFINITION. Results, chute items, alarm requests and the system instructions of Suesk (08_suesk_instructions.md R272 to R279). -/

namespace Sys2Proof.Machine

/-- The invocation of a lane's work item, and the item's index. -/
def procInv (s : State) (x : ProcS) : Option (Inv × Nat) :=
  match x.item with
  | some (id, i) => (invOf s id).map (fun v => (v, i))
  | none => none

/-- Does the work item end, by an exception or a budget cut, in the cycle in which its instruction would retire? The end goes first, and the instruction
has no effect (R274): the cycle limit, the budget, or the retirement of its blank by the opening that is due. -/
def endsNow (s : State) (p : Proc) (x : ProcS) : Bool :=
  match p, procInv s x with
  | .lane l, some (v, _) =>
    cyclesDue s v l || budgetDue s v || (match blankOf s v.epoch with | some b => !v.quiet && retireDue s b | none => false)
  | _, _ => false

/-- RES (R272): it retires once older gathers have completed (R274). -/
def execRes (p : Proc) (f : FmtR) (s : State) : Out :=
  issue p { prof := .vector, drained := true } s fun s x =>
    if endsNow s p x then s
    else if x.kGet f.kg.toNat 0 ≠ kT then advance s p 4
    else
      let a := x.sGet f.a.toNat
      let n := x.sGet f.b.toNat
      if a % 8 ≠ 0 ∨ n % 8 ≠ 0 then raiseExc s p 3 0 a
      else if 224 < n then raiseExc s p 4 0 a
      else
        match (if n = 0 then some (Space.scratch 0 0) else spaceOf s p a n false false), procInv s x with
        | some sp, some (v, i) => withRead s p n a sp fun s bs => advance (writeRes s v i (x.sGet f.d.toNat) 0 bs).1 p 4
        | _, _ => raiseExc s p 4 0 a

/-- 64-bit little-endian words of a list of bytes. -/
def dwords (bs : List Nat) : Nat → List Nat
  | 0 => []
  | k + 1 => ofLe (bs.take 8) :: dwords (bs.drop 8) k

/-- CHUT (R273): D receives 1 where the chute took the item. The low byte of its CODE is free (log 20). In a re-run for the twin nothing is
pushed, and D is free (16 R470, log 24). -/
def execChut (p : Proc) (f : FmtR) (s : State) : Out :=
  issue p { prof := .vector, drained := true } s fun s x =>
    if endsNow s p x then s
    else if x.kGet f.kg.toNat 0 ≠ kT then advance s p 4
    else
      let a := x.sGet f.a.toNat
      let n := x.sGet f.b.toNat
      if a % 8 ≠ 0 then raiseExc s p 3 0 a
      else if n = 0 ∨ 8 < n then raiseExc s p 4 0 a
      else
        match spaceOf s p a (8 * n) false false, procInv s x with
        | some sp, some (v, _) => withRead s p (8 * n) a sp fun s bs =>
          if v.quiet then
            let (s, d) := fresh s 2
            advance (onProc s p (fun x => x.sSet f.d.toNat d)) p 4
          else
          let (s, tag) := fresh s 256
          let req : ItemReq := ⟨1, v.entry, v.prov, 0x0100 + tag, ktPrio v.words, nowNs s, dwords bs n⟩
          let lane := match p with | .lane l => l.val | .core _ => 32
          let (s, ok) := pushTo s (ktChute v.words) req (some ⟨lane, x.item, f.d.toNat⟩)
          advance (onProc s p (fun x => x.sSet f.d.toNat (b2n ok))) p 4
        | _, _ => raiseExc s p 4 0 a

/-- ALRM (R231, R274) -/
def execAlrm (p : Proc) (f : FmtA) (s : State) : Out :=
  issue p { prof := .vector, legal := f.z == 0, drained := true } s fun s x =>
    let line := f.line.toNat
    match procInv s x with
    | some (v, _) =>
      if endsNow s p x then s
      else if v.quiet ∨ x.kGet f.kn.toNat f.el.toNat ≠ kT then advance s p 4
      else if bitOf (ktAlarms v.words) line then advance (kernelAlarm (inc s Reg.SSK_ALARM_REQ) v line) p 4
      else advance (inc s Reg.SSK_ALARM_DENIED) p 4
    | none => advance s p 4

/-- A SYS function without registers: governed by KG (R245). -/
def sysOp (p : Proc) (prof : Profile) (f : FmtR) (legal drained : Bool) (s : State) (g : State → ProcS → State) : Out :=
  issue p { prof := prof, legal := legal, drained := drained } s fun s x =>
    if x.kGet f.kg.toNat 0 = kT then g s x else advance s p 4

/-- Are the register fields of a SYS function zero? -/
def noRegs (f : FmtR) : Bool := f.d == 0 && f.a == 0 && f.b == 0

/-- END (R275) -/
def execEndOp (p : Proc) (f : FmtR) (s : State) : Out :=
  sysOp p .vector f (noRegs f) true s fun s _ => match p with | .lane l => endWork s l | .core _ => s

/-- TRAP (R275): its argument lies in bits [25:18]. -/
def execTrap (p : Proc) (f : FmtR) (s : State) : Out :=
  sysOp p .both f (f.b == 0 && f.a.toNat % 4 == 0) false s fun s _ => raiseExc s p 10 (f.d.toNat * 8 + f.a.toNat / 4) 0

/-- DRAIN (R275): every other access of the model has completed when its command ends. -/
def execDrain (p : Proc) (f : FmtR) (s : State) : Out :=
  sysOp p .both f (noRegs f) true s fun s _ => advance s p 4

/-- Core cycles since the work item started or the core left reset, two a fabric cycle. -/
def procCycles (s : State) (x : ProcS) : Nat := 2 * (s.cycle - x.start)

/-- TICKS (R275) -/
def execTicks (p : Proc) (f : FmtR) (s : State) : Out :=
  scalarFrom p f (f.a == 0 && f.b == 0) [] (procCycles s) s

/-- NOP (R275) -/
def execNop (p : Proc) (f : FmtR) (s : State) : Out :=
  sysOp p .both f (noRegs f) false s fun s _ => advance s p 4

/-! System registers of a management core (R277). -/

/-- The conditions that WAKE_PEND shows. -/
def wakePend (s : State) (x : ProcS) : Nat :=
  ((List.range 4).map (fun n => if (chuteOf s n).items.isEmpty then 0 else 2 ^ n)).sum
    + 16 * b2n (rd s Reg.TIME_CMP_FIRED_LO != 0 || rd s Reg.TIME_CMP_FIRED_HI != 0) + 32 * b2n x.sig

/-- Read a system register. -/
def srRead (s : State) (c : Nat) (x : ProcS) (n : Nat) : Nat :=
  match n with
  | 0x000 => x.fltEntry
  | 0x001 => x.fltPc
  | 0x002 => x.fltCode
  | 0x003 => x.fltAddr
  | 0x004 => x.fltScratch
  | 0x010 => c
  | 0x011 => procCycles s x
  | 0x020 => x.wakeEn
  | 0x021 => wakePend s x
  | _ => 0

/-- Raise the signal of the cores of a mask. -/
def signalCores (s : State) (m : Nat) : State :=
  { s with ssk := { s.ssk with cores := s.ssk.cores.zipIdx.map (fun (x, i) => if bitOf m i then { x with sig := true } else x) } }

/-- SRGET (R275, R277): a read of WAKE_PEND clears its bit 5. -/
def execSrget (p : Proc) (f : FmtR) (s : State) : Out :=
  sysOp p .scalar f true false s fun s x =>
    let n := f.a.toNat * 32 + f.b.toNat
    let c := match p with | .lane l => l.val | .core c => c.val
    let y := x.sSet f.d.toNat (srRead s c x n)
    advance (setProc s p (if n = 0x021 then { y with sig := false } else y)) p 4

/-- SRPUT (R275, R277): a number that is not listed is ILLEGAL; a read-only one keeps its value. -/
def execSrput (p : Proc) (f : FmtR) (s : State) : Out :=
  let n := f.a.toNat * 32 + f.b.toNat
  let known := [0x000, 0x001, 0x002, 0x003, 0x004, 0x010, 0x011, 0x020, 0x021, 0x022, 0x030].contains n
  sysOp p .scalar f known false s fun s x =>
    let v := x.sGet f.d.toNat
    match n with
    | 0x000 => advance (setProc s p { x with fltEntry := v }) p 4
    | 0x001 => advance (setProc s p { x with fltPc := v }) p 4
    | 0x004 => advance (setProc s p { x with fltScratch := v }) p 4
    | 0x020 => advance (setProc s p { x with wakeEn := v % 64 }) p 4
    | 0x022 => advance (signalCores s v) p 4
    | 0x030 => advance (setProc s p { x with wdogAt := s.cycle }) p 4
    | _ => advance s p 4

/-- RESUME (R275, R278) -/
def execResume (p : Proc) (f : FmtR) (s : State) : Out :=
  sysOp p .scalar f (noRegs f) false s fun s x => setProc s p { x with pc := x.fltPc, fault := false }

/-- DOZE (R279): it completes at once where a wake condition holds, else the core stalls. -/
def execDoze (p : Proc) (f : FmtR) (s : State) : Out :=
  sysOp p .scalar f (noRegs f) false s fun s x =>
    if (wakePend s x &&& x.wakeEn) ≠ 0 then advance s p 4 else setProc s p { x with dozing := true }

/-- DOZE_WAKE (R279): an enabled wake condition completes the DOZE. -/
def execDozeWake (core : Fin 4) (s : State) : Out :=
  let x := procOf s (.core core)
  if x.dozing ∧ (wakePend s x &&& x.wakeEn) ≠ 0 then .next (advance (setProc s (.core core) { x with dozing := false }) (.core core) 4)
  else .next s

end Sys2Proof.Machine
end

