-- ==== Sys2Proof/Machine/SueskVector.lean ====
section
/-! DEFINITION. The vector instructions of Suesk (08_suesk_instructions.md R256, R261 to R271). -/

namespace Sys2Proof.Machine

/-- The 12 bytes of an element (R212). -/
def elBytes (e : VEl) : List Nat := leBytes 4 e.re ++ leBytes 4 e.im ++ leBytes 4 e.env

/-- An element as a register takes it: one that stands for every value in the canonical pattern (R248). -/
def VEl.canon (x : VEl) : VEl := if x.isEvery then .every else x

/-- The element that 12 bytes spell: EVERY where the envelope is negative or no number (R256). -/
def elOf (bs : List Nat) : VEl :=
  let re := ofLe (bs.take 4)
  let im := ofLe ((bs.drop 4).take 4)
  let env := ofLe ((bs.drop 8).take 4)
  if isNaN f32 env || flt f32 env 0 then .every else VEl.canon ⟨re, im, fabs f32 env⟩

/-- VLD (R256) -/
def execVld (p : Proc) (f : FmtM) (s : State) : Out :=
  issue p { prof := .vector, sregs := [f.a.toNat], vregs := [f.d.toNat] } s fun s x =>
    access p s (addrM x f 16) 48 16 false false fun sp => withRead s p 48 (addrM x f 16) sp fun s bs =>
      advance (onProc s p (fun x => x.vWrite f.d.toNat f.kg.toNat discHull (fun e => elOf (bs.drop (12 * e))))) p 4

/-- The place of an element of a stored vector. -/
def Space.plus (n : Nat) : Space → Space
  | .scratch l a => .scratch l (a + n)
  | .core c a => .core c (a + n)
  | .hist a => .hist (a + n)
  | .chuck k a => .chuck k (a + n)
  | .rom a => .rom (a + n)
  | .dev a => .dev (a + n)

/-- VST (R256): each memory element is the destination of R208. -/
def execVst (p : Proc) (f : FmtM) (s : State) : Out :=
  issue p { prof := .vector, sregs := [f.a.toNat], vregs := [f.d.toNat] } s fun s x =>
    access p s (addrM x f 16) 48 16 true false fun sp =>
      let st := [0, 1, 2, 3].foldl (fun s e =>
        let g := x.kGet f.kg.toNat e
        let v := x.vGet f.d.toNat e
        let sp := sp.plus (12 * e)
        if g = kF then s
        else if g = kT then spaceWrite s (elBytes v) sp
        else spaceWrite s (elBytes (discHull (elOf (spaceRead s 12 sp).2) v)) sp) s
      let bad := [0, 1, 2, 3].find? (fun e => x.kGet f.kg.toNat e == kU && (ueIn s 12 (sp.plus (12 * e))).isSome)
      match bad with
      | some e => withRead s p 12 (addrM x f 16 + 12 * e) (sp.plus (12 * e)) (fun s _ => s)
      | none => advance st p 4

/-- VADD (R261) -/
def execVadd (p : Proc) (f : FmtR) (s : State) : Out := valu2 p f discHull elAdd s

/-- VSUB (R261) -/
def execVsub (p : Proc) (f : FmtR) (s : State) : Out := valu2 p f discHull elSub s

/-- VMUL (R261) -/
def execVmul (p : Proc) (f : FmtR) (s : State) : Out := valu2 p f discHull elMul s

/-- VMULC (R261) -/
def execVmulc (p : Proc) (f : FmtR) (s : State) : Out := valu2 p f discHull elMulc s

/-- VDIV (R261) -/
def execVdiv (p : Proc) (f : FmtR) (s : State) : Out := valu2 p f discHull elDiv s

/-- VCONJ (R261) -/
def execVconj (p : Proc) (f : FmtR) (s : State) : Out := valu1 p f discHull elConj s

/-- VNEG (R261) -/
def execVneg (p : Proc) (f : FmtR) (s : State) : Out := valu1 p f discHull elNeg s

/-- VSCL (R261) -/
def execVscl (p : Proc) (f : FmtR) (s : State) : Out := valuS p f elScl s

/-- VROT (R261) -/
def execVrot (p : Proc) (f : FmtR) (s : State) : Out := valu2 p f discHull elRot s

/-- VABS (R261) -/
def execVabs (p : Proc) (f : FmtR) (s : State) : Out := valu1 p f intHull elAbs s

/-- VSQR (R261) -/
def execVsqr (p : Proc) (f : FmtR) (s : State) : Out := valu1 p f intHull elSqr s

/-- VARG (R261) -/
def execVarg (p : Proc) (f : FmtR) (s : State) : Out := valu1 p f intHull elArg s

/-- VARGD (R261) -/
def execVargd (p : Proc) (f : FmtR) (s : State) : Out := valu2 p f intHull elArgd s

/-- VPOLAR (R261) -/
def execVpolar (p : Proc) (f : FmtR) (s : State) : Out := valu2 p f discHull elPolar s

/-- VCPLX (R261) -/
def execVcplx (p : Proc) (f : FmtR) (s : State) : Out := valu2 p f discHull elCplx s

/-- VRE (R261) -/
def execVre (p : Proc) (f : FmtR) (s : State) : Out := valu1 p f intHull elRe s

/-- VIM (R261) -/
def execVim (p : Proc) (f : FmtR) (s : State) : Out := valu1 p f intHull elIm s

/-- VHULL (R261) -/
def execVhull (p : Proc) (f : FmtR) (s : State) : Out := valu2 p f discHull elHull s

/-- VWIDEN (R261) -/
def execVwiden (p : Proc) (f : FmtR) (s : State) : Out := valuS p f elWiden s

/-- VRADD (R261) -/
def execVradd (p : Proc) (f : FmtR) (s : State) : Out := valu2 p f intHull elRadd s

/-- VRSUB (R261) -/
def execVrsub (p : Proc) (f : FmtR) (s : State) : Out := valu2 p f intHull elRsub s

/-- VRMUL (R261) -/
def execVrmul (p : Proc) (f : FmtR) (s : State) : Out := valu2 p f intHull elRmul s

/-- VRDIV (R261) -/
def execVrdiv (p : Proc) (f : FmtR) (s : State) : Out := valu2 p f intHull elRdiv s

/-- VRSQRT (R261) -/
def execVrsqrt (p : Proc) (f : FmtR) (s : State) : Out := valu1 p f intHull elRsqrt s

/-- VRMIN (R261) -/
def execVrmin (p : Proc) (f : FmtR) (s : State) : Out := valu2 p f intHull elRmin s

/-- VRMAX (R261) -/
def execVrmax (p : Proc) (f : FmtR) (s : State) : Out := valu2 p f intHull elRmax s

/-- VRSIN (R261) -/
def execVrsin (p : Proc) (f : FmtR) (s : State) : Out := valu1 p f intHull elRsin s

/-- VRCOS (R261) -/
def execVrcos (p : Proc) (f : FmtR) (s : State) : Out := valu1 p f intHull elRcos s

/-- VRHULL (R261) -/
def execVrhull (p : Proc) (f : FmtR) (s : State) : Out := valu2 p f intHull intHull s

/-- VRABS (R261) -/
def execVrabs (p : Proc) (f : FmtR) (s : State) : Out := valu1 p f intHull elRabs s

/-- VCMP GT (R266) -/
def execVcmpGt (p : Proc) (f : FmtC) (s : State) : Out := vcmpOp p f 0 s

/-- VCMP GE (R266) -/
def execVcmpGe (p : Proc) (f : FmtC) (s : State) : Out := vcmpOp p f 1 s

/-- VCMP LT (R266) -/
def execVcmpLt (p : Proc) (f : FmtC) (s : State) : Out := vcmpOp p f 2 s

/-- VCMP LE (R266) -/
def execVcmpLe (p : Proc) (f : FmtC) (s : State) : Out := vcmpOp p f 3 s

/-- VCMP EQ (R266) -/
def execVcmpEq (p : Proc) (f : FmtC) (s : State) : Out := vcmpOp p f 4 s

/-- VCMP NE (R266) -/
def execVcmpNe (p : Proc) (f : FmtC) (s : State) : Out := vcmpOp p f 5 s

/-! The VMOVE group (R264) and VSPLATI (R265). -/

/-- VMOV (R264) -/
def execVmov (p : Proc) (f : FmtR) (s : State) : Out :=
  vectorOp p f true [] [f.a.toNat] discHull (fun x e => (x.vGet f.a.toNat e).canon) s

/-- VSPLAT (R264) -/
def execVsplat (p : Proc) (f : FmtR) (s : State) : Out :=
  vectorOp p f (decide (f.b.toNat < 4)) [] [f.a.toNat] discHull (fun x _ => (x.vGet f.a.toNat (f.b.toNat % 4)).canon) s

/-- VSEL (R264): KG selects. -/
def execVsel (p : Proc) (f : FmtR) (s : State) : Out :=
  regsOnly p { prof := .vector, vregs := [f.d.toNat, f.a.toNat, f.b.toNat] } s (fun x =>
    [0, 1, 2, 3].foldl (fun y e =>
      let g := x.kGet f.kg.toNat e
      let a := (x.vGet f.a.toNat e).canon
      let b := (x.vGet f.b.toNat e).canon
      y.vSet f.d.toNat e (if g = kT then a else if g = kF then b else discHull a b)) x)

/-- VSUMC (R264) -/
def execVsumc (p : Proc) (f : FmtR) (s : State) : Out :=
  vectorOp p f true [] [f.a.toNat] discHull (fun x _ => elSumc (x.vAll f.a.toNat)) s

/-- VRMAXR (R264) -/
def execVrmaxr (p : Proc) (f : FmtR) (s : State) : Out :=
  vectorOp p f true [] [f.a.toNat] intHull (fun x _ => elMaxr (x.vAll f.a.toNat)) s

/-- VRMINR (R264) -/
def execVrminr (p : Proc) (f : FmtR) (s : State) : Out :=
  vectorOp p f true [] [f.a.toNat] intHull (fun x _ => elMinr (x.vAll f.a.toNat)) s

/-- VFROMI (R264) -/
def execVfromi (p : Proc) (f : FmtR) (s : State) : Out :=
  vectorOp p f true [f.a.toNat] [] discHull (fun x _ => elFromi (sext 64 (x.sGet f.a.toNat))) s

/-- VFROMF (R264) -/
def execVfromf (p : Proc) (f : FmtR) (s : State) : Out :=
  vectorOp p f (f.b == 0) [f.a.toNat] [] discHull (fun x _ => elFromf (x.sGet f.a.toNat % 2 ^ 32)) s

/-- VTOS (R264): B[3:2] names the part. -/
def execVtos (p : Proc) (f : FmtR) (s : State) : Out :=
  let b := f.b.toNat
  regsOnly p { prof := .vector, legal := decide (b < 12), sregs := [f.d.toNat], vregs := [f.a.toNat] } s (fun x =>
    let e := x.vGet f.a.toNat (b % 4)
    if x.kGet f.kg.toNat 0 = kT then x.sSet f.d.toNat (if b / 4 = 0 then e.re else if b / 4 = 1 then e.im else e.env) else x)

/-- VINS (R264) -/
def execVins (p : Proc) (f : FmtR) (s : State) : Out :=
  vectorOp p f (decide (f.b.toNat < 4)) [] [f.a.toNat] discHull
    (fun x e => if e = f.b.toNat then (x.vGet f.a.toNat 0).canon else x.vGet f.d.toNat e) s

/-- VSPLATI (R265) -/
def execVsplati (p : Proc) (f : FmtX) (s : State) : Out :=
  regsOnly p { prof := .vector, size := 8, vregs := [f.d.toNat] } s
    (fun x => x.vWrite f.d.toNat f.kg.toNat discHull (fun _ => elFromf f.imm32.toNat))

/-! Gathers (R267, R271). -/

/-- A lane puts a gather among those outstanding. -/
def gathIssue (s : State) (p : Proc) (g : Gath) : State := advance (onProc s p (fun x => { x with gath := x.gath ++ [g] })) p 4

/-- The blank of the work item's invocation. -/
def procEpoch (s : State) (x : ProcS) : Nat :=
  match x.item with
  | some (id, _) => (match invOf s id with | some v => v.epoch | none => 0)
  | none => 0

/-- A gather of a blank before index 0 finds none: an index no ring slot holds. -/
def noEpoch : Nat := 2 ^ 64

/-- May one more gather be outstanding? A ninth stalls (R269). -/
def gathRoom (x : ProcS) : Bool := decide (x.gath.length < 8)

/-- The places of the words of a LIST gather that its governed elements need; none where one lies outside scratch and the chuck. -/
def listSpaces (s : State) (p : Proc) (b : Nat) (es : List Nat) : Option (List (Nat × Space)) :=
  es.mapM (fun e =>
    match spaceOf s p ((b + 4 * e) % 2 ^ 64) 4 false false with
    | some (.hist _) => none
    | some sp => some (e, sp)
    | none => none)

/-- Those words, or one that holds an uncorrectable error. -/
def listWords (s : State) (p : Proc) (b : Nat) (es : List Nat) : Option (List (Nat × Nat) ⊕ (Nat × Nat × Nat)) :=
  (listSpaces s p b es).map (fun l =>
    match l.findSome? (fun x => ueIn s 4 x.2) with
    | some u => .inr u
    | none => .inl (l.map (fun x => (x.1, ofLe (spaceRead s 4 x.2).2))))

/-- GTH (R267) -/
def execGth (p : Proc) (f : FmtG) (s : State) : Out :=
  let m := f.mode.toNat
  issue p { prof := .vector, legal := decide (m ≤ 2), sregs := [f.a.toNat, f.b.toNat], vregs := [f.d.toNat] } s fun s x =>
    if !gathRoom x then s
    else
      let a := sext 64 (x.sGet f.a.toNat)
      let b := x.sGet f.b.toNat
      let gs := [0, 1, 2, 3].map (x.kGet f.kg.toNat)
      let act := [0, 1, 2, 3].filter (fun e => gs.getD e 0 != kF)
      if m = 2 ∧ b % 4 ≠ 0 then raiseExc s p 3 0 b
      else
        match (if m = 2 then listWords s p b act else some (.inl [])) with
        | none => raiseExc s p 4 0 b
        | some (.inr u) => raiseExc (eccUe s u.1 0 u.2.2) p 9 0 b
        | some (.inl ws) =>
          let idx (e : Nat) : Int :=
            if m = 0 then a + e
            else if m = 1 then a + e * sext 64 b
            else a + (((ws.find? (fun w => w.1 == e)).map (·.2)).getD 0 : Nat)
          if act.any (fun e => decide (idx e < 0) || decide (196607 < idx e)) then raiseExc s p 5 0 0
          else
            let k := (gathEpoch (procEpoch s x) f.dist.toNat).getD noEpoch
            gathIssue s p ⟨false, f.d.toNat, k, gs.zipIdx.map (fun (g, e) => (g, (idx e).toNat))⟩

/-- GFL (R271) -/
def execGfl (p : Proc) (f : FmtG) (s : State) : Out :=
  issue p { prof := .vector, legal := f.b == 0 && f.mode == 0, sregs := [f.a.toNat, f.d.toNat] } s fun s x =>
    if x.kGet f.kg.toNat 0 ≠ kT then advance s p 4
    else if !gathRoom x then s
    else
      let a := sext 64 (x.sGet f.a.toNat)
      if a < 0 ∨ 196607 < a then raiseExc s p 5 0 0
      else gathIssue s p ⟨true, f.d.toNat, (gathEpoch (procEpoch s x) f.dist.toNat).getD noEpoch, [(kT, a.toNat)]⟩

end Sys2Proof.Machine
end

