-- ==== Sys2Proof/Machine/Dispatch.lean ====
section
/-! DEFINITION. The meaning of each command, one arm per row of spec/opcode_table.json. -/

namespace Sys2Proof.Machine

/-- The effect of a command on everything but the queue of waiting commands. -/
def exec (i : Instr) (s : State) : Host.Outcome State Fault Refusal :=
  match i with
  | .resetRelease lowNs twinPri => Sys2Proof.Machine.execResetRelease lowNs twinPri s
  | .perstReset lowNs => Sys2Proof.Machine.execPerstReset lowNs s
  | .ref25Loss ns => Sys2Proof.Machine.execRef25Loss ns s
  | .bootExit romOk => Sys2Proof.Machine.execBootExit romOk s
  | .logScanComplete => Sys2Proof.Machine.execLogScanComplete s
  | .entropyHealthFail => Sys2Proof.Machine.execEntropyHealthFail s
  | .pwrFailFall => Sys2Proof.Machine.execPwrFailFall s
  | .lastGaspEntry => Sys2Proof.Machine.execLastGaspEntry s
  | .lastGaspDomainOff => Sys2Proof.Machine.execLastGaspDomainOff s
  | .lastGaspReset => Sys2Proof.Machine.execLastGaspReset s
  | .vholdLow mV => Sys2Proof.Machine.execVholdLow mV s
  | .tamperAssert lowNs => Sys2Proof.Machine.execTamperAssert lowNs s
  | .watchdogExpiry core => Sys2Proof.Machine.execWatchdogExpiry core s
  | .registerWrite off v be => Sys2Proof.Machine.execRegisterWrite off v be s
  | .decodeErrorAccess off write v be => Sys2Proof.Machine.execDecodeErrorAccess off write v be s
  | .rcCounterRead off be => Sys2Proof.Machine.execRcCounterRead off be s
  | .wideLowRead off be => Sys2Proof.Machine.execWideLowRead off be s
  | .timeNowRead be => Sys2Proof.Machine.execTimeNowRead be s
  | .blankStateRead be => Sys2Proof.Machine.execBlankStateRead be s
  | .windowRead win v => Sys2Proof.Machine.execWindowRead win v s
  | .windowWrite win v => Sys2Proof.Machine.execWindowWrite win v s
  | .windowAincRead win => Sys2Proof.Machine.execWindowAincRead win s
  | .windowAincWrite win v => Sys2Proof.Machine.execWindowAincWrite win v s
  | .windowOpComplete win => Sys2Proof.Machine.execWindowOpComplete win s
  | .txnBegin persist => Sys2Proof.Machine.execTxnBegin persist s
  | .txnPrepare persist => Sys2Proof.Machine.execTxnPrepare persist s
  | .txnAbort persist => Sys2Proof.Machine.execTxnAbort persist s
  | .txnValidationComplete => Sys2Proof.Machine.execTxnValidationComplete s
  | .oosLaneWrite v => Sys2Proof.Machine.execOosLaneWrite v s
  | .oosUnitWrite v => Sys2Proof.Machine.execOosUnitWrite v s
  | .addendCommit v => Sys2Proof.Machine.execAddendCommit v s
  | .timeStep v => Sys2Proof.Machine.execTimeStep v s
  | .timeForceStep v => Sys2Proof.Machine.execTimeForceStep v s
  | .timeDeclareSync v => Sys2Proof.Machine.execTimeDeclareSync v s
  | .timeEndHoldover v => Sys2Proof.Machine.execTimeEndHoldover v s
  | .timeForceUnlockWrite v => Sys2Proof.Machine.execTimeForceUnlockWrite v s
  | .leapApply => Sys2Proof.Machine.execLeapApply s
  | .holdoverEntry => Sys2Proof.Machine.execHoldoverEntry s
  | .ptpFrameReceive port msg within => Sys2Proof.Machine.execPtpFrameReceive port msg within s
  | .txtsPop port => Sys2Proof.Machine.execTxtsPop port s
  | .irigFrame f => Sys2Proof.Machine.execIrigFrame f s
  | .ppsInEdge => Sys2Proof.Machine.execPpsInEdge s
  | .ppsOutPulse => Sys2Proof.Machine.execPpsOutPulse s
  | .ref10mMeasure edges => Sys2Proof.Machine.execRef10mMeasure edges s
  | .ref10mLoss => Sys2Proof.Machine.execRef10mLoss s
  | .cmpFireTime slot => Sys2Proof.Machine.execCmpFireTime slot s
  | .cmpPhaseArm slot => Sys2Proof.Machine.execCmpPhaseArm slot s
  | .cmpFirePhase slot => Sys2Proof.Machine.execCmpFirePhase slot s
  | .ethCfgWrite port v => Sys2Proof.Machine.execEthCfgWrite port v s
  | .ethFrameReceive port f => Sys2Proof.Machine.execEthFrameReceive port f s
  | .internalFrameDeliver f srcIp ipv6 ageNs => Sys2Proof.Machine.execInternalFrameDeliver f srcIp ipv6 ageNs s
  | .resamplerOutput stream epoch => Sys2Proof.Machine.execResamplerOutput stream epoch s
  | .streamHealthClear v => Sys2Proof.Machine.execStreamHealthClear v s
  | .blankOpen => Sys2Proof.Machine.execBlankOpen s
  | .specFillStart epoch => Sys2Proof.Machine.execSpecFillStart epoch s
  | .specFillComplete epoch => Sys2Proof.Machine.execSpecFillComplete epoch s
  | .sealAll epoch => Sys2Proof.Machine.execSealAll epoch s
  | .sealWait epoch => Sys2Proof.Machine.execSealWait epoch s
  | .sealEvaluationEnd epoch => Sys2Proof.Machine.execSealEvaluationEnd epoch s
  | .amendmentApply epoch => Sys2Proof.Machine.execAmendmentApply epoch s
  | .amendmentEnd epoch => Sys2Proof.Machine.execAmendmentEnd epoch s
  | .sessionFinalSend session epoch => Sys2Proof.Machine.execSessionFinalSend session epoch s
  | .ethFrameTransmit port => Sys2Proof.Machine.execEthFrameTransmit port s
  | .keyCellEpochLimit session => Sys2Proof.Machine.execKeyCellEpochLimit session s
  | .spcHistClr v => Sys2Proof.Machine.execSpcHistClr v s
  | .spcChannelMissClear v => Sys2Proof.Machine.execSpcChannelMissClear v s
  | .spcFloorWrite which v => Sys2Proof.Machine.execSpcFloorWrite which v s
  | .workItemDispatch lane => Sys2Proof.Machine.execWorkItemDispatch lane s
  | .cyclesLimit lane => Sys2Proof.Machine.execCyclesLimit lane s
  | .budgetCut inv => Sys2Proof.Machine.execBudgetCut inv s
  | .gatherComplete lane which => Sys2Proof.Machine.execGatherComplete lane which s
  | .sskVerify => Sys2Proof.Machine.execSskVerify s
  | .sskVerifyComplete => Sys2Proof.Machine.execSskVerifyComplete s
  | .sskErase => Sys2Proof.Machine.execSskErase s
  | .add p f => Sys2Proof.Machine.execAdd p f s
  | .sub p f => Sys2Proof.Machine.execSub p f s
  | .mul p f => Sys2Proof.Machine.execMul p f s
  | .mulhs p f => Sys2Proof.Machine.execMulhs p f s
  | .divf p f => Sys2Proof.Machine.execDivf p f s
  | .divu p f => Sys2Proof.Machine.execDivu p f s
  | .modf p f => Sys2Proof.Machine.execModf p f s
  | .modu p f => Sys2Proof.Machine.execModu p f s
  | .andOp p f => Sys2Proof.Machine.execAndOp p f s
  | .orOp p f => Sys2Proof.Machine.execOrOp p f s
  | .xorOp p f => Sys2Proof.Machine.execXorOp p f s
  | .shl p f => Sys2Proof.Machine.execShl p f s
  | .shr p f => Sys2Proof.Machine.execShr p f s
  | .sra p f => Sys2Proof.Machine.execSra p f s
  | .minOp p f => Sys2Proof.Machine.execMinOp p f s
  | .maxOp p f => Sys2Proof.Machine.execMaxOp p f s
  | .exts32 p f => Sys2Proof.Machine.execExts32 p f s
  | .extz32 p f => Sys2Proof.Machine.execExtz32 p f s
  | .addi p f => Sys2Proof.Machine.execAddi p f s
  | .andi p f => Sys2Proof.Machine.execAndi p f s
  | .ori p f => Sys2Proof.Machine.execOri p f s
  | .xori p f => Sys2Proof.Machine.execXori p f s
  | .shi p f => Sys2Proof.Machine.execShi p f s
  | .scmpEq p f => Sys2Proof.Machine.execScmpEq p f s
  | .scmpNe p f => Sys2Proof.Machine.execScmpNe p f s
  | .scmpLt p f => Sys2Proof.Machine.execScmpLt p f s
  | .scmpGe p f => Sys2Proof.Machine.execScmpGe p f s
  | .scmpLtu p f => Sys2Proof.Machine.execScmpLtu p f s
  | .scmpGeu p f => Sys2Proof.Machine.execScmpGeu p f s
  | .feq p f => Sys2Proof.Machine.execFeq p f s
  | .flt p f => Sys2Proof.Machine.execFlt p f s
  | .fle p f => Sys2Proof.Machine.execFle p f s
  | .fadd p f => Sys2Proof.Machine.execFadd p f s
  | .fsub p f => Sys2Proof.Machine.execFsub p f s
  | .fmul p f => Sys2Proof.Machine.execFmul p f s
  | .fdiv p f => Sys2Proof.Machine.execFdiv p f s
  | .fsqrt p f => Sys2Proof.Machine.execFsqrt p f s
  | .fmin p f => Sys2Proof.Machine.execFmin p f s
  | .fmax p f => Sys2Proof.Machine.execFmax p f s
  | .fcvtdl p f => Sys2Proof.Machine.execFcvtdl p f s
  | .fcvtld p f => Sys2Proof.Machine.execFcvtld p f s
  | .fcvtds p f => Sys2Proof.Machine.execFcvtds p f s
  | .fcvtsd p f => Sys2Proof.Machine.execFcvtsd p f s
  | .li p f => Sys2Proof.Machine.execLi p f s
  | .lih p f => Sys2Proof.Machine.execLih p f s
  | .ldb p f => Sys2Proof.Machine.execLdb p f s
  | .ldh p f => Sys2Proof.Machine.execLdh p f s
  | .ldw p f => Sys2Proof.Machine.execLdw p f s
  | .ldd p f => Sys2Proof.Machine.execLdd p f s
  | .stb p f => Sys2Proof.Machine.execStb p f s
  | .sth p f => Sys2Proof.Machine.execSth p f s
  | .stw p f => Sys2Proof.Machine.execStw p f s
  | .std p f => Sys2Proof.Machine.execStd p f s
  | .vld p f => Sys2Proof.Machine.execVld p f s
  | .vst p f => Sys2Proof.Machine.execVst p f s
  | .kld p f => Sys2Proof.Machine.execKld p f s
  | .kst p f => Sys2Proof.Machine.execKst p f s
  | .br p f => Sys2Proof.Machine.execBr p f s
  | .call p ofs => Sys2Proof.Machine.execCall p ofs s
  | .jmpr p f link => Sys2Proof.Machine.execJmpr p f link s
  | .kand p f => Sys2Proof.Machine.execKand p f s
  | .kor p f => Sys2Proof.Machine.execKor p f s
  | .knot p f => Sys2Proof.Machine.execKnot p f s
  | .kandn p f => Sys2Proof.Machine.execKandn p f s
  | .kmov p f => Sys2Proof.Machine.execKmov p f s
  | .kset p f => Sys2Proof.Machine.execKset p f s
  | .kall p f => Sys2Proof.Machine.execKall p f s
  | .kany p f => Sys2Proof.Machine.execKany p f s
  | .ksplat p f => Sys2Proof.Machine.execKsplat p f s
  | .vadd p f => Sys2Proof.Machine.execVadd p f s
  | .vsub p f => Sys2Proof.Machine.execVsub p f s
  | .vmul p f => Sys2Proof.Machine.execVmul p f s
  | .vmulc p f => Sys2Proof.Machine.execVmulc p f s
  | .vdiv p f => Sys2Proof.Machine.execVdiv p f s
  | .vconj p f => Sys2Proof.Machine.execVconj p f s
  | .vneg p f => Sys2Proof.Machine.execVneg p f s
  | .vscl p f => Sys2Proof.Machine.execVscl p f s
  | .vrot p f => Sys2Proof.Machine.execVrot p f s
  | .vabs p f => Sys2Proof.Machine.execVabs p f s
  | .vsqr p f => Sys2Proof.Machine.execVsqr p f s
  | .varg p f => Sys2Proof.Machine.execVarg p f s
  | .vargd p f => Sys2Proof.Machine.execVargd p f s
  | .vpolar p f => Sys2Proof.Machine.execVpolar p f s
  | .vcplx p f => Sys2Proof.Machine.execVcplx p f s
  | .vre p f => Sys2Proof.Machine.execVre p f s
  | .vim p f => Sys2Proof.Machine.execVim p f s
  | .vhull p f => Sys2Proof.Machine.execVhull p f s
  | .vwiden p f => Sys2Proof.Machine.execVwiden p f s
  | .vradd p f => Sys2Proof.Machine.execVradd p f s
  | .vrsub p f => Sys2Proof.Machine.execVrsub p f s
  | .vrmul p f => Sys2Proof.Machine.execVrmul p f s
  | .vrdiv p f => Sys2Proof.Machine.execVrdiv p f s
  | .vrsqrt p f => Sys2Proof.Machine.execVrsqrt p f s
  | .vrmin p f => Sys2Proof.Machine.execVrmin p f s
  | .vrmax p f => Sys2Proof.Machine.execVrmax p f s
  | .vrsin p f => Sys2Proof.Machine.execVrsin p f s
  | .vrcos p f => Sys2Proof.Machine.execVrcos p f s
  | .vrhull p f => Sys2Proof.Machine.execVrhull p f s
  | .vrabs p f => Sys2Proof.Machine.execVrabs p f s
  | .vcmpGt p f => Sys2Proof.Machine.execVcmpGt p f s
  | .vcmpGe p f => Sys2Proof.Machine.execVcmpGe p f s
  | .vcmpLt p f => Sys2Proof.Machine.execVcmpLt p f s
  | .vcmpLe p f => Sys2Proof.Machine.execVcmpLe p f s
  | .vcmpEq p f => Sys2Proof.Machine.execVcmpEq p f s
  | .vcmpNe p f => Sys2Proof.Machine.execVcmpNe p f s
  | .vmov p f => Sys2Proof.Machine.execVmov p f s
  | .vsplat p f => Sys2Proof.Machine.execVsplat p f s
  | .vsel p f => Sys2Proof.Machine.execVsel p f s
  | .vsumc p f => Sys2Proof.Machine.execVsumc p f s
  | .vrmaxr p f => Sys2Proof.Machine.execVrmaxr p f s
  | .vrminr p f => Sys2Proof.Machine.execVrminr p f s
  | .vfromi p f => Sys2Proof.Machine.execVfromi p f s
  | .vfromf p f => Sys2Proof.Machine.execVfromf p f s
  | .vtos p f => Sys2Proof.Machine.execVtos p f s
  | .vins p f => Sys2Proof.Machine.execVins p f s
  | .vsplati p f => Sys2Proof.Machine.execVsplati p f s
  | .gth p f => Sys2Proof.Machine.execGth p f s
  | .gfl p f => Sys2Proof.Machine.execGfl p f s
  | .res p f => Sys2Proof.Machine.execRes p f s
  | .chut p f => Sys2Proof.Machine.execChut p f s
  | .alrm p f => Sys2Proof.Machine.execAlrm p f s
  | .endOp p f => Sys2Proof.Machine.execEndOp p f s
  | .trap p f => Sys2Proof.Machine.execTrap p f s
  | .drain p f => Sys2Proof.Machine.execDrain p f s
  | .ticks p f => Sys2Proof.Machine.execTicks p f s
  | .nop p f => Sys2Proof.Machine.execNop p f s
  | .srget p f => Sys2Proof.Machine.execSrget p f s
  | .srput p f => Sys2Proof.Machine.execSrput p f s
  | .resume p f => Sys2Proof.Machine.execResume p f s
  | .doze p f => Sys2Proof.Machine.execDoze p f s
  | .dozeWake core => Sys2Proof.Machine.execDozeWake core s
  | .oscEvaluation unit epoch => Sys2Proof.Machine.execOscEvaluation unit epoch s
  | .islEvaluation epoch => Sys2Proof.Machine.execIslEvaluation epoch s
  | .alarmAck v => Sys2Proof.Machine.execAlarmAck v s
  | .gooseRetransmit => Sys2Proof.Machine.execGooseRetransmit s
  | .c37DataOff session src udp => Sys2Proof.Machine.execC37DataOff session src udp s
  | .c37DataOn session src udp => Sys2Proof.Machine.execC37DataOn session src udp s
  | .c37SendHeader session src udp => Sys2Proof.Machine.execC37SendHeader session src udp s
  | .c37SendCfg1 session src udp => Sys2Proof.Machine.execC37SendCfg1 session src udp s
  | .c37SendCfg2 session src udp => Sys2Proof.Machine.execC37SendCfg2 session src udp s
  | .c37SendCfg3 session src udp => Sys2Proof.Machine.execC37SendCfg3 session src udp s
  | .functionLevelReset => Sys2Proof.Machine.execFunctionLevelReset s
  | .dmaErrorCompletion ring code => Sys2Proof.Machine.execDmaErrorCompletion ring code s
  | .ringEnable ring v => Sys2Proof.Machine.execRingEnable ring v s
  | .ringDisable ring v => Sys2Proof.Machine.execRingDisable ring v s
  | .descTailWrite ring v descs => Sys2Proof.Machine.execDescTailWrite ring v descs s
  | .cplHeadWrite ring v => Sys2Proof.Machine.execCplHeadWrite ring v s
  | .recordPlace ring => Sys2Proof.Machine.execRecordPlace ring s
  | .irqModTimeout ring => Sys2Proof.Machine.execIrqModTimeout ring s
  | .chutePop ch be => Sys2Proof.Machine.execChutePop ch be s
  | .chuteFlush ch v => Sys2Proof.Machine.execChuteFlush ch v s
  | .chPushSoi ch v => Sys2Proof.Machine.execChPushSoi ch v s
  | .chPushHi ch v => Sys2Proof.Machine.execChPushHi ch v s
  | .cmpJobStart engine => Sys2Proof.Machine.execCmpJobStart engine s
  | .cmpJobComplete engine busErr => Sys2Proof.Machine.execCmpJobComplete engine busErr s
  | .mclkConfigWrite v => Sys2Proof.Machine.execMclkConfigWrite v s
  | .groupRunWrite v => Sys2Proof.Machine.execGroupRunWrite v s
  | .groupImmStart v => Sys2Proof.Machine.execGroupImmStart v s
  | .groupStart g => Sys2Proof.Machine.execGroupStart g s
  | .groupStop g => Sys2Proof.Machine.execGroupStop g s
  | .channelStuck ch => Sys2Proof.Machine.execChannelStuck ch s
  | .channelUnstuck ch => Sys2Proof.Machine.execChannelUnstuck ch s
  | .controlCycleApply v => Sys2Proof.Machine.execControlCycleApply v s
  | .trackerCrossing ch n samples => Sys2Proof.Machine.execTrackerCrossing ch n samples s
  | .trackerTimeout ch => Sys2Proof.Machine.execTrackerTimeout ch s
  | .stream0RecordWrite epoch samples => Sys2Proof.Machine.execStream0RecordWrite epoch samples s
  | .dinChangeAccept input => Sys2Proof.Machine.execDinChangeAccept input s
  | .dinEventPop => Sys2Proof.Machine.execDinEventPop s
  | .meterCycleComplete circuit tSec tTick v is => Sys2Proof.Machine.execMeterCycleComplete circuit tSec tTick v is s
  | .energySnapshot v => Sys2Proof.Machine.execEnergySnapshot v s
  | .energyPeriodicSave => Sys2Proof.Machine.execEnergyPeriodicSave s
  | .pulseEdgeAccept input rising => Sys2Proof.Machine.execPulseEdgeAccept input rising s
  | .xtrigEdge line => Sys2Proof.Machine.execXtrigEdge line s
  | .xtrigPulseEnd line => Sys2Proof.Machine.execXtrigPulseEnd line s
  | .captureForce v => Sys2Proof.Machine.execCaptureForce v s
  | .captureEnable v => Sys2Proof.Machine.execCaptureEnable v s
  | .thresholdCrossingLocal unit n samples => Sys2Proof.Machine.execThresholdCrossingLocal unit n samples s
  | .sequencerTransition seq => Sys2Proof.Machine.execSequencerTransition seq s
  | .sequencerTimerExpire seq timer => Sys2Proof.Machine.execSequencerTimerExpire seq timer s
  | .postSpanEnd => Sys2Proof.Machine.execPostSpanEnd s
  | .recordClose => Sys2Proof.Machine.execRecordClose s
  | .captureRearm => Sys2Proof.Machine.execCaptureRearm s
  | .recordCommit ok => Sys2Proof.Machine.execRecordCommit ok s
  | .recordCommitted ok => Sys2Proof.Machine.execRecordCommitted ok s
  | .captureScanEnd => Sys2Proof.Machine.execCaptureScanEnd s
  | .meshChannelEnable v => Sys2Proof.Machine.execMeshChannelEnable v s
  | .meshChannelStart ch => Sys2Proof.Machine.execMeshChannelStart ch s
  | .meshSpiWrite v => Sys2Proof.Machine.execMeshSpiWrite v s
  | .meshBeaconSend ch => Sys2Proof.Machine.execMeshBeaconSend ch s
  | .meshFrameReceive ch f => Sys2Proof.Machine.execMeshFrameReceive ch f s
  | .meshSuperframeEnd ch => Sys2Proof.Machine.execMeshSuperframeEnd ch s
  | .meshCcaBackoffEnd ch iq => Sys2Proof.Machine.execMeshCcaBackoffEnd ch iq s
  | .meshWakeSend ch iq => Sys2Proof.Machine.execMeshWakeSend ch iq s
  | .meshCapTransmit ch iq => Sys2Proof.Machine.execMeshCapTransmit ch iq s
  | .meshCommandGo v => Sys2Proof.Machine.execMeshCommandGo v s
  | .twinLaneUp lane => Sys2Proof.Machine.execTwinLaneUp lane s
  | .twinLaneDown lane inFlight => Sys2Proof.Machine.execTwinLaneDown lane inFlight s
  | .twinLseqTimeout => Sys2Proof.Machine.execTwinLseqTimeout s
  | .twinHelloSend => Sys2Proof.Machine.execTwinHelloSend s
  | .twinHelloReceive f => Sys2Proof.Machine.execTwinHelloReceive f s
  | .twinHealthSend => Sys2Proof.Machine.execTwinHealthSend s
  | .twinHealthReceive f => Sys2Proof.Machine.execTwinHealthReceive f s
  | .twinCfgSend => Sys2Proof.Machine.execTwinCfgSend s
  | .twinCfgReceive f => Sys2Proof.Machine.execTwinCfgReceive f s
  | .twinBeaconSend => Sys2Proof.Machine.execTwinBeaconSend s
  | .twinBeaconReceive f => Sys2Proof.Machine.execTwinBeaconReceive f s
  | .twinContactRecord => Sys2Proof.Machine.execTwinContactRecord s
  | .roleChange => Sys2Proof.Machine.execRoleChange s
  | .twinCopySent => Sys2Proof.Machine.execTwinCopySent s
  | .twinCopyBeginReceive f => Sys2Proof.Machine.execTwinCopyBeginReceive f s
  | .twinCopyDataReceive f => Sys2Proof.Machine.execTwinCopyDataReceive f s
  | .twinCopyEndReceive f => Sys2Proof.Machine.execTwinCopyEndReceive f s
  | .twinCopyTimeout => Sys2Proof.Machine.execTwinCopyTimeout s
  | .twnRelinquish v => Sys2Proof.Machine.execTwnRelinquish v s
  | .twnPartnerDown v => Sys2Proof.Machine.execTwnPartnerDown v s
  | .twnLinkRestart v => Sys2Proof.Machine.execTwnLinkRestart v s
  | .twnUnlockWrite v => Sys2Proof.Machine.execTwnUnlockWrite v s
  | .selftestLaneKat lane ok => Sys2Proof.Machine.execSelftestLaneKat lane ok s
  | .selftestCryptoKat ok => Sys2Proof.Machine.execSelftestCryptoKat ok s
  | .memoryScrubPass errors => Sys2Proof.Machine.execMemoryScrubPass errors s
  | .monitorOutOfLimits => Sys2Proof.Machine.execMonitorOutOfLimits s
  | .keyMaskRefresh badCells => Sys2Proof.Machine.execKeyMaskRefresh badCells s
  | .attest c => Sys2Proof.Machine.execAttest c s
  | .installOwner c => Sys2Proof.Machine.execInstallOwner c s
  | .provisionDone c => Sys2Proof.Machine.execProvisionDone c s
  | .ownerRotate c => Sys2Proof.Machine.execOwnerRotate c s
  | .secRaise c => Sys2Proof.Machine.execSecRaise c s
  | .keyLoad c => Sys2Proof.Machine.execKeyLoad c s
  | .keyCommit c => Sys2Proof.Machine.execKeyCommit c s
  | .keyFlip slot => Sys2Proof.Machine.execKeyFlip slot s
  | .keyDerive c => Sys2Proof.Machine.execKeyDerive c s
  | .keyDelete c => Sys2Proof.Machine.execKeyDelete c s
  | .pair c => Sys2Proof.Machine.execPair c s
  | .enterDiag c => Sys2Proof.Machine.execEnterDiag c s
  | .zeroize c => Sys2Proof.Machine.execZeroize c s
  | .nrgClear c => Sys2Proof.Machine.execNrgClear c s
  | .logClear c => Sys2Proof.Machine.execLogClear c s
  | .nvLineWriteComplete ok => Sys2Proof.Machine.execNvLineWriteComplete ok s
  | .logRecordWrite ok => Sys2Proof.Machine.execLogRecordWrite ok s
  | .logSlotLoad v => Sys2Proof.Machine.execLogSlotLoad v s
  | .logAutoAdvance be => Sys2Proof.Machine.execLogAutoAdvance be s
  | .norRead v => Sys2Proof.Machine.execNorRead v s
  | .norProgram v => Sys2Proof.Machine.execNorProgram v s
  | .norErase v => Sys2Proof.Machine.execNorErase v s
  | .norVerify v => Sys2Proof.Machine.execNorVerify v s
  | .norOpComplete dev ok => Sys2Proof.Machine.execNorOpComplete dev ok s
  | .norOpTimeout dev => Sys2Proof.Machine.execNorOpTimeout dev s
  | .govRampStart => Sys2Proof.Machine.execGovRampStart s
  | .govRampEnd => Sys2Proof.Machine.execGovRampEnd s
  | .govSettleEnd domain => Sys2Proof.Machine.execGovSettleEnd domain s
  | .jtagBypass => Sys2Proof.Machine.execJtagBypass s
  | .jtagIdcode => Sys2Proof.Machine.execJtagIdcode s
  | .jtagSamplePreload boundary => Sys2Proof.Machine.execJtagSamplePreload boundary s
  | .jtagExtest => Sys2Proof.Machine.execJtagExtest s
  | .jtagClamp => Sys2Proof.Machine.execJtagClamp s
  | .jtagHighz => Sys2Proof.Machine.execJtagHighz s
  | .jtagTrst low => Sys2Proof.Machine.execJtagTrst low s
  | .pwrFailRise => Sys2Proof.Machine.execPwrFailRise s
  | .ref25Return => Sys2Proof.Machine.execRef25Return s
  | .vholdRestore => Sys2Proof.Machine.execVholdRestore s
  | .holdUpCollapse => Sys2Proof.Machine.execHoldUpCollapse s
  | .vbatLowChange low => Sys2Proof.Machine.execVbatLowChange low s
  | .batteryLoss => Sys2Proof.Machine.execBatteryLoss s
  | .ethPcsLockChange port lock => Sys2Proof.Machine.execEthPcsLockChange port lock s
  | .pcieLinkChange up => Sys2Proof.Machine.execPcieLinkChange up s
  | .pcieConfigWrite ctl msix => Sys2Proof.Machine.execPcieConfigWrite ctl msix s
  | .filterStageClip ch stage xs => Sys2Proof.Machine.execFilterStageClip ch stage xs s
  | .shavingStore ch n sample => Sys2Proof.Machine.execShavingStore ch n sample s
  | .thresholdUnitArm unit n samples => Sys2Proof.Machine.execThresholdUnitArm unit n samples s
  | .meshTransmitEnd ch => Sys2Proof.Machine.execMeshTransmitEnd ch s
  | .meshSpiShiftEnd miso => Sys2Proof.Machine.execMeshSpiShiftEnd miso s
  | .unknownCommandCode c => Sys2Proof.Machine.execUnknownCommandCode c s

end Sys2Proof.Machine
end

