-- ==== Sys2Proof/Machine/Idle.lean ====
section
/-! DEFINITION. What a step does on an empty queue (log 1): one fabric cycle passes, firmware takes the frames that wait in its receive queue, and
may send a PTP message of its own (log 132). -/

namespace Sys2Proof.Machine

/-- Does some management core run? -/
def firmwareRuns (s : State) : Bool := (List.range 4).any (coreRuns s)

/-- May firmware send a PTP message of its own on a port? Sync (0) and Announce (11) go out on time-transmitter ports only, and messages of one kind
are at least 2^-4 s apart (03 R95). -/
def ptpMay (s : State) (p ty : Nat) : Bool :=
  (ty == 2 || s.time.ptpPort != some p) &&
    (!Tab.has s.time.ptpSent (16 * p + ty) || decide ((Tab.get (fun _ => (0, 0)) s.time.ptpSent (16 * p + ty)).1 + 31250000 ≤ s.cycle))

/-- In each cycle firmware sends no PTP message of its own, or a Sync, a Pdelay_Req or an Announce on some port, freely: no rule gives the instants
(03 R95; log 132). -/
def ptpOwn (s : State) : State :=
  let x := Config.fresh s.freeCtr % 16
  let p := x % 4
  let ty := [0, 2, 11].getD (x / 4) 0
  let n := (Tab.get (fun _ => (0, 0)) s.time.ptpSent (16 * p + ty)).2
  let e := enqueue s p (ptpFrame ty n)
  let go := decide (x < 12) && ptpMay s p ty && e.2
  { s with
    freeCtr := s.freeCtr + 1
    out := if go then e.1.out else s.out
    time := if go then { s.time with ptpSent := Tab.put s.time.ptpSent (16 * p + ty) (s.cycle, n + 1) } else s.time }

/-- One fabric cycle with no command waiting (01 R20; 03 R95; 04 R134). -/
def idle (s : State) : State :=
  let s := pass s 1
  if firmwareRuns s then ptpOwn { s with ing := { s.ing with fwq := [] } } else s

end Sys2Proof.Machine
end

