-- ==== Sys2Proof/Safety.lean ====
section
/-! DEFINITION. The terms that claims about the part are made in: what holds in every state that a run reaches, when a Suesk instruction
issues, and what a command changes and leaves. -/

namespace Sys2Proof.Machine

/-! What holds in every state that a run reaches. -/

/-- Every store that is held sparsely is in canonical form: the registers, the two configuration copies and the one that retires, the tables
of the other windows, history memory (01 R22), the non-volatile store (18), and host memory as the part has written it. -/
def Canonical (s : State) : Prop :=
  Tab.wf resetWord s.regs = true ∧ Tab.wf cfgDef s.cfg = true ∧ Tab.wf cfgDef s.cfgPend = true ∧
  (∀ r, s.cfgRet = some r → Tab.wf cfgDef r.tab = true) ∧ Tab.wf ntabDef s.ntab = true ∧ Memory.wf s.hist = true ∧
  Memory.wf s.nvs.store = true ∧ Memory.wf s.dma.hostMem = true

/-- The part's numbers of units: 4 chutes (11 R351), 16 rings (11), 32 lanes and 4 management cores (07 R204; 08 R276), 2 chucks, and 32 slots in
the blank ring (05 R136). -/
def Shape (s : State) : Prop :=
  s.chutes.length = 4 ∧ s.dma.rings.length = 16 ∧ s.ssk.lanes.length = 32 ∧ s.ssk.cores.length = 4 ∧ s.ssk.chucks.length = 2 ∧
  s.aln.ring.length = 32

/-- No chute holds, or has promised to its register port, more than its 32 words (11 R351, R352). -/
def ChutesFit (s : State) : Prop := ∀ c ∈ s.chutes, c.taken ≤ 32

/-- The invariant of the part. -/
def Invariant (s : State) : Prop := Canonical s ∧ Shape s ∧ ChutesFit s

/-! Frames. -/

/-- The parts of the state, but for the queue of commands and the model's own record of the present fabric cycle, `cyc`, which any command may change. -/
inductive Comp where
  | cycle | now | rtcBase | freeCtr | hostData | regs | shadow | winOps | cfg | cfgPend | cfgRet | ntab | rseq
  | hist | histPart | eccCorr | sys | time | chutes | dma | cmp | nvs | cap | ing | aln | spc
  | ssk | pins | key | out | det | afe | nrg | msh | twn | pwr | jtag | fw
deriving DecidableEq, Repr

/-- One part of the state is as before. -/
def Comp.same (s t : State) : Comp → Prop
  | .cycle => t.cycle = s.cycle
  | .now => t.now = s.now
  | .rtcBase => t.rtcBase = s.rtcBase
  | .freeCtr => t.freeCtr = s.freeCtr
  | .hostData => t.hostData = s.hostData
  | .regs => t.regs = s.regs
  | .shadow => t.shadow = s.shadow
  | .winOps => t.winOps = s.winOps
  | .cfg => t.cfg = s.cfg
  | .cfgPend => t.cfgPend = s.cfgPend
  | .cfgRet => t.cfgRet = s.cfgRet
  | .ntab => t.ntab = s.ntab
  | .rseq => t.rseq = s.rseq
  | .hist => t.hist = s.hist
  | .histPart => t.histPart = s.histPart
  | .eccCorr => t.eccCorr = s.eccCorr
  | .sys => t.sys = s.sys
  | .time => t.time = s.time
  | .chutes => t.chutes = s.chutes
  | .dma => t.dma = s.dma
  | .cmp => t.cmp = s.cmp
  | .nvs => t.nvs = s.nvs
  | .cap => t.cap = s.cap
  | .ing => t.ing = s.ing
  | .aln => t.aln = s.aln
  | .spc => t.spc = s.spc
  | .ssk => t.ssk = s.ssk
  | .pins => t.pins = s.pins
  | .key => t.key = s.key
  | .out => t.out = s.out
  | .det => t.det = s.det
  | .afe => t.afe = s.afe
  | .nrg => t.nrg = s.nrg
  | .msh => t.msh = s.msh
  | .twn => t.twn = s.twn
  | .pwr => t.pwr = s.pwr
  | .jtag => t.jtag = s.jtag
  | .fw => t.fw = s.fw

/-- The queue and every part of the state but those listed are as before. -/
def ChangesOnly (l : List Comp) (s t : State) : Prop := t.pending = s.pending ∧ ∀ c, c ∉ l → c.same s t

/-! Registers. -/

/-- Every register but those listed reads as before. -/
def RegsBut (l : List Nat) (s t : State) : Prop := ∀ off, off ∉ l → rd t off = rd s off

/-- The parts that an item of a chute, a capture trigger it sets off, or a Drill Log record can change (11 R352; 14; 18 R503). -/
def itemParts : List Comp := [.regs, .rseq, .chutes, .dma, .nvs, .cap, .pins]

/-- The registers among them. -/
def itemRegs : List Nat :=
  [Reg.CAP_NOREC, Reg.CAP_STATUS, Reg.CAP_EXTENDS, Reg.NVS_LOG_DROPPED, Reg.NVS_LOG_QDROP, Reg.NVS_STATUS] ++
    (List.range 4).map Reg.CH_STATUS ++ (List.range 4).map Reg.CH_PUSH_REFUSED ++ (List.range 4).map Reg.CH_FLUSH_TRUNC

/-- The parts that a change of mode can change besides (02 R45 to R50, R71). -/
def modeParts : List Comp :=
  itemParts ++ [.freeCtr, .cfgRet, .ntab, .time, .cmp, .ing, .aln, .ssk, .out, .det, .afe, .nrg, .msh, .twn, .pwr]

/-- The registers among them. -/
def modeRegs : List Nat :=
  itemRegs ++ (List.range 4).map Reg.ALN_BLANK_STATE ++
    [Reg.SYS_MODE, Reg.SYS_STATUS, Reg.SSK_BUDGET_CUT, Reg.NRG_CYCLES, Reg.AFE_GRP_CTRL, Reg.AFE_GRP_STATUS, Reg.NRG_IR_HEAD, Reg.NRG_NAN, Reg.SSK_EXC,
     Reg.DET_GS_STNUM, Reg.SYS_OOS_ACK_UNIT, Reg.NRG_SHORT, Reg.SSK_RES_OVF, Reg.ALN_NEWEST_LO, Reg.TXN_STATUS, Reg.ALN_TOO_LATE,
     Reg.NVS_NOR_OP, Reg.SSK_CHUCK_SEL, Reg.DET_GS_SQNUM, Reg.DET_GS_SENT, Reg.ALN_NEWEST_HI, Reg.NRG_STATUS, Reg.SYS_OOS_ACK_LANE,
     Reg.TXN_REJMASK, Reg.DET_OSC_NF_FROZEN, Reg.ALN_EVAL_CUT, Reg.DET_OSC_HELD, Reg.PWR_STATUS, Reg.ALN_UNSEALED_RETIRE, Reg.MSH_STATUS,
     Reg.CAP_CTRL, Reg.NRG_GAP_LEN]

/-- The part is in a mode that it entered from another for a cause (02 R45). -/
def InMode (t : State) (m was cause : Nat) : Prop := rd t Reg.SYS_MODE = was * 2 ^ 20 + cause * 256 + m

/-- A command ends in a next state that satisfies `f`, differing from `s` only in the parts `l` and the registers `r`. -/
def Completes (c : Instr) (s : State) (l : List Comp) (r : List Nat) (f : State → Prop) : Prop :=
  ∃ t, exec c s = .next t ∧ ChangesOnly l s t ∧ RegsBut r s t ∧ f t

/-- Every byte of a memory but those of a range reads as before. -/
def BytesBut (a n : Nat) (m m' : Memory) : Prop := ∀ x, ¬(a ≤ x ∧ x < a + n) → Tab.get Memory.zero m' x = Tab.get Memory.zero m x

/-- What the tokens of a compressed block stand for (11 R361): a literal, or a length copied from a distance back. -/
def lzExpand (ts : List (Nat × Nat)) : List Nat :=
  ts.foldl (fun out t => if t.1 = 0 then out ++ [t.2] else out ++ (List.range t.1).map (fun i => out.getD (out.length - t.2 + i % t.2) 0)) []

/-! Suesk instructions (07, 08). -/

/-- A word of permitted code lies at an address, without an uncorrectable error (08 R242; 07 R232). -/
def Fetches (s : State) (p : Proc) (a : Nat) : Prop := codeAt s p a = true ∧ ueIn s 4 (codeSpace s p a) = none

/-- An instruction of `n` bytes issues: its processor executes, its words can be fetched and the first of them spells an instruction, and no outstanding
gather has one of the scalar registers `sr` or of the vector registers `vr` as its destination (08 R242, R244, R246, R269). -/
def Issues (s : State) (p : Proc) (n : Nat) (sr vr : List Nat) : Prop :=
  procRuns s p = true ∧ (procOf s p).pc % 4 = 0 ∧ Fetches s p (procOf s p).pc ∧ illegalWord (codeWord s p (procOf s p).pc) = false ∧
  (n = 8 → Fetches s p ((procOf s p).pc + 4)) ∧ ∀ g ∈ (procOf s p).gath, g.dest ∉ (if g.isFlag then sr else vr)

/-- Element 0 of the governing predicate is TRUE (07 R209). -/
def Governed (s : State) (p : Proc) (kg : BitVec 3) : Prop := (procOf s p).kGet kg.toNat 0 = 1

/-- The address `n` words from an address, within 64 bits (08 R257, R258). -/
def wordsFrom (pc : Nat) (n : Int) : Nat := (((pc : Int) + 4 * n).emod (2 ^ 64)).toNat

/-- The scalar register that a field names, as a word (07 R205). -/
def sReg (s : State) (p : Proc) (r : BitVec 5) : W64 := BitVec.ofNat 64 ((procOf s p).sGet r.toNat)

/-- The command ends with scalar register `d` holding `v` where it is not s0, the program counter `n` bytes on, and nothing else of the
part changed (07 R205). -/
def SetsScalar (c : Instr) (s : State) (p : Proc) (n : Nat) (d : BitVec 5) (v : W64) : Prop :=
  ∃ x : ProcS, exec c s = .next (setProc s p x) ∧ x = { procOf s p with s := x.s, pc := ((procOf s p).pc + n) % 2 ^ 64 } ∧
    ∀ r, x.sGet r = if r = d.toNat ∧ r ≠ 0 then v.toNat else (procOf s p).sGet r

/-- The command ends with the program counter `n` bytes on, and nothing else of the part changed. -/
def OnlySteps (c : Instr) (s : State) (p : Proc) (n : Nat) : Prop :=
  exec c s = .next (setProc s p { procOf s p with pc := ((procOf s p).pc + n) % 2 ^ 64 })

/-- A governed scalar result (07 R209). -/
def ScalarResult (c : Instr) (s : State) (p : Proc) (n : Nat) (d : BitVec 5) (kg : BitVec 3) (v : W64) : Prop :=
  (Governed s p kg → SetsScalar c s p n d v) ∧ (¬Governed s p kg → OnlySteps c s p n)

/-- The command ends with predicate register `d` written element by element under `kg` (07 R208), where it is not k0, the program counter 4
bytes on, and nothing else of the part changed. -/
def SetsPredicate (c : Instr) (s : State) (p : Proc) (d kg : BitVec 3) (f : Nat → Nat) : Prop :=
  ∃ x : ProcS, exec c s = .next (setProc s p x) ∧ x = { procOf s p with k := x.k, pc := ((procOf s p).pc + 4) % 2 ^ 64 } ∧
    ∀ r e, e < 4 → x.kGet r e =
      if r = d.toNat ∧ r ≠ 0 ∧ e ∈ elems p then
        (match (procOf s p).kGet kg.toNat e with
        | 1 => f e
        | 0 => (procOf s p).kGet r e
        | _ => if (procOf s p).kGet r e = f e then f e else 2)
      else (procOf s p).kGet r e

/-- The command ends with vector register `d` written element by element under `kg` (07 R208), the program counter `n` bytes on, and nothing
else of the part changed. -/
def SetsVector (c : Instr) (s : State) (p : Proc) (n : Nat) (d : BitVec 5) (kg : BitVec 3) (hull : VEl → VEl → VEl) (f : Nat → VEl) : Prop :=
  ∃ x : ProcS, exec c s = .next (setProc s p x) ∧ x = { procOf s p with v := x.v, pc := ((procOf s p).pc + n) % 2 ^ 64 } ∧
    ∀ r e, e < 4 → x.vGet r e =
      if r = d.toNat then
        (match (procOf s p).kGet kg.toNat e with
        | 1 => f e
        | 0 => (procOf s p).vGet r e
        | _ => hull ((procOf s p).vGet r e) (f e))
      else (procOf s p).vGet r e

/-- What a byte of lane-local memory reads as that the lane's work item has not written (07 R211). -/
def scratchDef (s : State) (l : Nat) (x : Nat) : Byte :=
  BitVec.ofNat 8 (Config.scratch l ((laneOf s l).item.getD (0, 0)).1 ((laneOf s l).item.getD (0, 0)).2 x)

/-- The byte `i` bytes from a place of data (07 R211; 08 R276). -/
def Space.byte (s : State) (i : Nat) : Space → Nat
  | .scratch l a => (Tab.get (scratchDef s l) (s.ssk.scratch.getD l []) (a + i)).toNat
  | .core c a => (Tab.get Memory.zero (s.ssk.coreMem.getD c []) (a + i)).toNat
  | .hist a => (Tab.get Memory.zero s.hist (a + i)).toNat
  | .chuck k a => (Tab.get Memory.zero (chuckMem s k) (a + i)).toNat
  | .rom a => Config.bootRom (a + i) % 256
  | .dev _ => 0

/-- A memory holds the bytes `bs` from `a` and every other byte as before. -/
def HoldsBytes (d : Nat → Byte) (m m' : Memory) (a : Nat) (bs : List Nat) : Prop :=
  ∀ x, Tab.get d m' x = if a ≤ x ∧ x < a + bs.length then BitVec.ofNat 8 (bs.getD (x - a) 0) else Tab.get d m x

/-- A store of bytes at a place: they and nothing else of the part have changed, but that words with an uncorrectable error among them have it no more
(01 R18); in the register space, the write of a register. -/
def Stored (sp : Space) (bs : List Nat) (s t : State) : Prop :=
  ∃ u : List (Nat × Nat × Nat), (ueIn s bs.length sp = none → u = s.sys.ue) ∧
  match sp with
  | .scratch l a => ∃ m, t = { s with ssk := { s.ssk with scratch := s.ssk.scratch.set l m }, sys := { s.sys with ue := u } } ∧
      HoldsBytes (scratchDef s l) (s.ssk.scratch.getD l []) m a bs
  | .core c a => ∃ m, t = { s with ssk := { s.ssk with coreMem := s.ssk.coreMem.set c m } } ∧
      HoldsBytes Memory.zero (s.ssk.coreMem.getD c []) m a bs
  | .hist a => ∃ m, t = { s with hist := m, sys := { s.sys with ue := u } } ∧ HoldsBytes Memory.zero s.hist m a bs
  | .chuck _ _ => t = s
  | .rom _ => t = s
  | .dev off => t = regWrite s off (ofLe bs) true

end Sys2Proof.Machine
end

