-- ==== Sys2Proof/Certificates/Slice0/Obligations.lean ====
section
/-! DEFINITION. The statements about the TY8192 that are to be proved, each from the rules of spec/ that its docstring names. -/

open Sys2Proof Sys2Proof.Machine

/-- For every processor, format R fields and state in which the instruction issues (R242, R246), each SALU instruction completes; under a TRUE governing predicate (or k0) register D takes the value of R250's table, computed here on 64-bit words, where D is not s0; otherwise D keeps its value (R209). Every other register, and every other part of the state, stays as it was, but for the program counter, which moves on by 4 (R242). EXTS32 and EXTZ32 are stated for B = s0, which R250 asks. -/
def Obligations.SaluResults : Prop :=
  ∀ (s : State) (p : Proc) (f : FmtR), Issues s p 4 [f.d.toNat, f.a.toNat, f.b.toNat] [] →
    let A := sReg s p f.a
    let B := sReg s p f.b
    let R (c : Instr) (v : W64) : Prop := ScalarResult c s p 4 f.d f.kg v
    R (.add p f) (A + B) ∧ R (.sub p f) (A - B) ∧ R (.mul p f) (A * B) ∧
    R (.mulhs p f) (BitVec.ofInt 64 (A.toInt * B.toInt / 2 ^ 64)) ∧
    R (.divf p f) (BitVec.ofInt 64 (if B = 0 then (if 0 ≤ A.toInt then 2 ^ 63 - 1 else -2 ^ 63) else min (2 ^ 63 - 1) (A.toInt.fdiv B.toInt))) ∧
    R (.divu p f) (if B = 0 then (if A = 0 then 0 else BitVec.allOnes 64) else A / B) ∧
    R (.modf p f) (if B = 0 then 0 else BitVec.ofInt 64 (A.toInt - B.toInt * A.toInt.fdiv B.toInt)) ∧
    R (.modu p f) (if B = 0 then 0 else A % B) ∧
    R (.andOp p f) (A &&& B) ∧ R (.orOp p f) (A ||| B) ∧ R (.xorOp p f) (A ^^^ B) ∧
    R (.shl p f) (A <<< (B.toNat % 64)) ∧ R (.shr p f) (A >>> (B.toNat % 64)) ∧ R (.sra p f) (A.sshiftRight (B.toNat % 64)) ∧
    R (.minOp p f) (if A.toInt ≤ B.toInt then A else B) ∧ R (.maxOp p f) (if A.toInt ≤ B.toInt then B else A) ∧
    (f.b = 0 → R (.exts32 p f) ((A.setWidth 32).signExtend 64) ∧ R (.extz32 p f) ((A.setWidth 32).setWidth 64))

/-- For every processor, fields and state in which the instruction issues: ADDI writes A plus the sign-extended immediate, ANDI, ORI and XORI combine A with the zero-extended one, SHI shifts A left, right with zero fill or right with sign fill by IMM[5:0] as IMM[7:6] is 0, 1 or 2 (ungoverned, R245); LI writes the sign-extended extension word and LIH puts it into D[63:32] and keeps D[31:0] (8 bytes, governed by KG, A and B zero). Nothing else changes but the program counter. A SHI with IMM[7:6] = 3 or a non-zero IMM[15:8], and an LI or LIH with a non-zero A or B, raises exception ILLEGAL, code 1. -/
def Obligations.ImmediateResults : Prop :=
  ∀ (s : State) (p : Proc),
    (∀ f : FmtI, Issues s p 4 [f.d.toNat, f.a.toNat] [] →
      let A := sReg s p f.a
      SetsScalar (.addi p f) s p 4 f.d (A + f.imm.signExtend 64) ∧ SetsScalar (.andi p f) s p 4 f.d (A &&& f.imm.setWidth 64) ∧
      SetsScalar (.ori p f) s p 4 f.d (A ||| f.imm.setWidth 64) ∧ SetsScalar (.xori p f) s p 4 f.d (A ^^^ f.imm.setWidth 64) ∧
      (f.imm.toNat < 64 → SetsScalar (.shi p f) s p 4 f.d (A <<< f.imm.toNat)) ∧
      (64 ≤ f.imm.toNat → f.imm.toNat < 128 → SetsScalar (.shi p f) s p 4 f.d (A >>> (f.imm.toNat - 64))) ∧
      (128 ≤ f.imm.toNat → f.imm.toNat < 192 → SetsScalar (.shi p f) s p 4 f.d (A.sshiftRight (f.imm.toNat - 128))) ∧
      (192 ≤ f.imm.toNat → exec (.shi p f) s = .next (raiseExc s p 1 0 0))) ∧
    (∀ f : FmtX, Issues s p 8 [f.d.toNat] [] →
      if f.a = 0 ∧ f.b = 0 then
        ScalarResult (.li p f) s p 8 f.d f.kg (f.imm32.signExtend 64) ∧
        ScalarResult (.lih p f) s p 8 f.d f.kg (f.imm32 ++ (sReg s p f.d).setWidth 32)
      else exec (.li p f) s = .next (raiseExc s p 1 0 0) ∧ exec (.lih p f) s = .next (raiseExc s p 1 0 0))

/-- For every processor, fields and state in which the instruction issues: FADD, FSUB, FMUL, FDIV, FSQRT, FMIN and FMAX write D with the model's binary64 operation, rounded to nearest; FCVTDL converts the signed integer A, FCVTLD converts A to an integer toward zero, saturating, FCVTDS widens the binary32 in A[31:0] and FCVTSD narrows A to binary32 with zeros above; all under KG (R209). A NaN operand of FADD, FSUB, FMUL, FDIV, FSQRT gives 0x7FF8000000000000 and of FCVTLD gives 0. Every other register and part of the state stays, but for the program counter. -/
def Obligations.BinaryFloatResults : Prop :=
  (∀ (s : State) (p : Proc) (f : FmtR), Issues s p 4 [f.d.toNat, f.a.toNat, f.b.toNat] [] →
    let A := sReg s p f.a
    let B := sReg s p f.b
    let R (c : Instr) (v : Nat) : Prop := ScalarResult c s p 4 f.d f.kg (BitVec.ofNat 64 v)
    R (.fadd p f) (Machine.fadd f64 .near A.toNat B.toNat) ∧ R (.fsub p f) (Machine.fsub f64 .near A.toNat B.toNat) ∧
    R (.fmul p f) (Machine.fmul f64 .near A.toNat B.toNat) ∧ R (.fdiv p f) (Machine.fdiv f64 .near A.toNat B.toNat) ∧
    R (.fsqrt p f) (Machine.fsqrt f64 .near A.toNat) ∧
    R (.fmin p f) (Machine.fmin f64 A.toNat B.toNat) ∧ R (.fmax p f) (Machine.fmax f64 A.toNat B.toNat) ∧
    R (.fcvtdl p f) (fofInt f64 A.toInt) ∧
    ScalarResult (.fcvtld p f) s p 4 f.d f.kg (BitVec.ofInt 64 (ftoInt f64 64 A.toNat)) ∧
    R (.fcvtds p f) (fcvt f32 f64 .near (A.toNat % 2 ^ 32)) ∧ R (.fcvtsd p f) (fcvt f64 f32 .near A.toNat)) ∧
  (∀ a b : Nat, isNaN f64 a = true ∨ isNaN f64 b = true →
    Machine.fadd f64 .near a b = 0x7FF8000000000000 ∧ Machine.fsub f64 .near a b = 0x7FF8000000000000 ∧
    Machine.fmul f64 .near a b = 0x7FF8000000000000 ∧ Machine.fdiv f64 .near a b = 0x7FF8000000000000) ∧
  (∀ a : Nat, isNaN f64 a = true → Machine.fsqrt f64 .near a = 0x7FF8000000000000 ∧ ftoInt f64 64 a = 0)

/-- For every processor, fields with the zero bits zero, and state in which the instruction issues: SCMP EQ, NE, LT, GE, LTU and GEU compare scalars A and B, as signed words for LT and GE and as unsigned words for LTU and GEU, and SFCMP FEQ, FLT and FLE compare them as binary64, FALSE where one is NaN; each writes TRUE (1) or FALSE (0) into every element of KD that the processor has (element 0 in the scalar profile), governed by KG (R208). Nothing else changes but the program counter. -/
def Obligations.ScalarComparisons : Prop :=
  (∀ (s : State) (p : Proc) (f : FmtC), f.z = 0 → Issues s p 4 [f.a.toNat, f.b.toNat] [] →
    let A := sReg s p f.a
    let B := sReg s p f.b
    let R (c : Instr) (b : Bool) : Prop := SetsPredicate c s p f.kd f.kg (fun _ => if b then 1 else 0)
    R (.scmpEq p f) (A == B) ∧ R (.scmpNe p f) (A != B) ∧ R (.scmpLt p f) (decide (A.toInt < B.toInt)) ∧
    R (.scmpGe p f) (decide (B.toInt ≤ A.toInt)) ∧ R (.scmpLtu p f) (decide (A.toNat < B.toNat)) ∧
    R (.scmpGeu p f) (decide (B.toNat ≤ A.toNat)) ∧
    R (.feq p f) (Machine.feq f64 A.toNat B.toNat) ∧ R (.flt p f) (Machine.flt f64 A.toNat B.toNat) ∧
    R (.fle p f) (Machine.fle f64 A.toNat B.toNat)) ∧
  (∀ a b : Nat, isNaN f64 a = true ∨ isNaN f64 b = true →
    Machine.feq f64 a b = false ∧ Machine.flt f64 a b = false ∧ Machine.fle f64 a b = false)

/-- For every processor, fields and state in which the instruction issues: KAND, KOR, KNOT, KANDN and KMOV (IMM zero, KNOT also KB zero) write element by element AND, OR, NOT, AND NOT and a copy in the logic of R188; KSET writes IMM[2i+1:2i], a code 3 as 2; KALL and KANY write the AND and the OR of the four elements of KA into every element, and KSPLAT the element IMM[1:0]; on a management core, which has element 0 only, KALL, KANY and KSPLAT act as KMOV. All governed by KG (R208); nothing else changes but the program counter. The logic is the table of R188: FALSE AND x is FALSE, TRUE AND TRUE is TRUE, TRUE OR x is TRUE, FALSE OR FALSE is FALSE, any other AND and OR is UNSURE, NOT exchanges TRUE and FALSE and keeps UNSURE. -/
def Obligations.PredicateLogic : Prop :=
  (∀ (s : State) (p : Proc) (f : FmtP), Issues s p 4 [] [] →
    let a (e : Nat) := (procOf s p).kGet f.ka.toNat e
    let b (e : Nat) := (procOf s p).kGet f.kb.toNat e
    let R (c : Instr) (g : Nat → Nat) : Prop := SetsPredicate c s p f.kd f.kg g
    (f.imm = 0 → R (.kand p f) (fun e => kAnd (a e) (b e)) ∧ R (.kor p f) (fun e => kOr (a e) (b e)) ∧
      R (.kandn p f) (fun e => kAnd (a e) (kNot (b e))) ∧ R (.kmov p f) a ∧
      (f.kb = 0 → R (.knot p f) (fun e => kNot (a e))) ∧
      R (.kall p f) (fun e => if isLane p then kAnd (kAnd (a 0) (a 1)) (kAnd (a 2) (a 3)) else a e) ∧
      R (.kany p f) (fun e => if isLane p then kOr (kOr (a 0) (a 1)) (kOr (a 2) (a 3)) else a e)) ∧
    R (.kset p f) (fun e => match f.imm.toNat / 4 ^ e % 4 with | 3 => 2 | v => v) ∧
    (f.imm.toNat < 4 → R (.ksplat p f) (fun e => if isLane p then a f.imm.toNat else a e))) ∧
  (∀ x, x < 3 → kAnd 0 x = 0 ∧ kAnd x 0 = 0 ∧ kOr 1 x = 1 ∧ kOr x 1 = 1) ∧
  kAnd 1 1 = 1 ∧ kAnd 1 2 = 2 ∧ kAnd 2 1 = 2 ∧ kAnd 2 2 = 2 ∧ kOr 0 0 = 0 ∧ kOr 0 2 = 2 ∧ kOr 2 0 = 2 ∧ kOr 2 2 = 2 ∧
  kNot 0 = 1 ∧ kNot 1 = 0 ∧ kNot 2 = 2

/-- For every processor and state in which the instruction issues: BR with COND 0 to 5, or 6 with KN 0, goes OFS words on where COND is met (all TRUE, any TRUE, all FALSE, any FALSE, any UNSURE, none UNSURE, always; on a core every element counts as element 0) and 4 bytes on otherwise; COND 7, and 6 with KN not 0, raises ILLEGAL. CALL writes the address of the next instruction to s31 and goes OFS words on. JMPR goes to A + B; FUNC 0 (D zero) links nothing, FUNC 1 writes the address of the next instruction to D; KG not 0, another FUNC, or FUNC 0 with D not zero, raises ILLEGAL. DRAIN with no gather outstanding and NOP, their register fields zero, only move on by 4 (DRAIN's waiting for earlier accesses is over when its command acts: DESIGN CHOICE, log 14). Nothing else of the part changes. -/
def Obligations.ControlFlow : Prop :=
  (∀ (s : State) (p : Proc) (f : FmtB), Issues s p 4 [] [] →
    let k (e : Nat) := (procOf s p).kGet f.kn.toNat (if isLane p then e else 0)
    let met : Prop := match f.cond.toNat with
      | 0 => ∀ e, e < 4 → k e = 1
      | 1 => ∃ e, e < 4 ∧ k e = 1
      | 2 => ∀ e, e < 4 → k e = 0
      | 3 => ∃ e, e < 4 ∧ k e = 0
      | 4 => ∃ e, e < 4 ∧ k e = 2
      | 5 => ∀ e, e < 4 → k e ≠ 2
      | _ => True
    if f.cond.toNat = 7 ∨ (f.cond.toNat = 6 ∧ f.kn ≠ 0) then exec (.br p f) s = .next (raiseExc s p 1 0 0)
    else (met → exec (.br p f) s = .next (setProc s p { procOf s p with pc := wordsFrom (procOf s p).pc f.ofs.toInt })) ∧
      (¬met → OnlySteps (.br p f) s p 4)) ∧
  (∀ (s : State) (p : Proc) (ofs : BitVec 26), Issues s p 4 [31] [] →
    ∃ x : ProcS, exec (.call p ofs) s = .next (setProc s p x) ∧
      x = { procOf s p with s := x.s, pc := wordsFrom (procOf s p).pc ofs.toInt } ∧
      ∀ r, x.sGet r = if r = 31 then ((procOf s p).pc + 4) % 2 ^ 64 else (procOf s p).sGet r) ∧
  (∀ (s : State) (p : Proc) (f : FmtR) (link : BitVec 8), Issues s p 4 [f.d.toNat, f.a.toNat, f.b.toNat] [] →
    if f.kg = 0 ∧ (link = 1 ∨ (link = 0 ∧ f.d = 0)) then
      ∃ x : ProcS, exec (.jmpr p f link) s = .next (setProc s p x) ∧
        x = { procOf s p with s := x.s, pc := (sReg s p f.a + sReg s p f.b).toNat } ∧
        ∀ r, x.sGet r = if link = 1 ∧ r = f.d.toNat ∧ r ≠ 0 then ((procOf s p).pc + 4) % 2 ^ 64 else (procOf s p).sGet r
    else exec (.jmpr p f link) s = .next (raiseExc s p 1 0 0)) ∧
  (∀ (s : State) (p : Proc) (f : FmtR), Issues s p 4 [] [] → f.d = 0 → f.a = 0 → f.b = 0 →
    OnlySteps (.nop p f) s p 4 ∧ ((procOf s p).gath = [] → OnlySteps (.drain p f) s p 4))

/-- For every lane, fields and state in which the instruction issues: VADD, VSUB, VMUL, VMULC, VDIV, VROT, VPOLAR, VCPLX and VHULL write the enclosure of their table from elements of A and B, VCONJ and VNEG (B zero) the exact conjugate and negative of A, VSCL and VWIDEN the enclosure with the binary32 in the low half of scalar B; element by element under KG, the disc hull of old and new where KG is UNSURE; an element that is EVERY makes the result EVERY. Nothing else changes but the program counter. The enclosures are the model's functions of those names; for VADD, VSUB, VCPLX, VSCL and VWIDEN they are written out: midpoint rounded to nearest, radius rounded up, w(c) added. VROT and VPOLAR rest on the model's sine and cosine, whose last places are free (log 8). -/
def Obligations.ComplexVectorResults : Prop :=
  (∀ (s : State) (l : Fin 32) (f : FmtR), Issues s (.lane l) 4 [] [f.d.toNat, f.a.toNat, f.b.toNat] →
    let x := procOf s (.lane l)
    let R2 (c : Instr) (g : VEl → VEl → VEl) : Prop := SetsVector c s (.lane l) 4 f.d f.kg discHull (fun e =>
      if (x.vGet f.a.toNat e).isEvery ∨ (x.vGet f.b.toNat e).isEvery then VEl.every else g (x.vGet f.a.toNat e) (x.vGet f.b.toNat e))
    let R1 (c : Instr) (g : VEl → VEl) : Prop := SetsVector c s (.lane l) 4 f.d f.kg discHull (fun e =>
      if (x.vGet f.a.toNat e).isEvery then VEl.every else g (x.vGet f.a.toNat e))
    R2 (.vadd (.lane l) f) elAdd ∧ R2 (.vsub (.lane l) f) elSub ∧ R2 (.vmul (.lane l) f) elMul ∧ R2 (.vmulc (.lane l) f) elMulc ∧
    R2 (.vdiv (.lane l) f) elDiv ∧ R2 (.vrot (.lane l) f) elRot ∧ R2 (.vpolar (.lane l) f) elPolar ∧ R2 (.vcplx (.lane l) f) elCplx ∧
    R2 (.vhull (.lane l) f) elHull ∧
    (f.b = 0 → R1 (.vconj (.lane l) f) (fun a => ⟨a.re, fneg f32 a.im, a.env⟩) ∧
      R1 (.vneg (.lane l) f) (fun a => ⟨fneg f32 a.re, fneg f32 a.im, a.env⟩))) ∧
  (∀ (s : State) (l : Fin 32) (f : FmtR), Issues s (.lane l) 4 [f.b.toNat] [f.d.toNat, f.a.toNat] →
    let x := procOf s (.lane l)
    let k := (sReg s (.lane l) f.b).toNat % 2 ^ 32
    let R1 (c : Instr) (g : VEl → VEl) : Prop := SetsVector c s (.lane l) 4 f.d f.kg discHull (fun e =>
      if (x.vGet f.a.toNat e).isEvery then VEl.every else g (x.vGet f.a.toNat e))
    R1 (.vscl (.lane l) f) (fun a => if isFin f32 k then
      cRes (Machine.fmul f32 .near k a.re) (Machine.fmul f32 .near k a.im) (Machine.fmul f32 .up (fabs f32 k) a.env) else VEl.every) ∧
    R1 (.vwiden (.lane l) f) (fun a => if isFin f32 k then cRes a.re a.im (Machine.fadd f32 .up a.env (fabs f32 k)) else VEl.every)) ∧
  (∀ a b : VEl, elAdd a b = cRes (Machine.fadd f32 .near a.re b.re) (Machine.fadd f32 .near a.im b.im) (Machine.fadd f32 .up a.env b.env) ∧
    elSub a b = cRes (Machine.fsub f32 .near a.re b.re) (Machine.fsub f32 .near a.im b.im) (Machine.fadd f32 .up a.env b.env) ∧
    elCplx a b = cRes a.re b.re (Machine.fsqrt f32 .up (Machine.fadd f32 .up (Machine.fmul f32 .up a.env a.env) (Machine.fmul f32 .up b.env b.env)))) ∧
  (∀ re im r : Nat, cRes re im r =
    let w := Machine.fmul f32 .up 0x35000000 (Machine.fmax f32 (fabs f32 re) (fabs f32 im))
    let env := Machine.fadd f32 .up r w
    if isNaN f32 re ∨ isNaN f32 im ∨ !isFin f32 env then VEl.every else ⟨re, im, env⟩)

/-- For every lane, fields and state in which the instruction issues: VARGD, VRADD, VRSUB, VRMUL, VRDIV, VRMIN, VRMAX and VRHULL write the interval of their table from elements of A and B, and VABS, VSQR, VARG, VRE, VIM, VRSQRT, VRSIN, VRCOS and VRABS (B zero) from elements of A; element by element under KG, the interval hull of old and new where KG is UNSURE; an element that is EVERY makes the result EVERY. Nothing else changes but the program counter. The intervals are the model's functions of those names; last places of angles, sines and cosines are free (log 8). The intervals of R261 are written out: bounds rounded outward, EVERY where R261 says or a bound is infinite; VARG and VARGD are EVERY where the radius is not below the modulus. A finite result has an imaginary part of 0. -/
def Obligations.RealVectorResults : Prop :=
  (∀ (s : State) (l : Fin 32) (f : FmtR), Issues s (.lane l) 4 [] [f.d.toNat, f.a.toNat, f.b.toNat] →
    let x := procOf s (.lane l)
    let R2 (c : Instr) (g : VEl → VEl → VEl) : Prop := SetsVector c s (.lane l) 4 f.d f.kg intHull (fun e =>
      if (x.vGet f.a.toNat e).isEvery ∨ (x.vGet f.b.toNat e).isEvery then VEl.every else g (x.vGet f.a.toNat e) (x.vGet f.b.toNat e))
    let R1 (c : Instr) (g : VEl → VEl) : Prop := SetsVector c s (.lane l) 4 f.d f.kg intHull (fun e =>
      if (x.vGet f.a.toNat e).isEvery then VEl.every else g (x.vGet f.a.toNat e))
    R2 (.vargd (.lane l) f) elArgd ∧ R2 (.vradd (.lane l) f) elRadd ∧ R2 (.vrsub (.lane l) f) elRsub ∧ R2 (.vrmul (.lane l) f) elRmul ∧
    R2 (.vrdiv (.lane l) f) elRdiv ∧ R2 (.vrmin (.lane l) f) elRmin ∧ R2 (.vrmax (.lane l) f) elRmax ∧ R2 (.vrhull (.lane l) f) intHull ∧
    (f.b = 0 → R1 (.vabs (.lane l) f) elAbs ∧ R1 (.vsqr (.lane l) f) elSqr ∧ R1 (.varg (.lane l) f) elArg ∧ R1 (.vre (.lane l) f) elRe ∧
      R1 (.vim (.lane l) f) elIm ∧ R1 (.vrsqrt (.lane l) f) elRsqrt ∧ R1 (.vrsin (.lane l) f) elRsin ∧ R1 (.vrcos (.lane l) f) elRcos ∧
      R1 (.vrabs (.lane l) f) elRabs)) ∧
  (∀ (a b : VEl) (la ha lb hb : Dy), a.lo = .num la → a.hi = .num ha → b.lo = .num lb → b.hi = .num hb →
    let hull4 (p q r t : Dy) : VEl := rRes (.num ((p.min q).min (r.min t))) (.num ((p.max q).max (r.max t)))
    elRadd a b = rRes (.num (la.add lb)) (.num (ha.add hb)) ∧ elRsub a b = rRes (.num (la.sub hb)) (.num (ha.sub lb)) ∧
    elRmul a b = hull4 (la.mul lb) (la.mul hb) (ha.mul lb) (ha.mul hb) ∧
    (lb.m ≤ 0 ∧ 0 ≤ hb.m → elRdiv a b = VEl.every) ∧
    (¬(lb.m ≤ 0 ∧ 0 ≤ hb.m) →
      let l := divRnd f32 .down (Dy.ofInt 1) hb
      let h := divRnd f32 .up (Dy.ofInt 1) lb
      elRdiv a b = if isFin f32 l ∧ isFin f32 h then
        hull4 (la.mul (dyOf f32 l)) (la.mul (dyOf f32 h)) (ha.mul (dyOf f32 l)) (ha.mul (dyOf f32 h)) else VEl.every) ∧
    elRmin a b = rRes (a.lo.min b.lo) (a.hi.min b.hi) ∧ elRmax a b = rRes (a.lo.max b.lo) (a.hi.max b.hi) ∧
    (a.isEvery = false → b.isEvery = false → intHull a b = rRes (a.lo.min b.lo) (a.hi.max b.hi)) ∧
    (la.m < 0 → elRsqrt a = VEl.every) ∧
    (0 < la.m → 0 < ha.m → elRsqrt a = rPat (sqrtRnd f32 .down la) (sqrtRnd f32 .up ha)) ∧
    elRe a = rRes a.lo a.hi ∧
    (0 ≤ la.m → elRabs a = rRes (.num la) (.num ha)) ∧
    (la.m < 0 → ha.m ≤ 0 → elRabs a = rRes (Bnd.num ha).neg (Bnd.num la).neg) ∧
    (la.m < 0 → 0 < ha.m → elRabs a = rRes (.num (Dy.ofInt 0)) ((Bnd.num la).neg.max (.num ha))) ∧
    (ha.fx - la.fx ≥ 2 * fxPi → elRsin a = rPat 0xBF800000 0x3F800000 ∧ elRcos a = rPat 0xBF800000 0x3F800000)) ∧
  (∀ a : VEl,
    let lo := Machine.fsub f32 .down (modF .down a.re a.im) a.env
    let hi := Machine.fadd f32 .up (modF .up a.re a.im) a.env
    let pos := Machine.fmax f32 0 lo
    elAbs a = rPat pos hi ∧ elSqr a = rPat (Machine.fmul f32 .down pos pos) (Machine.fmul f32 .up hi hi) ∧
    elIm a = elRe ⟨a.im, 0, a.env⟩) ∧
  (∀ (k : Nat) (l : List Nat) (re im r : Dy), ((re.mul re).add (im.mul im)).le (r.mul r) = true → argRes k l re im r = VEl.every) ∧
  (∀ lo hi : Nat, (rPat lo hi = VEl.every ∨ (rPat lo hi).im = 0))

/-- For every lane, fields and state in which the instruction issues: VMOV copies A; VSPLAT (B below 4) writes element B of A everywhere; VSEL writes A's element where KG is TRUE, B's where FALSE, their disc hull where UNSURE, into every element of D; VSUMC, VRMAXR and VRMINR write the sum, the largest and the smallest of A's four elements everywhere; VFROMI writes the nearest binary32 of signed scalar A with its error rounded up; VFROMF (B zero) and VSPLATI write the binary32 with half-width 0, or EVERY where it is not finite; VINS (B below 4) writes element 0 of A into element B of D; VTOS (B below 12) writes the real, imaginary or half-width pattern of element B[1:0] of A into scalar D. VSEL apart, all are governed by KG. Nothing else changes but the program counter. -/
def Obligations.VectorMoves : Prop :=
  (∀ (s : State) (l : Fin 32) (f : FmtR), Issues s (.lane l) 4 [f.d.toNat, f.a.toNat] [f.d.toNat, f.a.toNat, f.b.toNat] →
    let x := procOf s (.lane l)
    let a (e : Nat) := x.vGet f.a.toNat e
    let V (c : Instr) (hull : VEl → VEl → VEl) (g : Nat → VEl) : Prop := SetsVector c s (.lane l) 4 f.d f.kg hull g
    V (.vmov (.lane l) f) discHull a ∧
    (f.b.toNat < 4 → V (.vsplat (.lane l) f) discHull (fun _ => a f.b.toNat) ∧
      V (.vins (.lane l) f) discHull (fun e => if e = f.b.toNat then a 0 else x.vGet f.d.toNat e)) ∧
    SetsVector (.vsel (.lane l) f) s (.lane l) 4 f.d 0 discHull (fun e => match x.kGet f.kg.toNat e with
      | 1 => a e
      | 0 => x.vGet f.b.toNat e
      | _ => discHull (a e) (x.vGet f.b.toNat e)) ∧
    V (.vsumc (.lane l) f) discHull (fun _ => elSumc [a 0, a 1, a 2, a 3]) ∧
    V (.vrmaxr (.lane l) f) intHull (fun _ => elMaxr [a 0, a 1, a 2, a 3]) ∧
    V (.vrminr (.lane l) f) intHull (fun _ => elMinr [a 0, a 1, a 2, a 3]) ∧
    V (.vfromi (.lane l) f) discHull (fun _ => elFromi (sReg s (.lane l) f.a).toInt) ∧
    (f.b = 0 → V (.vfromf (.lane l) f) discHull (fun _ =>
      let w := (sReg s (.lane l) f.a).toNat % 2 ^ 32
      if isFin f32 w then ⟨w, 0, 0⟩ else VEl.every)) ∧
    (f.b.toNat < 12 → ScalarResult (.vtos (.lane l) f) s (.lane l) 4 f.d f.kg (BitVec.ofNat 64 (
      let e := a (f.b.toNat % 4)
      match f.b.toNat / 4 with
      | 0 => e.re
      | 1 => e.im
      | _ => e.env)))) ∧
  (∀ (s : State) (l : Fin 32) (f : FmtX), Issues s (.lane l) 8 [] [f.d.toNat] →
    SetsVector (.vsplati (.lane l) f) s (.lane l) 8 f.d f.kg discHull (fun _ =>
      if isFin f32 f.imm32.toNat then ⟨f.imm32.toNat, 0, 0⟩ else VEl.every))

/-- For every lane, fields with the zero bits zero, and state in which the instruction issues: VCMP compares elements of A and B as intervals [la, ha] and [lb, hb]: GT is TRUE when la > hb and FALSE when ha <= lb; GE TRUE when la >= hb, FALSE when ha < lb; LT TRUE when ha < lb, FALSE when la >= hb; LE TRUE when ha <= lb, FALSE when la > hb; EQ TRUE when la = ha = lb = hb, FALSE when ha < lb or hb < la; NE the reverse; UNSURE in every other case and where an element is EVERY. KD takes the outcome of each element under KG (R208). Nothing else changes but the program counter. -/
def Obligations.IntervalComparisons : Prop :=
  ∀ (s : State) (l : Fin 32) (f : FmtC), f.z = 0 → Issues s (.lane l) 4 [] [f.a.toNat, f.b.toNat] →
    let x := procOf s (.lane l)
    let a (e : Nat) := x.vGet f.a.toNat e
    let b (e : Nat) := x.vGet f.b.toNat e
    let R (c : Instr) (t u : Bnd → Bnd → Bnd → Bnd → Prop) [∀ p q r v, Decidable (t p q r v)] [∀ p q r v, Decidable (u p q r v)] : Prop :=
      SetsPredicate c s (.lane l) f.kd f.kg (fun e =>
        if (a e).isEvery ∨ (b e).isEvery then 2
        else if t (a e).lo (a e).hi (b e).lo (b e).hi then 1
        else if u (a e).lo (a e).hi (b e).lo (b e).hi then 0 else 2)
    R (.vcmpGt (.lane l) f) (fun la _ _ hb => ¬(la.le hb = true)) (fun _ ha lb _ => ha.le lb = true) ∧
    R (.vcmpGe (.lane l) f) (fun la _ _ hb => hb.le la = true) (fun _ ha lb _ => ¬(lb.le ha = true)) ∧
    R (.vcmpLt (.lane l) f) (fun _ ha lb _ => ¬(lb.le ha = true)) (fun la _ _ hb => hb.le la = true) ∧
    R (.vcmpLe (.lane l) f) (fun _ ha lb _ => ha.le lb = true) (fun la _ _ hb => ¬(la.le hb = true)) ∧
    R (.vcmpEq (.lane l) f) (fun la ha lb hb => la.le ha = true ∧ ha.le la = true ∧ la.le lb = true ∧ lb.le la = true ∧ lb.le hb = true ∧ hb.le lb = true)
      (fun la ha lb hb => ¬(lb.le ha = true) ∨ ¬(la.le hb = true)) ∧
    R (.vcmpNe (.lane l) f) (fun la ha lb hb => ¬(lb.le ha = true) ∨ ¬(la.le hb = true))
      (fun la ha lb hb => la.le ha = true ∧ ha.le la = true ∧ la.le lb = true ∧ lb.le la = true ∧ lb.le hb = true ∧ hb.le lb = true)

/-- For every processor, fields and state in which the instruction issues, LDB, LDH, LDW and LDD (n = 1, 2, 4, 8 bytes) and STB, STH, STW and STD form the address A + OFS × n in 64 bits. Under a governing predicate that is not TRUE only the program counter moves, by 4. Otherwise an address that is no multiple of n raises ALIGN (code 3) with that address and nothing loaded or stored; an address in no space that the profile permits for this access raises ADDR (code 4); and else a load writes D with the n bytes there, little-endian and zero-extended, and changes nothing else but the program counter (but where a word among them holds an uncorrectable error, the load raises ECC, code 9, with its address, R232), and a store changes the n bytes there to the low n bytes of D, and no other byte and no register. An LDW or STW of a core in the register space is a read or a write of that register (01 R34), with its effects. -/
def Obligations.ScalarMemoryAccess : Prop :=
  ∀ (s : State) (p : Proc) (f : FmtM), Issues s p 4 [f.d.toNat, f.a.toNat] [] →
    let form (n : Nat) (ld st : Instr) : Prop :=
      let a := (sReg s p f.a + f.ofs.signExtend 64 * BitVec.ofNat 64 n).toNat
      (¬Governed s p f.kg → OnlySteps ld s p 4 ∧ OnlySteps st s p 4) ∧
      (Governed s p f.kg → a % n ≠ 0 → exec ld s = .next (raiseExc s p 3 0 a) ∧ exec st s = .next (raiseExc s p 3 0 a)) ∧
      (Governed s p f.kg → a % n = 0 →
        (match spaceOf s p a n false (n == 4) with
        | none => exec ld s = .next (raiseExc s p 4 0 a)
        | some (.dev off) => exec ld s = .next (advance (onProc (regRead s off).1 p (fun x =>
            x.sSet f.d.toNat (ofLe (leBytes 4 (regRead s off).2)))) p 4)
        | some sp =>
          (match ueIn s n sp with
          | some u => exec ld s = .next (raiseExc (eccUe s u.1 0 u.2.2) p 9 0 a)
          | none => SetsScalar ld s p 4 f.d (BitVec.ofNat 64 (ofLe ((List.range n).map (fun j => Space.byte s j sp)))))) ∧
        (match spaceOf s p a n true (n == 4) with
        | none => exec st s = .next (raiseExc s p 4 0 a)
        | some sp => ∃ u, Stored sp (leBytes n (sReg s p f.d).toNat) s u ∧ exec st s = .next (advance u p 4)))
    form 1 (.ldb p f) (.stb p f) ∧ form 2 (.ldh p f) (.sth p f) ∧ form 4 (.ldw p f) (.stw p f) ∧ form 8 (.ldd p f) (.std p f)

/-- For every lane, fields and state in which the instruction issues: VLD and VST form A + 16 × OFS; an address that is no multiple of 16 raises ALIGN, one whose 48 bytes lie in no permitted space raises ADDR, and else VLD writes D element by element under KG from the four 12-byte elements there, and VST writes each TRUE element's 12 bytes, the hull of the element there and D's for an UNSURE one, and leaves a FALSE one's bytes; every other byte stays. A word with an uncorrectable error among the bytes that VLD, KLD or VST (for a hull) reads raises ECC, code 9. On any processor KLD and KST form A + OFS, D being below 8 (else ILLEGAL, code 1): KLD writes predicate D under KG from the byte there, element i in bits [2i+1:2i], a 3 read as UNSURE; KST, governed by KG, stores such a byte (on a core, which has element 0 only, the byte's other bits are free, log 19). A byte in no permitted space raises ADDR. -/
def Obligations.VectorMemoryAccess : Prop :=
  (∀ (s : State) (l : Fin 32) (f : FmtM), Issues s (.lane l) 4 [f.a.toNat] [f.d.toNat] →
    let p := Proc.lane l
    let a := (sReg s p f.a + f.ofs.signExtend 64 * 16).toNat
    (a % 16 ≠ 0 → exec (.vld p f) s = .next (raiseExc s p 3 0 a) ∧ exec (.vst p f) s = .next (raiseExc s p 3 0 a)) ∧
    (a % 16 = 0 →
      (match spaceOf s p a 48 false false with
      | none => exec (.vld p f) s = .next (raiseExc s p 4 0 a)
      | some sp =>
        (match ueIn s 48 sp with
        | some u => exec (.vld p f) s = .next (raiseExc (eccUe s u.1 0 u.2.2) p 9 0 a)
        | none => SetsVector (.vld p f) s p 4 f.d f.kg discHull
            (fun e => elOf ((List.range 12).map (fun j => Space.byte s (12 * e + j) sp))))) ∧
      (match spaceOf s p a 48 true false with
      | none => exec (.vst p f) s = .next (raiseExc s p 4 0 a)
      | some sp =>
        let old (e : Nat) := (List.range 12).map (fun j => Space.byte s (12 * e + j) sp)
        let new (e : Nat) : List Nat := match (procOf s p).kGet f.kg.toNat e with
          | 0 => old e
          | 1 => elBytes ((procOf s p).vGet f.d.toNat e)
          | _ => elBytes (discHull (elOf (old e)) ((procOf s p).vGet f.d.toNat e))
        let bad (e : Nat) : Option (Nat × Nat × Nat) := if (procOf s p).kGet f.kg.toNat e = 2 then ueIn s 12 (sp.plus (12 * e)) else none
        (∀ e u, e < 4 → (∀ i, i < e → bad i = none) → bad e = some u →
          exec (.vst p f) s = .next (raiseExc (eccUe s u.1 0 u.2.2) p 9 0 (a + 12 * e))) ∧
        ((∀ e, e < 4 → bad e = none) →
          ∃ u, Stored sp (new 0 ++ new 1 ++ new 2 ++ new 3) s u ∧ exec (.vst p f) s = .next (advance u p 4))))) ∧
  (∀ (s : State) (p : Proc) (f : FmtM), Issues s p 4 [f.a.toNat] [] →
    let a := (sReg s p f.a + f.ofs.signExtend 64).toNat
    let k (e : Nat) := (procOf s p).kGet f.d.toNat e
    if 8 ≤ f.d.toNat then exec (.kld p f) s = .next (raiseExc s p 1 0 0) ∧ exec (.kst p f) s = .next (raiseExc s p 1 0 0)
    else
      (match spaceOf s p a 1 false false with
      | none => exec (.kld p f) s = .next (raiseExc s p 4 0 a)
      | some sp =>
        (match ueIn s 1 sp with
        | some u => exec (.kld p f) s = .next (raiseExc (eccUe s u.1 0 u.2.2) p 9 0 a)
        | none => SetsPredicate (.kld p f) s p (f.d.setWidth 3) f.kg (fun e => min 2 (Space.byte s 0 sp / 4 ^ e % 4)))) ∧
      (¬Governed s p f.kg → OnlySteps (.kst p f) s p 4) ∧
      (Governed s p f.kg →
        match spaceOf s p a 1 true false with
        | none => exec (.kst p f) s = .next (raiseExc s p 4 0 a)
        | some sp =>
          if isLane p then
            ∃ u, Stored sp [k 0 + 4 * k 1 + 16 * k 2 + 64 * k 3] s u ∧ exec (.kst p f) s = .next (advance u p 4)
          else
            ∃ u n hi, hi < 64 ∧ Stored sp [k 0 + 4 * hi] { s with freeCtr := n } u ∧ exec (.kst p f) s = .next (advance u p 4)))

/-- For every state: a lane's access of n bytes at address a lies in its 64 KiB of lane-local memory from 0; from 0x10000000 in its invocation's persistent memory, whose size is STSIZE × 64 bytes for each work item at STBASE × 64 KiB in the kernel result store; from 0x20000000, reads only, in the image of its invocation's chuck; and nowhere else. A core's lies in its own 256 KiB; from 0x10000000, reads only, in the 128 KiB boot ROM; from 0x40000000 in history memory, writes only below the device reserve region; from 0x80000000, for LDW and STW alone, in the 2 MiB register window; and nowhere else. -/
def Obligations.DataSpaces : Prop :=
  (∀ (s : State) (l : Fin 32) (a n : Nat) (w word : Bool),
    (a + n ≤ 0x10000 → spaceOf s (.lane l) a n w word = some (.scratch l a)) ∧
    (0x10000 < a + n → a < 0x10000000 → spaceOf s (.lane l) a n w word = none) ∧
    (0x10000000 ≤ a → a < 0x20000000 → ∀ id i v, (laneOf s l).item = some (id, i) → invOf s id = some v →
      let size := ktStSize v.words * 64
      spaceOf s (.lane l) a n w word =
        if a - 0x10000000 + n ≤ size then some (.hist (resultBase s + ktStBase v.words * 65536 + i * size + (a - 0x10000000))) else none) ∧
    (0x20000000 ≤ a → spaceOf s (.lane l) a n true word = none ∧
      spaceOf s (.lane l) a n false word =
        if a - 0x20000000 + n ≤ Memory.le Memory.zero (chuckMem s (laneChuck s l)) 0x14 4 then some (.chuck (laneChuck s l) (a - 0x20000000))
        else none)) ∧
  (∀ (s : State) (c : Fin 4) (a n : Nat) (w word : Bool), 0 < n →
    (a + n ≤ 0x40000 → spaceOf s (.core c) a n w word = some (.core c a)) ∧
    (0x40000 < a + n → a < 0x10000000 → spaceOf s (.core c) a n w word = none) ∧
    (0x10000000 ≤ a → a + n ≤ 0x10020000 → spaceOf s (.core c) a n w word = if w then none else some (.rom (a - 0x10000000))) ∧
    (0x10020000 < a + n → 0x10000000 ≤ a → a < 0x40000000 → spaceOf s (.core c) a n w word = none) ∧
    (0x40000000 ≤ a → a + n ≤ 0x80000000 → spaceOf s (.core c) a n w word =
      if w = true ∧ reserveBase s < a - 0x40000000 + n then none else some (.hist (a - 0x40000000))) ∧
    (0x80000000 ≤ a → spaceOf s (.core c) a n w word =
      if a + n ≤ 0x80200000 ∧ word = true then some (.dev (a - 0x80000000)) else none))

/-- For every lane with a work item of invocation v, fields and state in which the instruction issues. While eight gathers are outstanding GTH and (under a TRUE KG) GFL change nothing. Otherwise GTH of MODE 0 reads indices A + e, and of MODE 1 A + e × B, as signed words, for the elements whose KG is not FALSE; one outside 0 to 196,607 raises GATHER_RANGE (code 5) and else the gather joins the lane's outstanding ones and the program counter moves on by 4. MODE 2 adds the unsigned 32-bit words at B + 4 × e, in scratch or the chuck, to A: B no multiple of 4 raises ALIGN, a word elsewhere ADDR, a word with an uncorrectable error ECC. GFL checks A alone and needs B and MODE zero. GATHER_COMPLETE of an outstanding gather removes it and writes its destination: elements of a vector register, FALSE ones kept, or a scalar register, from the content that the blank has in that cycle (gathView, 01 R16); no other register and no other part of the state changes. -/
def Obligations.GatherResults : Prop :=
  (∀ (s : State) (l : Fin 32) (f : FmtG) (id i : Nat) (v : Inv), (laneOf s l).item = some (id, i) → invOf s id = some v →
    let p := Proc.lane l
    let x := procOf s p
    let A := (sReg s p f.a).toInt
    let k : Nat := if f.dist.toNat ≤ v.epoch then v.epoch - f.dist.toNat else 2 ^ 64
    let out (n : Int) : Prop := n < 0 ∨ 196607 < n
    let adds (g : Gath) : State := setProc s p { x with gath := x.gath ++ [g], pc := (x.pc + 4) % 2 ^ 64 }
    (Issues s p 4 [f.a.toNat, f.b.toNat] [f.d.toNat] →
      (2 < f.mode.toNat → exec (.gth p f) s = .next (raiseExc s p 1 0 0)) ∧
      (f.mode.toNat ≤ 2 → 8 ≤ x.gath.length → exec (.gth p f) s = .next s) ∧
      (x.gath.length < 8 →
        (f.mode.toNat < 2 →
          let idx (e : Nat) : Int := if f.mode = 0 then A + e else A + e * (sReg s p f.b).toInt
          ((∃ e, e < 4 ∧ x.kGet f.kg.toNat e ≠ 0 ∧ out (idx e)) → exec (.gth p f) s = .next (raiseExc s p 5 0 0)) ∧
          ((∀ e, e < 4 → x.kGet f.kg.toNat e ≠ 0 → ¬out (idx e)) →
            exec (.gth p f) s = .next (adds ⟨false, f.d.toNat, k, [0, 1, 2, 3].map (fun e => (x.kGet f.kg.toNat e, (idx e).toNat))⟩))) ∧
        (f.mode = 2 →
          let b := (sReg s p f.b).toNat
          let place (e : Nat) : Option Space := match spaceOf s p ((b + 4 * e) % 2 ^ 64) 4 false false with
            | some (.hist _) => none
            | o => o
          let word (e : Nat) : Option Nat := (place e).map (fun sp => ofLe ((List.range 4).map (fun j => Space.byte s j sp)))
          let bad : Option (Nat × Nat × Nat) := ([0, 1, 2, 3].filter (fun e => x.kGet f.kg.toNat e != 0)).findSome? (fun e => (place e).bind (ueIn s 4))
          let act (e : Nat) : Prop := e < 4 ∧ x.kGet f.kg.toNat e ≠ 0
          let idx (e : Nat) : Int := A + (if x.kGet f.kg.toNat e = 0 then 0 else (word e).getD 0 : Nat)
          if b % 4 ≠ 0 then exec (.gth p f) s = .next (raiseExc s p 3 0 b)
          else
            ((∃ e, act e ∧ word e = none) → exec (.gth p f) s = .next (raiseExc s p 4 0 b)) ∧
            ((∀ e, act e → word e ≠ none) → ∀ u, bad = some u → exec (.gth p f) s = .next (raiseExc (eccUe s u.1 0 u.2.2) p 9 0 b)) ∧
            ((∀ e, act e → word e ≠ none) → bad = none →
              ((∃ e, act e ∧ out (idx e)) → exec (.gth p f) s = .next (raiseExc s p 5 0 0)) ∧
              ((∀ e, act e → ¬out (idx e)) → exec (.gth p f) s = .next
                (adds ⟨false, f.d.toNat, k, [0, 1, 2, 3].map (fun e => (x.kGet f.kg.toNat e, (idx e).toNat))⟩)))))) ∧
    (Issues s p 4 [f.a.toNat, f.d.toNat] [] →
      if f.b = 0 ∧ f.mode = 0 then
        (¬Governed s p f.kg → OnlySteps (.gfl p f) s p 4) ∧
        (Governed s p f.kg →
          (8 ≤ x.gath.length → exec (.gfl p f) s = .next s) ∧
          (x.gath.length < 8 → out A → exec (.gfl p f) s = .next (raiseExc s p 5 0 0)) ∧
          (x.gath.length < 8 → ¬out A → exec (.gfl p f) s = .next (adds ⟨true, f.d.toNat, k, [(1, A.toNat)]⟩)))
      else exec (.gfl p f) s = .next (raiseExc s p 1 0 0))) ∧
  (∀ (s : State) (l : Fin 32) (n : Nat) (g : Gath), (laneOf s l).gath[n]? = some g →
    ∃ x : ProcS, exec (.gatherComplete l n) s = .next (setLane s l x) ∧
      x = { laneOf s l with gath := (laneOf s l).gath.eraseIdx n, s := x.s, v := x.v } ∧
      (g.isFlag = true → x.v = (laneOf s l).v ∧ ∀ r, x.sGet r = if r = g.dest ∧ r ≠ 0 then
        (match g.el with | (_, i) :: _ => gatherFl (gathView s (laneOf s l) g.epoch) g.epoch i | [] => 0) % 2 ^ 64 else (laneOf s l).sGet r) ∧
      (g.isFlag = false → g.el.length = 4 → x.s = (laneOf s l).s ∧ ∀ r e, e < 4 → x.vGet r e =
        match g.el[e]? with
        | some (q, i) => if r ≠ g.dest ∨ q = 0 then (laneOf s l).vGet r e
          else if q = 1 then gatherEl (gathView s (laneOf s l) g.epoch) g.epoch i
          else discHull ((laneOf s l).vGet r e) (gatherEl (gathView s (laneOf s l) g.epoch) g.epoch i)
        | none => (laneOf s l).vGet r e))

/-- For a lane whose work item i belongs to invocation v, with no gather outstanding, where the instruction issues. Where an end of the work item that is no END falls due in this core cycle (CYCLES, BUDGET, retirement) all three do nothing (R274). Else RES under a TRUE KG: A or B no multiple of 8 raises ALIGN, B above 224 or a payload in no space ADDR; else, with room for 32 + B bytes in the entry's result ring, the ring gains the record of R228 with the next RSEQ, and without it SSK_RES_OVF counts, saturating; a re-run for the twin writes nothing. CHUT under a TRUE KG: A no multiple of 8 raises ALIGN, a count of 0 or above 8, or a payload in no space, ADDR; else the entry's chute is offered the item of B words (the low byte of its CODE free: DESIGN CHOICE, log 20) and D receives 1 where it was taken and 0 where it was refused. ALRM with element EL of KN TRUE counts a request and asserts line LINE where ALARMS of the entry permits it, and counts a denial where it does not. A payload with an uncorrectable error raises ECC. A governed-off RES or CHUT, and an ALRM whose element is not TRUE, only move on. ALRM with non-zero zero bits raises ILLEGAL. -/
def Obligations.ResultsItemsAndAlarms : Prop :=
  ∀ (s : State) (l : Fin 32) (i : Nat) (v : Inv), (laneOf s l).item = some (v.id, i) → invOf s v.id = some v → (laneOf s l).gath = [] →
    let p := Proc.lane l
    (endsNow s p (laneOf s l) = true →
      (∀ f : FmtR, Issues s p 4 [f.d.toNat, f.a.toNat, f.b.toNat] [] → exec (.res p f) s = .next s ∧ exec (.chut p f) s = .next s) ∧
      (∀ f : FmtA, Issues s p 4 [] [] → f.z = 0 → exec (.alrm p f) s = .next s)) ∧
    (∀ f : FmtR, endsNow s p (laneOf s l) = false → Issues s p 4 [f.d.toNat, f.a.toNat, f.b.toNat] [] →
      let a := (sReg s p f.a).toNat
      let n := (sReg s p f.b).toNat
      (¬Governed s p f.kg → OnlySteps (.res p f) s p 4 ∧ OnlySteps (.chut p f) s p 4) ∧
      (Governed s p f.kg →
        (a % 8 ≠ 0 ∨ n % 8 ≠ 0 → exec (.res p f) s = .next (raiseExc s p 3 0 a)) ∧
        (a % 8 = 0 → n % 8 = 0 → 224 < n ∨ (n ≠ 0 ∧ spaceOf s p a n false false = none) → exec (.res p f) s = .next (raiseExc s p 4 0 a)) ∧
        (∀ sp u, a % 8 = 0 → n % 8 = 0 → n ≤ 224 → n ≠ 0 → spaceOf s p a n false false = some sp → ueIn s n sp = some u →
          exec (.res p f) s = .next (raiseExc (eccUe s u.1 0 u.2.2) p 9 0 a)) ∧
        (∀ sp, a % 8 = 0 → n % 8 = 0 → n ≤ 224 → n = 0 ∨ (spaceOf s p a n false false = some sp ∧ ueIn s n sp = none) →
          let r := ktRing v.words
          let ring := s.ssk.rings.getD r []
          let size := bits (getC s.cfg (Reg.SSK_RRCFG r) 0 0) 27 16 * 65536
          let rec_ : RingRec := ⟨s.rseq, resBytes s.rseq v i (sReg s p f.d).toNat 0 ((List.range n).map (fun j => Space.byte s j sp))⟩
          exec (.res p f) s = .next (advance (
            if v.quiet then s
            else if size < (ring.map (fun x => x.bytes.length)).sum + 32 + n then inc s Reg.SSK_RES_OVF
            else { s with rseq := (s.rseq + 1) % 2 ^ 64, ssk := { s.ssk with rings := s.ssk.rings.set r (ring ++ [rec_]) } }) p 4)) ∧
        (a % 8 ≠ 0 → exec (.chut p f) s = .next (raiseExc s p 3 0 a)) ∧
        (a % 8 = 0 → n = 0 ∨ 8 < n ∨ spaceOf s p a (8 * n) false false = none → exec (.chut p f) s = .next (raiseExc s p 4 0 a)) ∧
        (∀ sp u, a % 8 = 0 → 0 < n → n ≤ 8 → spaceOf s p a (8 * n) false false = some sp → ueIn s (8 * n) sp = some u →
          exec (.chut p f) s = .next (raiseExc (eccUe s u.1 0 u.2.2) p 9 0 a)) ∧
        (∀ sp, a % 8 = 0 → 0 < n → n ≤ 8 → spaceOf s p a (8 * n) false false = some sp → ueIn s (8 * n) sp = none → v.quiet = false →
          let word (w : Nat) : Nat := ofLe ((List.range 8).map (fun j => Space.byte s (8 * w + j) sp))
          ∃ tag, tag < 256 ∧ ∃ s', s' = { s with freeCtr := s'.freeCtr } ∧
            let r := pushTo s' (ktChute v.words) ⟨1, v.entry, v.prov, 0x0100 + tag, ktPrio v.words, nowNs s, (List.range n).map word⟩
              (some ⟨l.val, (laneOf s l).item, f.d.toNat⟩)
            exec (.chut p f) s = .next (advance (onProc r.1 p (fun x => x.sSet f.d.toNat (if r.2 then 1 else 0))) p 4) ∧
            let c := chuteOf s (ktChute v.words)
            (r.2 = true → c.taken + n + 3 ≤ 32) ∧ (c.taken + n + 3 ≤ 32 → c.flushed ≠ some s.cycle → r.2 = true)))) ∧
    (∀ f : FmtA, Issues s p 4 [] [] →
      if f.z = 0 then endsNow s p (laneOf s l) = false →
        exec (.alrm p f) s = .next (advance (
          if v.quiet = true ∨ (procOf s p).kGet f.kn.toNat f.el.toNat ≠ 1 then s
          else if (ktAlarms v.words).testBit f.line.toNat then
            assertLine (inc s Reg.SSK_ALARM_REQ) f.line.toNat (almSrc 3 v.point v.entry 0) v.epoch
          else inc s Reg.SSK_ALARM_DENIED) p 4)
      else exec (.alrm p f) s = .next (raiseExc s p 1 0 0))

/-- For a lane whose work item i belongs to invocation v and where the instruction issues. END, its register fields zero, KG TRUE and no gather outstanding, ends the work item: the lane has none, its other contents stay, every other lane and invocation stays, and v has one running item fewer, or leaves where that was the last of all its items, or of a cut one. An exception with a code and an argument (a TRAP raises code 10 with its argument) ends the work item in the same way, after a closing record (R230) where the result ring of the entry has room for its 32 bytes, and it counts in SSK_EXC; in a re-run for the twin nothing is written or counted. The lane is then idle, which acknowledges a lane that is asked out of service (R74). -/
def Obligations.WorkItemEnds : Prop :=
  ∀ (s : State) (l : Fin 32) (i : Nat) (v : Inv), s.ssk.lanes.length = 32 → (laneOf s l).item = some (v.id, i) → invOf s v.id = some v →
    let p := Proc.lane l
    let ends (u : State) : Prop :=
      u.ssk.lanes = s.ssk.lanes.set l { laneOf s l with item := none, gath := [] } ∧
      (∀ id, id ≠ v.id → invOf u id = invOf s id) ∧
      (if v.running ≤ 1 ∧ (v.cut = true ∨ v.sent = ktWork v.words) then invOf u v.id = none
       else ∃ w, invOf u v.id = some w ∧ w.running = v.running - 1 ∧ w.sent = v.sent ∧ w.cut = v.cut ∧ w.words = v.words ∧ w.entry = v.entry)
    let raises (code arg : Nat) : Prop :=
      ∃ u, raiseExc s p code arg 0 = laneIdle u l ∧ ends u ∧
        ChangesOnly [.ssk, .regs, .rseq, .chutes, .dma, .nvs, .cap, .pins] s u ∧
        (v.quiet = true → rd u Reg.SSK_EXC = rd s Reg.SSK_EXC ∧ u.ssk.rings = s.ssk.rings) ∧
        (v.quiet = false → rd u Reg.SSK_EXC = min (rd s Reg.SSK_EXC + 1) (2 ^ 32 - 1) ∧
          let r := ktRing v.words
          let ring := s.ssk.rings.getD r []
          u.ssk.rings = if bits (getC s.cfg (Reg.SSK_RRCFG r) 0 0) 27 16 * 65536 < (ring.map (fun x => x.bytes.length)).sum + 32 then s.ssk.rings
            else s.ssk.rings.set r (ring ++ [⟨s.rseq, resBytes s.rseq v i (code + arg * 256) (if code = 7 ∨ code = 8 then 10 else 8) []⟩]))
    (∀ f : FmtR, Issues s p 4 [] [] → Governed s p f.kg → f.d = 0 → f.a = 0 → f.b = 0 → (laneOf s l).gath = [] →
      ∃ u, exec (.endOp p f) s = .next (laneIdle u l) ∧ ends u ∧ ChangesOnly [.ssk] s u) ∧
    (∀ f : FmtR, Issues s p 4 [] [] → Governed s p f.kg → f.b = 0 → f.a.toNat % 4 = 0 →
      exec (.trap p f) s = .next (raiseExc s p 10 (f.d.toNat * 8 + f.a.toNat / 4) 0)) ∧
    (∀ code arg, raises code arg) ∧
    (∀ u : State, u.sys.oosLane.testBit l = false → laneIdle u l = u)

/-- For a management core where the instruction issues under a TRUE KG. SRGET writes D with system register A × 32 + B: FLT_ENTRY, FLT_PC, FLT_CODE, FLT_ADDR, FLT_SCRATCH, CORE_ID, the cycle counter, WAKE_EN, WAKE_PEND (chutes with items, fired compare slots, the signal, which this read clears), 0 where none is listed. SRPUT writes FLT_ENTRY, FLT_PC, FLT_SCRATCH, the six bits of WAKE_EN, raises the signal of the cores named, or restarts the watchdog; a read-only register keeps its value and a number not listed raises ILLEGAL. RESUME continues at FLT_PC and clears the fault flag. DOZE moves on where an enabled wake condition holds and else stalls the core, and DOZE_WAKE completes it when one holds. TRAP raises code 10 with its argument. An exception saves the program counter, code and address, sets the fault flag and continues at FLT_ENTRY; one raised with the flag set is a watchdog expiry. TICKS writes D with the core cycles since the processor's start, two a fabric cycle. Nothing else of the part changes. On a lane SRGET, SRPUT, RESUME and DOZE raise ILLEGAL. -/
def Obligations.CoreSystemInstructions : Prop :=
  (∀ (s : State) (c : Fin 4) (f : FmtR), Issues s (.core c) 4 [] [] → Governed s (.core c) f.kg →
    let p := Proc.core c
    let x := procOf s p
    let on (y : ProcS) : State := setProc s p { y with pc := (x.pc + 4) % 2 ^ 64 }
    let n := f.a.toNat * 32 + f.b.toNat
    let v := (sReg s p f.d).toNat
    let pend := (if (chuteOf s 0).items = [] then 0 else 1) + (if (chuteOf s 1).items = [] then 0 else 2)
      + (if (chuteOf s 2).items = [] then 0 else 4) + (if (chuteOf s 3).items = [] then 0 else 8)
      + (if rd s Reg.TIME_CMP_FIRED_LO = 0 ∧ rd s Reg.TIME_CMP_FIRED_HI = 0 then 0 else 16) + (if x.sig then 32 else 0)
    let reads := match n with
      | 0 => x.fltEntry | 1 => x.fltPc | 2 => x.fltCode | 3 => x.fltAddr | 4 => x.fltScratch | 16 => c.val
      | 17 => 2 * (s.cycle - x.start) | 32 => x.wakeEn | 33 => pend | _ => 0
    (∃ t : Tab Nat, exec (.srget p f) s = .next (on { x with s := t, sig := x.sig && decide (n ≠ 33) }) ∧
      ∀ r, ({ x with s := t } : ProcS).sGet r = if r = f.d.toNat ∧ r ≠ 0 then reads % 2 ^ 64 else x.sGet r) ∧
    (match n with
    | 0 => exec (.srput p f) s = .next (on { x with fltEntry := v })
    | 1 => exec (.srput p f) s = .next (on { x with fltPc := v })
    | 4 => exec (.srput p f) s = .next (on { x with fltScratch := v })
    | 32 => exec (.srput p f) s = .next (on { x with wakeEn := v % 64 })
    | 34 => exec (.srput p f) s = .next (advance (signalCores s v) p 4)
    | 48 => exec (.srput p f) s = .next (on { x with wdogAt := s.cycle })
    | 2 | 3 | 16 | 17 | 33 => exec (.srput p f) s = .next (on x)
    | _ => exec (.srput p f) s = .next (raiseExc s p 1 0 0)) ∧
    (f.b = 0 → f.a.toNat % 4 = 0 → exec (.trap p f) s = .next (raiseExc s p 10 (f.d.toNat * 8 + f.a.toNat / 4) 0)) ∧
    (f.d = 0 → f.a = 0 → f.b = 0 →
      exec (.resume p f) s = .next (setProc s p { x with pc := x.fltPc, fault := false }) ∧
      (pend &&& x.wakeEn ≠ 0 → exec (.doze p f) s = .next (on x)) ∧
      (pend &&& x.wakeEn = 0 → exec (.doze p f) s = .next (setProc s p { x with dozing := true })))) ∧
  (∀ (s : State) (c : Fin 4), (procOf s (.core c)).dozing = true →
    let x := procOf s (.core c)
    (wakePend s x &&& x.wakeEn ≠ 0 → exec (.dozeWake c) s = .next (setProc s (.core c) { x with dozing := false, pc := (x.pc + 4) % 2 ^ 64 })) ∧
    (wakePend s x &&& x.wakeEn = 0 → exec (.dozeWake c) s = .next s)) ∧
  (∀ (s : State) (c : Fin 4) (code arg addr : Nat),
    let x := procOf s (.core c)
    raiseExc s (.core c) code arg addr = if x.fault then coreExpiry s c
      else setProc s (.core c) { x with fault := true, fltPc := x.pc, fltCode := code + arg * 256, fltAddr := addr, pc := x.fltEntry }) ∧
  (∀ (s : State) (p : Proc) (f : FmtR), Issues s p 4 [f.d.toNat] [] → f.a = 0 → f.b = 0 →
    ScalarResult (.ticks p f) s p 4 f.d f.kg (BitVec.ofNat 64 (2 * (s.cycle - (procOf s p).start)))) ∧
  (∀ (s : State) (l : Fin 32) (f : FmtR), Issues s (.lane l) 4 [] [] →
    ∀ c ∈ [Instr.srget (.lane l) f, .srput (.lane l) f, .resume (.lane l) f, .doze (.lane l) f],
      exec c s = .next (raiseExc s (.lane l) 1 0 0))

/-- In every state with 32 lanes, for a lane that is idle, in service, powered and in a mode that runs kernels: of the invocations that may dispatch (not cut, items left, no earlier invocation of the same entry still there), the one first by PRIO, then evaluation point, then entry, then age, gives its next item. The lane then has s1 the item's index, s2 WORK, s3 the epoch index, s4 POINT, amendment number and provisional flag, s5 TIME_GEN, every other scalar 0, every vector element EVERY, k1 to k7 UNSURE, no gather, the entry's address as program counter and this cycle as its start; the invocation has one more item sent and running; every other lane and invocation stays; the lane's scratch memory has nothing written yet; and nothing else changes but a kernel-table entry found bad, which is reloaded from its shadow and counted in SSK_KT_PARITY (R221). A lane that may not take work, or with nothing to dispatch, changes nothing. -/
def Obligations.WorkItemDispatch : Prop :=
  ∀ (s : State) (l : Fin 32),
    let ready (v : Inv) : Prop := v ∈ s.ssk.invs ∧ v.cut = false ∧ v.sent < ktWork v.words ∧ ∀ u ∈ s.ssk.invs, u.entry = v.entry → v.id ≤ u.id
    let before (a b : Inv) : Prop := ktPrio b.words < ktPrio a.words ∨ (ktPrio a.words = ktPrio b.words ∧
      (a.evalAt < b.evalAt ∨ (a.evalAt = b.evalAt ∧ (a.entry < b.entry ∨ (a.entry = b.entry ∧ a.id < b.id)))))
    (laneFree s l = false ∨ (∀ v, ¬ready v) → exec (.workItemDispatch l) s = .next s) ∧
    (∀ v, s.ssk.lanes.length = 32 → laneFree s l = true → ready v → (∀ u, ready u → u ≠ v → before v u) →
      ∃ t, exec (.workItemDispatch l) s = .next t ∧ ChangesOnly [.ssk, .regs, .cfg] s t ∧ RegsBut [Reg.SSK_KT_PARITY] s t ∧
        (v.entry ∉ s.ssk.ktBad → ChangesOnly [.ssk] s t) ∧
        (v.entry ∈ s.ssk.ktBad → rd t Reg.SSK_KT_PARITY = min (rd s Reg.SSK_KT_PARITY + 1) (2 ^ 32 - 1) ∧ v.entry ∉ t.ssk.ktBad) ∧
        t.ssk.scratch = s.ssk.scratch.set l [] ∧
        (∀ m, m ≠ l.val → laneOf t m = laneOf s m) ∧
        t.ssk.invs = s.ssk.invs.map (fun u => if u.id = v.id then { v with sent := v.sent + 1, running := v.running + 1 } else u) ∧
        let x := laneOf t l
        x.item = some (v.id, v.sent) ∧ x.pc = 0x20000000 + 4 * ktEntry v.words ∧ x.start = s.cycle ∧ x.gath = [] ∧
        (∀ r, x.sGet r = match r with
          | 1 => v.sent % 2 ^ 64
          | 2 => ktWork v.words % 2 ^ 64
          | 3 => v.epoch % 2 ^ 64
          | 4 => (v.point + v.amend % 256 * 256 + (if v.point = 0 then 65536 else 0)) % 2 ^ 64
          | 5 => v.timeGen % 2 ^ 64
          | _ => 0) ∧
        ∀ r e, x.vGet r e = VEl.every ∧ (r ≠ 0 → x.kGet r e = 2))

/-- In every state with 32 lanes. CYCLES_LIMIT of a lane with a work item of invocation v raises code 6 in the cycle that lies CYCLES × 16 core cycles after the item's start (two core cycles a fabric cycle), or at once where that is past. BUDGET_CUT of an invocation v whose count of running items is the number of lanes that hold its items: from BUDGET_US µs after its evaluation point, or at once where that is past, SSK_BUDGET_CUT counts, saturating; no lane holds an item of v; and v has left. Both leave the commands, the configuration copies and the memories as they were. A lane without a work item, and a cut of an invocation that is not there, change nothing. -/
def Obligations.WorkItemLimits : Prop :=
  ∀ (s : State), s.ssk.lanes.length = 32 →
    (∀ (l : Fin 32), (laneOf s l).item = none → exec (.cyclesLimit l) s = .next s) ∧
    (∀ (l : Fin 32) (i : Nat) (v : Inv), (laneOf s l).item = some (v.id, i) → invOf s v.id = some v →
      exec (.cyclesLimit l) s = .next (raiseExc (passCyc s ((laneOf s l).start + ktCycles v.words * 8)) (.lane l) 6 0 0)) ∧
    (∀ n, invOf s n = none → exec (.budgetCut n) s = .next s) ∧
    (∀ v : Inv, invOf s v.id = some v →
      v.running = ((List.range 32).filter (fun l => ((laneOf s l).item.map (·.1)) == some v.id)).length →
      ∃ t, exec (.budgetCut v.id) s = .next t ∧ invOf t v.id = none ∧ (∀ l i, l < 32 → (laneOf t l).item ≠ some (v.id, i)) ∧
        rd t Reg.SSK_BUDGET_CUT = min (rd s Reg.SSK_BUDGET_CUT + 1) (2 ^ 32 - 1) ∧
        t.cycle = max s.cycle (v.evalAt + ktBudget v.words * 500) ∧
        t.pending = s.pending ∧ t.cfg = s.cfg ∧ t.cfgPend = s.cfgPend ∧ t.hist = s.hist ∧ t.ssk.chucks = s.ssk.chucks ∧
        t.ssk.scratch = s.ssk.scratch ∧ t.ssk.coreMem = s.ssk.coreMem ∧ t.ssk.cores = s.ssk.cores)

/-- In every state in which SSK's registers are not gated. VERIFY puts the idle chuck's content state to VERIFYING (2) where it is LOADING, FAILED or VERIFIED and is ignored elsewhere. SSK_VERIFY_COMPLETE with a chuck in VERIFYING puts it to VERIFIED (3) where no check of the image fails and to FAILED (4) where one does, with the first failing check's code in SSK_VERIFY_STATUS and a Drill Log record of the refusal (02 R52), where VERIFIED leaves the low half of the image's VERSION word there; without one it changes nothing. ERASE is refused, and WR_REFUSED set, while the chuck is retiring or locked or is being verified; else the idle chuck reads zero below the kernel tables' shadow, keeps that shadow, and is EMPTY (0). Nothing else changes but SSK_CHUCK_SEL, which shows the idle chuck's state, and the Drill Log for that record. -/
def Obligations.ProgramSets : Prop :=
  ∀ (s : State), gated s Reg.SSK_CTRL = false → s.ssk.chuckSt.length = 2 → s.ssk.chucks.length = 2 →
    let i := if (rd s Reg.SSK_CHUCK_SEL).testBit 0 then 0 else 1
    let st := s.ssk.chuckSt.getD i 0
    let refused : Prop := (rd s Reg.SSK_CHUCK_SEL).testBit 2 ∨ (rd s Reg.SSK_CHUCK_SEL).testBit 4 ∨ st = 2
    let shows (t : State) : Prop := ∀ k, t.ssk.chuckSt.getD i 0 = k → k < 8 → bits (rd t Reg.SSK_CHUCK_SEL) 7 5 = k
    (st = 1 ∨ st = 3 ∨ st = 4 → ∃ t, exec .sskVerify s = .next t ∧ t.ssk = { s.ssk with chuckSt := s.ssk.chuckSt.set i 2 } ∧ shows t ∧
      ChangesOnly [.ssk, .regs] s t ∧ RegsBut [Reg.SSK_CHUCK_SEL] s t) ∧
    (st ≠ 1 → st ≠ 3 → st ≠ 4 → exec .sskVerify s = .next s) ∧
    ((∀ k, s.ssk.chuckSt.getD k 0 ≠ 2) → exec .sskVerifyComplete s = .next s) ∧
    (st = 2 → s.ssk.chuckSt.getD (1 - i) 0 ≠ 2 →
      let code := imgFail s (chuckImage s i) 2
      ∃ t, exec .sskVerifyComplete s = .next t ∧ t.ssk = { s.ssk with chuckSt := s.ssk.chuckSt.set i (if code = 0 then 3 else 4) } ∧
        shows t ∧ bits (rd t Reg.SSK_VERIFY_STATUS) 7 0 = code ∧
        (code = 0 → bits (rd t Reg.SSK_VERIFY_STATUS) 23 8 = Image.le (chuckImage s i) 0x10 4 % 65536 ∧ ChangesOnly [.ssk, .regs] s t) ∧
        ChangesOnly [.ssk, .regs, .freeCtr, .rseq, .dma, .nvs] s t ∧
        RegsBut [Reg.SSK_CHUCK_SEL, Reg.SSK_VERIFY_STATUS, Reg.NVS_LOG_DROPPED, Reg.NVS_LOG_QDROP, Reg.NVS_STATUS] s t) ∧
    ((refused → ∃ t, exec .sskErase s = .next t ∧ ChangesOnly [.regs] s t ∧ RegsBut [Reg.SSK_CHUCK_SEL] s t ∧
        rd t Reg.SSK_CHUCK_SEL = rd s Reg.SSK_CHUCK_SEL ||| 8) ∧
      (¬refused → ∃ t, exec .sskErase s = .next t ∧ ChangesOnly [.ssk, .regs] s t ∧ RegsBut [Reg.SSK_CHUCK_SEL] s t ∧ shows t ∧
        t.ssk.chuckSt = s.ssk.chuckSt.set i 0 ∧ chuckMem t (1 - i) = chuckMem s (1 - i) ∧
        ∀ a, Tab.get Memory.zero (chuckMem t i) a = if a < 0xFF000 then 0 else Tab.get Memory.zero (chuckMem s i) a))

/-- For every state and every word offset of the 2 MiB BAR: an access to an offset that no register occupies, the undecoded region included, and a write whose byte enables are not all set, are decode errors. A read that is one returns 0, and a write that is one changes no register and no other part of the device, but for the error's own record: where DECODE_ERR is clear the error sets it, with its item and its signals, and SYS_BADADDR takes the word offset, with PARTIAL for a partial write and WRITE for a write; where it is set nothing at all changes. An access outside both BARs (BAR2, the MSI-X table, is numbered from 0x200000: DESIGN CHOICE, log 153) or off a word ends in the fault outsideBar (01 R32, R34): no access of this part. -/
def Obligations.AccessesOfNoRegister : Prop :=
  ∀ (s : State) (off : Nat) (v : Word) (be : BitVec 4), off < 0x200000 → off % 4 = 0 →
    let errs (c : Instr) (t : State) (w part : Bool) : Prop :=
      exec c s = .next t ∧ (rd s Reg.SYS_HEALTH % 2 = 1 → ChangesOnly [.hostData] s t) ∧
        (rd s Reg.SYS_HEALTH % 2 = 0 → ChangesOnly (.hostData :: itemParts) s t ∧ RegsBut (Reg.SYS_HEALTH :: Reg.SYS_BADADDR :: itemRegs) s t ∧
          rd t Reg.SYS_HEALTH = rd s Reg.SYS_HEALTH + 1 ∧
          rd t Reg.SYS_BADADDR = off + (if part then 2 else 0) + (if w then 1 else 0))
    (occupied off = false →
      (∃ t, errs (.decodeErrorAccess off false v be) t false false ∧ t.hostData = 0) ∧
      (be = 15 → ∃ t, errs (.decodeErrorAccess off true v be) t true false ∧ t.hostData = s.hostData) ∧
      (be = 15 → ∃ t, errs (.registerWrite off v be) t true false ∧ t.hostData = s.hostData)) ∧
    (be ≠ 15 →
      (∃ t, errs (.decodeErrorAccess off true v be) t true true ∧ t.hostData = s.hostData) ∧
      (∃ t, errs (.registerWrite off v be) t true true ∧ t.hostData = s.hostData)) ∧
    (0x150000 ≤ off → occupied off = false) ∧
    (∀ o, 0x210000 ≤ o ∨ o % 4 ≠ 0 → ∀ w, exec (.decodeErrorAccess o w v be) s = .fault .outsideBar ∧ exec (.registerWrite o v be) s = .fault .outsideBar)

/-- For every state and every register that a full-word write changes by its access codes alone (those of SYS, PWR, OUT, KEY, NRG and CAP and of the host interface's control block whose description gives a write no further effect), in a block that is not gated: the register's RW bits are the written ones, its W1C bits are clear where 1 was written, unless hardware has set them in this fabric cycle (00 R10), every other bit, the reserved ones among them, stays, and no other register and no other part of the device changes. A register that changes under a transaction takes the written RW bits into the pending copy while TXN_STATUS.STATE is OPEN, and otherwise changes nothing but TXN_STATUS.STRAY, which is set. In a gated block a full-word write changes nothing, and a read returns 0. -/
def Obligations.RegisterWrites : Prop :=
  ∀ (s : State) (off : Nat) (v : Word) (r : RegRow), off < 0x200000 → off % 4 = 0 → regRow? off = some r → winAt? off = none → winData? off = none →
    let plain : Prop := off ∉ txnRegs ∧
      ((off / 0x10000 = 0 ∧ off ∉ [Reg.TXN_CTRL, Reg.TXN_TARGET_LO, Reg.TXN_TARGET_HI, Reg.SYS_OOS_LANE, Reg.SYS_OOS_UNIT, Reg.SYS_HEALTH]) ∨
       (off / 0x10000 ∈ [14, 15] ∧ off ∉ [Reg.NRG_CTRL, Reg.CAP_CTRL, Reg.CAP_STORE_BASE, Reg.CAP_STORE_SIZE]) ∨
       (off / 0x10000 = 12 ∧ off < Reg.RING_CTRL 0) ∨ off / 0x10000 ∈ [1, 11, 18])
    (gated s off = false → plain →
      ∃ t, exec (.registerWrite off v 15) s = .next t ∧ ChangesOnly [.regs] s t ∧ RegsBut [off] s t ∧
        ∀ b, b < 32 → (rd t off).testBit b =
          if r.w1c.testBit b ∧ v.toNat.testBit b then (rd s off).testBit b && (cycReg s off).2.1.testBit b else if r.rw.testBit b then v.toNat.testBit b else (rd s off).testBit b) ∧
    (gated s off = false → off ∈ txnRegs →
      (fld s Reg.TXN_STATUS 3 0 = 1 → ∃ t, exec (.registerWrite off v 15) s = .next t ∧ ChangesOnly [.cfgPend] s t ∧
        (∀ w i j, getC t.cfgPend w i j = if cfgKey w i j = cfgKey off 0 0 then v.toNat &&& r.rw else getC s.cfgPend w i j)) ∧
      (fld s Reg.TXN_STATUS 3 0 ≠ 1 → ∃ t, exec (.registerWrite off v 15) s = .next t ∧ ChangesOnly [.regs] s t ∧ RegsBut [Reg.TXN_STATUS] s t ∧
        rd t Reg.TXN_STATUS = rd s Reg.TXN_STATUS ||| 0x200)) ∧
    (gated s off = true → exec (.registerWrite off v 15) s = .next s ∧
      exec (.decodeErrorAccess off false v 15) s = .next { s with hostData := 0 })

/-- For every state and every occupied register of a block that is not gated. A full read of a register with RC bits that no shadow holds, no window's data and no log or pop register, returns its value and clears exactly those bits; what hardware set or counted in them in this fabric cycle is not in the value and stays in the register (00 R11). A full read of the low word of a 64-bit quantity returns its value and latches the high word's value of the same cycle; the next full read of the high word returns the latched value and drops it. A full read of TIME_REF_TS_SEC_LO latches both its other words. A full read of TIME_NOW_SEC_LO returns the low word of the seconds and latches the high word, the nanoseconds and the fraction; a full read of ALN_BLANK_STATE_0 returns it and latches the other three state words and ALN_NEWEST. A read with a byte enable clear changes no register, no shadow and no FIFO. A gated register reads 0 and nothing changes. -/
def Obligations.ReadsAndShadows : Prop :=
  ∀ (s : State),
    (∀ off r, off < 0x200000 → off % 4 = 0 → regRow? off = some r → winAt? off = none → winData? off = none → gated s off = false →
      norReg off = false → popRead s off = none → Tab.has s.shadow off = false → latched off = [] → off ≠ Reg.NVS_LOG_RD 15 →
      off ≠ Reg.PWR_TEMP → ∃ t, exec (.rcCounterRead off 15) s = .next t ∧
        (r.rc = 0 → t.hostData = BitVec.ofNat 32 (liveWord s off).2 ∧ ChangesOnly [.hostData] s t) ∧
        (r.rc ≠ 0 → ChangesOnly [.hostData, .regs] s t ∧ RegsBut [off] s t ∧
          let was := cycReg s off
          ∀ b, b < 32 → t.hostData.getLsbD b = (if r.rc.testBit b then was.1.testBit b else (liveWord s off).2.testBit b) ∧
            (rd t off).testBit b = (if r.rc.testBit b then (min was.2.2 (2 ^ 32 - 1) ||| was.2.1).testBit b else (liveWord s off).2.testBit b)) ∧
        (Tab.has s.cyc.regs off = false → cycReg s off = (rd s off, 0, 0))) ∧
    (∀ off h r, off < 0x200000 → off % 4 = 0 → regRow? off = some r → r.rc = 0 → gated s off = false → winData? off = none →
      popRead s off = none → norReg off = false → latched off = [h] → Tab.has s.shadow off = false →
      ∃ t, exec (.wideLowRead off 15) s = .next t ∧ t.hostData = BitVec.ofNat 32 (liveWord s off).2 ∧ ChangesOnly [.hostData, .shadow] s t ∧
        ∀ k, Tab.get (fun _ => 0) t.shadow k = if k = h then BitVec.ofNat 32 (liveWord s h).2 else Tab.get (fun _ => (0 : Word)) s.shadow k) ∧
    (∀ off, off < 0x200000 → off % 4 = 0 → occupied off = true → gated s off = false → norReg off = false → popRead s off = none →
      Tab.has s.shadow off = true →
      ∃ t, exec (.wideLowRead off 15) s = .next t ∧ t.hostData = Tab.get (fun _ => 0) s.shadow off ∧ ChangesOnly [.hostData, .shadow] s t ∧
        Tab.has t.shadow off = false) ∧
    (gated s Reg.TIME_REF_TS_SEC_LO = false → Tab.has s.shadow Reg.TIME_REF_TS_SEC_LO = false →
      ∃ t, exec (.wideLowRead Reg.TIME_REF_TS_SEC_LO 15) s = .next t ∧ ChangesOnly [.hostData, .shadow] s t ∧
        t.hostData = BitVec.ofNat 32 (rd s Reg.TIME_REF_TS_SEC_LO) ∧
        Tab.get (fun _ => 0) t.shadow Reg.TIME_REF_TS_SEC_HI = BitVec.ofNat 32 (rd s Reg.TIME_REF_TS_SEC_HI) ∧
        Tab.get (fun _ => 0) t.shadow Reg.TIME_REF_TS_NS = BitVec.ofNat 32 (rd s Reg.TIME_REF_TS_NS)) ∧
    (gated s Reg.TIME_NOW_SEC_LO = false → Tab.has s.shadow Reg.TIME_NOW_SEC_LO = false →
      ∃ t, exec (.timeNowRead 15) s = .next t ∧ ChangesOnly [.hostData, .shadow] s t ∧
        t.hostData = BitVec.ofNat 32 (nowSec s) ∧ Tab.get (fun _ => 0) t.shadow Reg.TIME_NOW_SEC_HI = BitVec.ofNat 32 (nowSec s / 2 ^ 32) ∧
        Tab.get (fun _ => 0) t.shadow Reg.TIME_NOW_NS = BitVec.ofNat 32 (nowNs s % 1000000000) ∧
        Tab.get (fun _ => 0) t.shadow Reg.TIME_NOW_FRAC = BitVec.ofNat 32 (s.now % nsU / 2 ^ 32)) ∧
    (gated s (Reg.ALN_BLANK_STATE 0) = false → Tab.has s.shadow (Reg.ALN_BLANK_STATE 0) = false →
      ∃ t, exec (.blankStateRead 15) s = .next t ∧ ChangesOnly [.hostData, .shadow] s t ∧
        t.hostData = BitVec.ofNat 32 (rd s (Reg.ALN_BLANK_STATE 0)) ∧
        ∀ r ∈ [Reg.ALN_BLANK_STATE 1, Reg.ALN_BLANK_STATE 2, Reg.ALN_BLANK_STATE 3, Reg.ALN_NEWEST_LO, Reg.ALN_NEWEST_HI],
          Tab.get (fun _ => 0) t.shadow r = BitVec.ofNat 32 (rd s r)) ∧
    (∀ off (be : BitVec 4), off < 0x200000 → off % 4 = 0 → occupied off = true → be ≠ 15 →
      ∀ c ∈ [Instr.rcCounterRead off be, .wideLowRead off be, .decodeErrorAccess off false 0 be],
        ∃ t, exec c s = .next t ∧ ChangesOnly [.hostData, .freeCtr] s t) ∧
    (∀ be : BitVec 4, be ≠ 15 → ∀ c ∈ [Instr.timeNowRead be, .blankStateRead be], ∃ t, exec c s = .next t ∧ ChangesOnly [.hostData] s t) ∧
    (∀ off, off < 0x200000 → off % 4 = 0 → occupied off = true → gated s off = true →
      exec (.rcCounterRead off 15) s = .next { s with hostData := 0 } ∧ exec (.wideLowRead off 15) s = .next { s with hostData := 0 })

/-- For every state, window w and index word, the window's block not gated. A write of the index register with OP read or write while BUSY is 1 changes nothing but OVERRUN, which is set. With BUSY 0 it takes AINC, OP and INDEX, and: an index that names no entry it may act on sets RANGE_ERR and starts nothing; a write of a transactional table outside OPEN sets STRAY and starts nothing; else BUSY is 1 and the operation waits with the staged data words as they stand. A read or a write of the highest data register with AINC 1 and BUSY 0 starts one of entry INDEX + 1, and INDEX takes that value, or sets RANGE_ERR and leaves INDEX where INDEX + 1 names no entry. At completion, in the cycle after the start at the earliest, BUSY is 0 and the operation is gone: a read's data registers hold the entry's words as they stand then; a write of a transactional entry in OPEN puts the captured words, reserved bits left out, into the pending copy and changes no other entry, and outside OPEN it sets STRAY. -/
def Obligations.WindowOperations : Prop :=
  ∀ (s : State) (w : WinRow) (v : Word), w ∈ winRows → gated s w.idx = false →
    let i := v.toNat % 2 ^ 20
    let busy : Prop := (rd s w.idx).testBit 31
    let starts (c : Instr) (wr : Bool) (n : Nat) (adv : Bool) (u : State) : Prop :=
      (winRange s w wr n = true → exec c s = .next (setB u w.idx 28 true)) ∧
      (winRange s w wr n = false → wr = true → w.kind = .trans → fld s Reg.TXN_STATUS 3 0 ≠ 1 → exec c s = .next (setB u Reg.TXN_STATUS 9 true)) ∧
      (winRange s w wr n = false → ¬(wr = true ∧ w.kind = .trans ∧ fld s Reg.TXN_STATUS 3 0 ≠ 1) →
        ∃ t, exec c s = .next t ∧ (rd t w.idx).testBit 31 = true ∧ (rd t w.idx % 2 ^ 20 = if adv then n % 2 ^ 20 else rd u w.idx % 2 ^ 20) ∧
          t.winOps = s.winOps ++ [⟨w.idx, wr, n, (List.range w.ndata).map (fun j => rd u (w.idx + 4 + 4 * j)), s.cycle⟩] ∧
          RegsBut [w.idx] u t ∧ ChangesOnly [.regs, .winOps] u t)
    (busy → ∀ c ∈ [Instr.windowRead w.idx v, .windowWrite w.idx v], Completes c s [.regs, .time] [w.idx] (fun t =>
      rd t w.idx = rd s w.idx ||| 0x20000000)) ∧
    (¬busy →
      (∃ u, starts (.windowRead w.idx v) false i false u ∧ ChangesOnly [.regs, .time] s u ∧ RegsBut [w.idx] s u ∧
        rd u w.idx % 2 ^ 20 = i ∧ bits (rd u w.idx) 21 20 = 1 ∧ (rd u w.idx).testBit 24 = v.toNat.testBit 24) ∧
      (∃ u, starts (.windowWrite w.idx v) true i false u ∧ ChangesOnly [.regs, .time] s u ∧ RegsBut [w.idx] s u ∧
        rd u w.idx % 2 ^ 20 = i ∧ bits (rd u w.idx) 21 20 = 2 ∧ (rd u w.idx).testBit 24 = v.toNat.testBit 24)) ∧
    (¬busy → (rd s w.idx).testBit 24 = true →
      let top := w.idx + 4 * w.ndata
      (Tab.has s.shadow top = false →
        starts (.windowAincRead w.idx) false (rd s w.idx % 2 ^ 20 + 1) true { s with hostData := BitVec.ofNat 32 (rd s top) }) ∧
      (∃ u, starts (.windowAincWrite w.idx v) true (rd s w.idx % 2 ^ 20 + 1) true u ∧ ChangesOnly [.regs, .time] s u ∧ RegsBut [top] s u ∧
        rd u top = v.toNat)) ∧
    (∀ o, s.winOps.find? (fun o => o.win == w.idx) = some o → o.write = false →
      ∃ t, exec (.windowOpComplete w.idx) s = .next t ∧ (rd t w.idx).testBit 31 = false ∧ (∀ x ∈ t.winOps, x.win ≠ w.idx) ∧
        (∀ p ∈ (winRead (passCyc { s with winOps := s.winOps.filter (fun x => x.win != w.idx) } (o.at_ + 1)) w o.entry).zipIdx, rd t (w.idx + 4 + 4 * p.2) = p.1 % 2 ^ 32) ∧
        ChangesOnly [.cycle, .now, .regs, .winOps] s t) ∧
    (∀ o, s.winOps.find? (fun o => o.win == w.idx) = some o → o.write = true → w.kind = .trans →
      (fld s Reg.TXN_STATUS 3 0 = 1 → Completes (.windowOpComplete w.idx) s [.cycle, .now, .regs, .winOps, .cfgPend] [w.idx] (fun t =>
        (rd t w.idx).testBit 31 = false ∧
        (∀ p ∈ o.data.zipIdx, p.2 < 8 → getC t.cfgPend w.idx o.entry p.2 = (p.1 &&& winMask w.idx o.entry p.2) % 2 ^ 32) ∧
        ∀ k, (∀ j, j < o.data.length → k ≠ cfgKey w.idx o.entry j) → Tab.get cfgDef t.cfgPend k = Tab.get cfgDef s.cfgPend k)) ∧
      (fld s Reg.TXN_STATUS 3 0 ≠ 1 → Completes (.windowOpComplete w.idx) s [.cycle, .now, .regs, .winOps] [w.idx, Reg.TXN_STATUS] (fun t =>
        (rd t w.idx).testBit 31 = false ∧ rd t Reg.TXN_STATUS = rd s Reg.TXN_STATUS ||| 0x200))) ∧
    ((∀ o ∈ s.winOps, o.win ≠ w.idx) → exec (.windowOpComplete w.idx) s = .next s)

/-- For every state. A change of mode shows the new mode, the former one and the cause in SYS_MODE, and keeps the configuration copies, history memory, the keys and every register outside the blocks that start or stop with it. A HALT after another change of the same fabric cycle that stands after it in R47's order is entered from the mode that the cycle began in; the clauses on BOOT_EXIT and the third expiry are those where no other change came in the cycle. BOOT_EXIT acts in BOOT with REF25_IN present: a boot ROM that fails leads to HALT with cause 0x12; a PWR_FAIL_N low holds BOOT where it is; and else BOOT is left for HALT with 0x10 where no image passes (as where neither NOR device has a firmware header), for PROVISION with 0x02, or for SAFE-DEFAULT, SOLO, STANDBY or LEGACY-STANDBY with 0x03 to 0x06. A core's watchdog expires 100 ms after its last restart: the core restarts at the firmware's entry, and the third expiry within 60 s leads to HALT with cause 0x12. LAST_GASP_ENTRY in modes 2 to 8 with PWR_FAIL_N low acts 2 µs after the fall, or in the next cycle where that is past, enters LAST-GASP with cause 0x0B and counts in PWR_PF_EVENTS. A failed entropy test outside PROVISION sets ENTROPY_FAIL and enters no mode.  -/
def Obligations.ModeTransitions : Prop :=
  ∀ (s : State),
    (∀ m cause, m < 16 → cause < 256 → InMode (enterMode s m cause) m (mode s) cause ∧
      ChangesOnly modeParts s (enterMode s m cause) ∧ RegsBut modeRegs s (enterMode s m cause)) ∧
    (∀ ok, mode s ≠ 0 ∨ s.pins.ref25 = false → exec (.bootExit ok) s = .next s) ∧
    (∀ cause w q c, cause < 256 → mode s ≠ 11 → s.cyc.mode = some (w, q, c) →
      InMode (halt s cause) 11 ((if 2 < q then w else rd s Reg.SYS_MODE) % 16) cause) ∧
    (mode s = 0 → s.pins.ref25 = true → s.cyc.mode = none →
      exec (.bootExit false) s = .next (enterMode s 11 0x12) ∧
      (s.pwr.fallAt ≠ none → exec (.bootExit true) s = .next s) ∧
      (s.pwr.fallAt = none → ∃ t m c, exec (.bootExit true) s = .next t ∧ InMode t m 0 c ∧ t.cycle = s.cycle ∧ t.pending = s.pending ∧
        (m, c) ∈ [(11, 0x10), (1, 2), (2, 3), (3, 4), (5, 5), (7, 6)] ∧
        ((∀ d, d < 2 → imgHeader (norImage s d 0) 1 = false) → m = 11))) ∧
    (∀ c : Fin 4, coreRuns s c = false → exec (.watchdogExpiry c) s = .next s) ∧
    (∀ c : Fin 4, coreRuns s c = true → s.ssk.cores.length = 4 →
      let u := passCyc s ((procOf s (.core c)).wdogAt + 50000000)
      let before := (s.sys.wdog.filter (fun x => decide (u.cycle < x + 60 * 500000000))).length
      ∃ t, exec (.watchdogExpiry c) s = .next t ∧ t.cycle = u.cycle ∧ t.sys.wdog.length = before + 1 ∧
        (2 ≤ before → u.cyc.mode = none → InMode t 11 (mode s) 0x12) ∧
        (before < 2 → mode t = mode s ∧ ChangesOnly (itemParts ++ [.cycle, .now, .sys, .ssk]) s t ∧ RegsBut itemRegs s t ∧
          procOf t (.core c) = { ProcS.reset false with pc := s.fw.entry, start := u.cycle, wdogAt := u.cycle })) ∧
    (s.pwr.fallAt = none ∨ mode s < 2 ∨ 8 < mode s → exec .lastGaspEntry s = .next s) ∧
    (∀ a, s.pwr.fallAt = some a → 2 ≤ mode s → mode s ≤ 8 →
      ∃ t, exec .lastGaspEntry s = .next t ∧ InMode t 9 (mode s) 0x0B ∧ t.cycle = max (s.cycle + 1) (a + 1000) ∧
        rd t Reg.PWR_PF_EVENTS = min (rd s Reg.PWR_PF_EVENTS + 1) (2 ^ 32 - 1) ∧ t.pending = s.pending ∧ t.cfg = s.cfg ∧ t.hist = s.hist) ∧
    (mode s ≠ 1 → ∃ t, exec .entropyHealthFail s = .next t ∧ ChangesOnly (itemParts ++ [.freeCtr, .sys, .out, .det]) s t ∧
      (rd t Reg.KEY_STATUS).testBit 1 = true ∧ (rd t Reg.SYS_HEALTH).testBit 9 = true ∧ rd t Reg.SYS_MODE = rd s Reg.SYS_MODE)

/-- For every state, RESET_RELEASE and PERST_RESET after a low of less than 1 µs change nothing; after 10 µs or more the part is reset; between, it is reset or not (free). REF25_LOSS of up to 10 µs changes nothing, a longer one resets the part and leaves REF25_IN lost until REF25_RETURN, which changes nothing else. LAST_GASP_RESET, in LAST-GASP with PWR_FAIL_N high and the save done, resets the part 10 ms after the later of the two. After a reset every register holds its reset value, but for those of the battery domain (KEY_STATUS, KEY_TAMPER_RTC, KEY_ZCOUNT), PWR_STATUS's pins and TWN_STATUS's sample of TWIN_PRI; the mode is BOOT; no transaction, work item, record or chute item stands; and the non-volatile store, the contents of NOR, the battery key, the RTC and host memory are kept. SYS_ID reads 0x7A192001. -/
def Obligations.ResetsOfThePart : Prop :=
  let isReset (s t : State) (pri : Bool) : Prop :=
    (∀ off, off ∉ [Reg.KEY_STATUS, Reg.KEY_TAMPER_RTC_LO, Reg.KEY_TAMPER_RTC_HI, Reg.KEY_ZCOUNT, Reg.PWR_STATUS, Reg.TWN_STATUS] →
      rd t off = (resetWord off).toNat) ∧
    mode t = 0 ∧ rd t Reg.SYS_ID = 0x7A192001 ∧ t.pins.twinPri = pri ∧ (rd t Reg.TWN_STATUS).testBit 31 = pri ∧
    t.pending = s.pending ∧ t.cycle = s.cycle ∧ t.rtcBase = s.rtcBase ∧ t.cfg = [] ∧ t.ntab = [] ∧ t.hist = [] ∧ t.aln.newest = none ∧
    (∀ b ∈ t.aln.ring, b = none) ∧ (∀ l, (laneOf t l).item = none) ∧ (∀ n, (chuteOf t n).items = []) ∧
    t.nvs.store = s.nvs.store ∧ t.nvs.nor.map (·.mem) = s.nvs.nor.map (·.mem) ∧ t.key.bbk = s.key.bbk ∧ t.key.root = none ∧
    t.dma.hostMem = s.dma.hostMem ∧ rd t Reg.KEY_ZCOUNT = rd s Reg.KEY_ZCOUNT % 2 ^ 16 ∧
    rd t Reg.KEY_TAMPER_RTC_LO = rd s Reg.KEY_TAMPER_RTC_LO ∧ rd t Reg.KEY_TAMPER_RTC_HI = rd s Reg.KEY_TAMPER_RTC_HI
  ∀ (s : State) (ns : Nat) (pri : Bool),
    (ns < 1000 → exec (.resetRelease ns pri) s = .next s ∧ exec (.perstReset ns) s = .next s) ∧
    (10000 ≤ ns → (∃ t, exec (.resetRelease ns pri) s = .next t ∧ isReset s t pri) ∧
      (∃ t, exec (.perstReset ns) s = .next t ∧ isReset s t s.pins.twinPri)) ∧
    (∃ t, exec (.resetRelease ns pri) s = .next t ∧ (isReset s t pri ∨ t = { s with freeCtr := t.freeCtr })) ∧
    (∃ t, exec (.perstReset ns) s = .next t ∧ (isReset s t s.pins.twinPri ∨ t = { s with freeCtr := t.freeCtr })) ∧
    (ns ≤ 10000 → exec (.ref25Loss ns) s = .next s) ∧
    (10000 < ns → ∃ t, exec (.ref25Loss ns) s = .next t ∧ isReset s t s.pins.twinPri ∧ t.pins.ref25 = false) ∧
    exec .ref25Return s = .next { s with pins := { s.pins with ref25 := true } } ∧
    (mode s ≠ 9 ∨ s.pwr.saveDone = none ∨ s.pwr.fallAt ≠ none → exec .lastGaspReset s = .next s) ∧
    (∀ c, mode s = 9 → s.pwr.saveDone = some c → s.pwr.fallAt = none →
      ∃ t, exec .lastGaspReset s = .next t ∧ isReset { s with cycle := t.cycle } t s.pins.twinPri ∧
        t.cycle = max s.cycle (max s.pwr.riseAt c + 5000000))

/-- For every state. The fall of PWR_FAIL_N, where it was high, latches the RTC as the stamp, starts the 2 µs and clears the pin's bit; its rise sets the bit and counts a glitch where LAST-GASP did not take the low. VHOLD below 5.0 V, outside LAST-GASP and where it was above, clears HOLD_OK, sets HOLD_LOW, counts and pushes its item; its return sets HOLD_OK; a change of the battery's level sets or clears its bit. LAST_GASP_DOMAIN_OFF in LAST-GASP drops domains 23 and 24, 150 µs after the fall, then 35 and 36. HOLD_UP_COLLAPSE drops domains 0, 4, 5 and 36, holds core 0 in reset, and empties the store's and the log's queues, the energy state and the key store but for the battery key. BATTERY_LOSS loses the battery key and leaves the RTC, the zeroisation count and the stamp free. TAMPER_N low for 1 µs or more zeroises the part: no battery key, root, or key in any slot stands, KEY_STATUS shows it, the stamp and the count are written, and the mode is ZEROIZED with cause 0x0C, but in HALT and LAST-GASP (where LAST-GASP was entered in the same fabric cycle, ZEROIZED is entered from the mode before it: R47); below 100 ns nothing happens; between, either. -/
def Obligations.PowerAndBatteryEvents : Prop :=
  ∀ (s : State),
    let zeroised (t : State) : Prop := t.key.bbk = none ∧ t.key.root = none ∧ t.key.rootDone = false ∧
        (∀ p ∈ t.key.slots, p.2.st = 0 ∧ p.2.cell0 = none ∧ p.2.cell1 = none) ∧ (rd t Reg.KEY_STATUS).testBit 3 = true ∧
        rd t Reg.KEY_TAMPER_RTC_LO = rtcNow s % 2 ^ 32 ∧ rd t Reg.KEY_TAMPER_RTC_HI = rtcNow s / 2 ^ 32 % 2 ^ 32 ∧
        rd t Reg.KEY_ZCOUNT = min (rd s Reg.KEY_ZCOUNT + 1) (2 ^ 16 - 1) ∧
        (s.cyc.mode = none → if mode s = 11 ∨ mode s = 9 then rd t Reg.SYS_MODE = rd s Reg.SYS_MODE else InMode t 10 (mode s) 0x0C) ∧
        (∀ w c, s.cyc.mode = some (w, 3, c) → w % 16 ≠ 11 → w % 16 ≠ 9 → InMode t 10 (w % 16) 0x0C)
    (∀ a, s.pwr.fallAt = some a → exec .pwrFailFall s = .next s) ∧
    (s.pwr.fallAt = none → Completes .pwrFailFall s [.regs, .pwr] [Reg.PWR_STATUS] (fun t =>
      t.pwr = { s.pwr with fallAt := some s.cycle, stamp := some (rtcNow s) } ∧ rd t Reg.PWR_STATUS = rd s Reg.PWR_STATUS &&& 0xFFFFFEFF)) ∧
    Completes .pwrFailRise s [.regs, .pwr] [Reg.PWR_STATUS, Reg.PWR_PF_GLITCH] (fun t =>
      rd t Reg.PWR_STATUS = rd s Reg.PWR_STATUS ||| 0x100 ∧ t.pwr.fallAt = none ∧
      rd t Reg.PWR_PF_GLITCH = match s.pwr.fallAt with
        | some c => if s.pwr.lgFall = c + 1 then rd s Reg.PWR_PF_GLITCH else min (rd s Reg.PWR_PF_GLITCH + 1) (2 ^ 32 - 1)
        | none => rd s Reg.PWR_PF_GLITCH) ∧
    (∀ mV, 5000 ≤ mV ∨ mode s = 9 ∨ (rd s Reg.PWR_STATUS).testBit 9 = false → exec (.vholdLow mV) s = .next s) ∧
    (∀ mV, mV < 5000 → mode s ≠ 9 → (rd s Reg.PWR_STATUS).testBit 9 = true →
      Completes (.vholdLow mV) s itemParts (Reg.PWR_STATUS :: Reg.PWR_HOLD_LOW :: itemRegs) (fun t =>
        rd t Reg.PWR_STATUS = (rd s Reg.PWR_STATUS &&& 0xFFFFFDFF) ||| 0x800 ∧
        rd t Reg.PWR_HOLD_LOW = min (rd s Reg.PWR_HOLD_LOW + 1) (2 ^ 32 - 1))) ∧
    Completes .vholdRestore s [.regs] [Reg.PWR_STATUS] (fun t => rd t Reg.PWR_STATUS = rd s Reg.PWR_STATUS ||| 0x200) ∧
    (∀ low, Completes (.vbatLowChange low) s [.regs] [Reg.PWR_STATUS] (fun t =>
      rd t Reg.PWR_STATUS = if low then rd s Reg.PWR_STATUS ||| 0x400 else rd s Reg.PWR_STATUS &&& 0xFFFFFBFF)) ∧
    (mode s ≠ 9 → exec .lastGaspDomainOff s = .next s) ∧
    (mode s = 9 → Completes .lastGaspDomainOff s [.cycle, .now, .regs, .ntab, .msh, .pwr] [Reg.PWR_STATUS] (fun t =>
      if s.cycle < s.pwr.lgFall - 1 + 75000 ∨ domState s 23 ≠ 0 ∨ domState s 24 ≠ 0 then
        domState t 23 = 0 ∧ domState t 24 = 0 ∧ t.cycle = max s.cycle (s.pwr.lgFall - 1 + 75000)
      else domState t 35 = 0 ∧ domState t 36 = 0 ∧ t.cycle = max s.cycle (s.pwr.lgFall - 1 + 100000))) ∧
    Completes .holdUpCollapse s [.regs, .ntab, .nvs, .ssk, .key, .nrg, .msh, .pwr] [Reg.KEY_STATUS, Reg.NVS_STATUS] (fun t =>
      (∀ d ∈ [0, 4, 5, 36], domState t d = 0) ∧ (∀ d, d < 40 → d ∉ [0, 4, 5, 36] → domState t d = domState s d) ∧
      (s.ssk.cores.length = 4 → (procOf t (.core 0)).held = true) ∧ t.nvs.bw = [] ∧ t.nvs.queue = [] ∧ t.nvs.store = s.nvs.store ∧
      t.key.root = none ∧ t.key.slots = [] ∧ t.key.bbk = s.key.bbk) ∧
    Completes .batteryLoss s [.rtcBase, .freeCtr, .regs, .key, .pwr] [Reg.KEY_ZCOUNT, Reg.KEY_STATUS] (fun t =>
      t.key = { s.key with bbk := none, zevents := [] }) ∧
    (∀ ns, ns < 100 → exec (.tamperAssert ns) s = .next s) ∧
    (∀ ns, 1000 ≤ ns → ∃ t, exec (.tamperAssert ns) s = .next t ∧ zeroised t) ∧
    (∀ ns, ∃ t, exec (.tamperAssert ns) s = .next t ∧ (zeroised t ∨ t = { s with freeCtr := t.freeCtr }))

/-- For every state, each of the three writes puts TXN_CTRL.PERSIST as written. BEGIN in modes 2 to 7 with no transaction OPEN, PREPARING or ARMED and no retiring copy: the state is OPEN, the pending copy is the copy in use with SSK_SWAP_AT zero, the count of transactions has grown by 1, and REJMASK and the reject and PERSISTED fields are clear; otherwise it only sets REFUSED. PREPARE in OPEN in those modes: outside SAFE-DEFAULT a TXN_TARGET not above the newest open blank (or, with none open, the epoch index of device time) ends it REJECTED with block SYS and code 3; else the state is PREPARING. PREPARE elsewhere changes nothing more. ABORT of a live transaction in those modes ends it ABORTED, but not in the cycle in which an ARMED one commits; there and elsewhere it changes nothing more. The configuration in use never changes, and no register changes but TXN_CTRL, TXN_STATUS, TXN_REJMASK and SSK_CHUCK_SEL's LOCKED. -/
def Obligations.TransactionOperations : Prop :=
  ∀ (s : State) (per : Bool),
    let st := fld s Reg.TXN_STATUS 3 0
    let live : Prop := st = 1 ∨ st = 2 ∨ st = 3
    let runs : Prop := 2 ≤ mode s ∧ mode s ≤ 7
    let ctrl (t : State) : Prop := rd t Reg.TXN_CTRL = if per then rd s Reg.TXN_CTRL ||| 0x100 else rd s Reg.TXN_CTRL &&& 0xFFFFFEFF
    let keeps (c : Instr) : Prop := Completes c s [.regs] [Reg.TXN_CTRL] ctrl
    let ends (c : Instr) (state : Nat) : Prop := Completes c s [.regs] [Reg.TXN_CTRL, Reg.TXN_STATUS, Reg.SSK_CHUCK_SEL] (fun t =>
      ctrl t ∧ fld t Reg.TXN_STATUS 3 0 = state ∧ fld t Reg.TXN_STATUS 31 4 = fld s Reg.TXN_STATUS 31 4 ∧ (rd t Reg.SSK_CHUCK_SEL).testBit 4 = false)
    let bound := s.aln.newest.getD (epochNow s)
    ((runs ∧ ¬live ∧ (rd s Reg.TXN_STATUS).testBit 10 = false) →
      Completes (.txnBegin per) s [.regs, .cfgPend, .nvs] [Reg.TXN_CTRL, Reg.TXN_STATUS, Reg.TXN_REJMASK, Reg.SSK_CHUCK_SEL] (fun t =>
        ctrl t ∧ fld t Reg.TXN_STATUS 3 0 = 1 ∧ fld t Reg.TXN_STATUS 31 24 = (fld s Reg.TXN_STATUS 31 24 + 1) % 256 ∧
        fld t Reg.TXN_STATUS 23 11 = 0 ∧ rd t Reg.TXN_REJMASK = 0 ∧ t.nvs.store = s.nvs.store ∧
        ∀ k, Tab.get cfgDef t.cfgPend k = if k = cfgKey Reg.SSK_SWAP_AT_LO 0 0 ∨ k = cfgKey Reg.SSK_SWAP_AT_HI 0 0 then 0
          else Tab.get cfgDef s.cfg k)) ∧
    (¬(runs ∧ ¬live ∧ (rd s Reg.TXN_STATUS).testBit 10 = false) →
      Completes (.txnBegin per) s [.regs] [Reg.TXN_CTRL, Reg.TXN_STATUS] (fun t => ctrl t ∧ rd t Reg.TXN_STATUS = rd s Reg.TXN_STATUS ||| 0x100)) ∧
    (¬(runs ∧ st = 1) → keeps (.txnPrepare per)) ∧
    (runs → st = 1 → mode s = 2 ∨ bound < txnTarget s → ends (.txnPrepare per) 2) ∧
    (runs → st = 1 → mode s ≠ 2 → txnTarget s ≤ bound →
      Completes (.txnPrepare per) s [.regs] [Reg.TXN_CTRL, Reg.TXN_STATUS, Reg.TXN_REJMASK, Reg.SSK_CHUCK_SEL] (fun t =>
        ctrl t ∧ fld t Reg.TXN_STATUS 3 0 = 5 ∧ fld t Reg.TXN_STATUS 23 20 = 8 ∧ fld t Reg.TXN_STATUS 19 12 = 3 ∧ rd t Reg.TXN_REJMASK = 128)) ∧
    let commits : Prop := st = 3 ∧ mode s ≠ 2 ∧ isInstant s (txnTarget s) = true
    (runs → live → ¬commits → ends (.txnAbort per) 6) ∧
    (¬(runs ∧ live ∧ ¬commits) → keeps (.txnAbort per))

/-- For every state, with the codes that the seven blocks' checks give the pending copy. Outside PREPARING nothing happens. In PREPARING, with some code not 0: the state is REJECTED, REJ_BLOCK and REJ_CODE name the first rejecting block, and REJMASK shows every one; the copies in use and pending stay. With every code 0: in SAFE-DEFAULT the state is COMMITTED in the next cycle and the copy in use is the pending copy, SSK_SWAP_AT apart, with no retiring copy held; in another mode, at or after the epoch instant of blank TXN_TARGET - 1 the state is EXPIRED with block SYS, code 1 and REJMASK 0x80, and before it ARMED. But for a commit, nothing changes except TXN_STATUS, TXN_REJMASK and SSK_CHUCK_SEL's LOCKED. -/
def Obligations.TransactionValidation : Prop :=
  ∀ (s : State),
    let codes := checkAll s s.cfgPend
    let ok : Prop := ∀ c ∈ codes, c = 0
    let regs := [Reg.TXN_STATUS, Reg.TXN_REJMASK, Reg.SSK_CHUCK_SEL]
    let prep : Prop := fld s Reg.TXN_STATUS 3 0 = 2
    codes.length = 7 ∧
    (¬prep → exec .txnValidationComplete s = .next s) ∧
    (∀ i code, prep → codes[i]? = some code → code ≠ 0 → (∀ j, j < i → codes[j]? = some 0) → code < 256 →
      Completes .txnValidationComplete s [.regs] regs (fun t =>
        fld t Reg.TXN_STATUS 3 0 = 5 ∧ fld t Reg.TXN_STATUS 23 20 = i + 1 ∧ fld t Reg.TXN_STATUS 19 12 = code ∧
        (rd t Reg.SSK_CHUCK_SEL).testBit 4 = false ∧ ∀ b, b < 32 → ((rd t Reg.TXN_REJMASK).testBit b = true ↔ ∃ c, codes[b]? = some c ∧ c ≠ 0))) ∧
    (prep → ok → mode s = 2 → ∃ t, exec .txnValidationComplete s = .next t ∧ fld t Reg.TXN_STATUS 3 0 = 4 ∧
      (rd t Reg.TXN_STATUS).testBit 10 = false ∧ t.cycle = s.cycle + 1 ∧ t.cfgRet = none ∧ t.pending = s.pending ∧
      ∀ k, Tab.get cfgDef t.cfg k = if k = cfgKey Reg.SSK_SWAP_AT_LO 0 0 ∨ k = cfgKey Reg.SSK_SWAP_AT_HI 0 0 then 0
        else Tab.get cfgDef s.cfgPend k) ∧
    (prep → ok → mode s ≠ 2 →
      let late : Prop := (txnTarget s - 1) * secU ≤ s.now * blankRate s
      (late → Completes .txnValidationComplete s [.regs] regs (fun t => fld t Reg.TXN_STATUS 3 0 = 7 ∧ fld t Reg.TXN_STATUS 23 20 = 8 ∧
        fld t Reg.TXN_STATUS 19 12 = 1 ∧ rd t Reg.TXN_REJMASK = 128)) ∧
      (¬late → Completes .txnValidationComplete s [.regs] regs (fun t => fld t Reg.TXN_STATUS 3 0 = 3 ∧
        rd t Reg.TXN_REJMASK = rd s Reg.TXN_REJMASK ∧ (rd t Reg.SSK_CHUCK_SEL).testBit 4 = decide (swapAt s.cfgPend ≠ 0))))

/-- For every state: a write of SYS_OOS_LANE that, with the lanes out by a failed self-test, leaves no lane while some kernel-table entry in use is enabled is ignored and sets LANE_REFUSED; any other is stored whole, and the declared load and the governor's requests follow it, so that nothing changes but SSK_LOAD with its item, and the domain table and the governor's queue. A write of SYS_OOS_UNIT stores its nine bits. Neither changes a lane, a detector unit or an acknowledge bit at once: that waits for the next blank to open (a write in the very cycle in which one has opened still reaches it, 02 R75, and then only the mask stored is stated). -/
def Obligations.OutOfServiceRequests : Prop :=
  ∀ (s : State) (v : Word),
    let none : Prop := (v.toNat ||| s.sys.laneFail) % 2 ^ 32 = 2 ^ 32 - 1
    (none → ktEnabled s.cfg ≠ [] → Completes (.oosLaneWrite v) s [.regs] [Reg.SYS_OOS_ACK_UNIT] (fun t =>
      rd t Reg.SYS_OOS_ACK_UNIT = rd s Reg.SYS_OOS_ACK_UNIT ||| 0x80000000)) ∧
    (¬none ∨ ktEnabled s.cfg = [] → (∃ t, exec (.oosLaneWrite v) s = .next t ∧ rd t Reg.SYS_OOS_LANE = v.toNat)) ∧
    (∃ t, exec (.oosUnitWrite v) s = .next t ∧ rd t Reg.SYS_OOS_UNIT = v.toNat % 512) ∧
    (¬none ∨ ktEnabled s.cfg = [] → s.cyc.switched = false →
      Completes (.oosLaneWrite v) s (.ntab :: .pwr :: itemParts) (Reg.SYS_OOS_LANE :: Reg.SSK_LOAD :: Reg.PWR_STATUS :: itemRegs) (fun t =>
        rd t Reg.SYS_OOS_LANE = v.toNat)) ∧
    (s.cyc.switched = false → Completes (.oosUnitWrite v) s [.regs, .ntab, .pwr] [Reg.SYS_OOS_UNIT, Reg.PWR_STATUS] (fun t => rd t Reg.SYS_OOS_UNIT = v.toNat % 512))

/-- For every state in which TIME is not gated, and every word. Every write of TIME_CTRL takes its RW fields and ends the unlock. STEP, where SYNCED is 0 or the step is no larger than TIME_JUMP_LIM, is applied in this cycle: the next begins at device time, advanced by the addend in force in this cycle, plus TIME_STEP (a time before the origin is free: DESIGN CHOICE), STEPPED is set and the count of steps grows, saturating; otherwise STEP_REFUSED is set, the count of refusals grows, and time does not move. FORCE_STEP with SYNCED 0 is a STEP; with SYNCED 1 and no unlock within the last 1 ms it sets FORCE_REFUSED and is counted; else it is applied whatever its size and TIME_GEN grows by 1. DECLARE_SYNC sets SYNCED; END_HOLDOVER clears HOLDOVER where REF_OK is 1. Only the word 0x7E57F0CE unlocks. A write of TIME_ADDEND_HI commits both words where the addend lies from 1.999 ns to 2.001 ns: this cycle still advances by the addend in force, every later one by the new; else it sets its error bit. While TIME is gated none of them changes anything. -/
def Obligations.TimeSteps : Prop :=
  ∀ (s : State) (v : Word),
    let d := stepNs s
    let synced : Prop := (rd s Reg.TIME_STATUS).testBit 3 = true
    let small : Prop := d.natAbs ≤ rd s Reg.TIME_JUMP_LIM
    let unlocked : Prop := ∃ c, s.time.unlockAt = some c ∧ s.cycle ≤ c + 500000
    let regs := Reg.TIME_CTRL :: Reg.TIME_STATUS :: Reg.TIME_STEP_CNT :: Reg.SYS_HEALTH :: Reg.SYS_STATUS :: itemRegs
    let parts := itemParts ++ [.cycle, .now, .freeCtr, .time, .nrg]
    let op (c : Instr) (f : State → Prop) : Prop := Completes c s parts regs (fun t => t.time.unlockAt = none ∧
      (∀ b, b < 32 → (rd t Reg.TIME_CTRL).testBit b =
        if 28 ≤ b ∨ b = 10 ∨ b = 11 ∨ b = 7 ∨ b < 4 then v.toNat.testBit b else (rd s Reg.TIME_CTRL).testBit b) ∧ f t)
    let count (t : State) (lo hi : Nat) : Prop := fld t Reg.TIME_STEP_CNT 15 0 = min (fld s Reg.TIME_STEP_CNT 15 0 + lo) 65535 ∧
      fld t Reg.TIME_STEP_CNT 31 16 = min (fld s Reg.TIME_STEP_CNT 31 16 + hi) 65535
    let stepped (t : State) : Prop := t.cycle = s.cycle + 1 ∧ (rd t Reg.TIME_STATUS).testBit 0 = true ∧ count t 1 0 ∧
      (0 ≤ (s.now + addendNow s : Int) + d * 2 ^ 48 → (t.now : Int) = s.now + addendNow s + d * 2 ^ 48)
    let refused (b : Nat) (t : State) : Prop := t.cycle = s.cycle ∧ t.now = s.now ∧ (rd t Reg.TIME_STATUS).testBit b = true ∧ count t 0 1
    let gen (t : State) : Nat := fld t Reg.SYS_STATUS 31 16
    (gated s Reg.TIME_CTRL = false →
      (¬synced ∨ small → op (.timeStep v) (fun t => stepped t ∧ gen t = gen s)) ∧
      (synced → ¬small → op (.timeStep v) (fun t => refused 2 t ∧ gen t = gen s)) ∧
      (¬synced → op (.timeForceStep v) (fun t => stepped t ∧ gen t = gen s)) ∧
      (synced → ¬unlocked → op (.timeForceStep v) (fun t => refused 1 t ∧ gen t = gen s)) ∧
      (synced → unlocked → op (.timeForceStep v) (fun t => stepped t ∧ gen t = (gen s + 1) % 2 ^ 16)) ∧
      op (.timeDeclareSync v) (fun t => (rd t Reg.TIME_STATUS).testBit 3 = true ∧ t.now = s.now ∧ t.cycle = s.cycle) ∧
      op (.timeEndHoldover v) (fun t => t.now = s.now ∧ t.cycle = s.cycle ∧
        (rd t Reg.TIME_STATUS).testBit 4 = ((rd s Reg.TIME_STATUS).testBit 4 && !(rd t Reg.TIME_STATUS).testBit 5)) ∧
      Completes (.timeForceUnlockWrite v) s [.time] [] (fun t => t.time.unlockAt = if v = 0x7E57F0CE then some s.cycle else none) ∧
      (let a := v.toNat % 2 ^ 24 * 2 ^ 32 + rd s Reg.TIME_ADDEND_LO
       if 1999 * 2 ^ 48 ≤ a * 1000 ∧ a * 1000 ≤ 2001 * 2 ^ 48 then
         Completes (.addendCommit v) s [.regs, .time] [Reg.TIME_ADDEND_HI] (fun t =>
           t.time.addend = a ∧ (pass t 1).now = s.now + addendNow s ∧ (pass t 2).now = s.now + addendNow s + a)
       else Completes (.addendCommit v) s [.regs, .time] [Reg.TIME_ADDEND_HI, Reg.TIME_STATUS] (fun t =>
         t.time.addend = s.time.addend ∧ (rd t Reg.TIME_STATUS).testBit 8 = true))) ∧
    (gated s Reg.TIME_CTRL = true → ∀ c ∈ [Instr.timeStep v, .timeForceStep v, .timeDeclareSync v, .timeEndHoldover v], exec c s = .next s)

/-- For every state with a positive addend. LEAP_APPLY with PENDING 1 or 2, not in HALT, waits for the named second, moves the offset by one and clears PENDING; else nothing. HOLDOVER_ENTRY with a reference selected, not in HALT, unless REF_OK is 0 and HOLDOVER already 1, clears REF_OK and sets HOLDOVER with its mirror in SYS_HEALTH. An event of a reference (a Sync that firmware's queue takes, within its bounds, at the port that is PTP's receiver; a second IRIG-B frame of the selected format, within 2 s of the one before; a PPS edge) shows in TIME_REF_TS and REF_OK where that reference is selected, and else changes no register; a PTP frame at a port that is off, an IRIG-B frame while its input is off, change none; one with bad parity or another format only forgets the frame before. An IRIG-B frame's UTC second is its binary time less its local offset. PPS_OUT rises within 4 ns of the next whole second plus its offset (where that is not past) and stays up for WIDTH ms. The 10 MHz check leaves the error in tenths of a ppb and REF10M_OK where it is within 100 ppm; no edge for 1 µs clears REF10M_OK. TXTS_POP takes the port's oldest timestamp, its TAG first, or answers VALID 0. -/
def Obligations.TimeReferences : Prop :=
  ∀ (s : State), 0 < s.time.addend →
    let p := fld s Reg.TIME_LEAP 17 16
    let refRegs := [Reg.TIME_STATUS, Reg.TIME_REF_TS_SEC_LO, Reg.TIME_REF_TS_SEC_HI, Reg.TIME_REF_TS_NS]
    let event (src : Nat) (t : State) : Prop := if timeSrc s = src then (rd t Reg.TIME_STATUS).testBit 5 = true else t.regs = s.regs
    let halt : Prop := mode s = 11
    (p ≠ 1 → p ≠ 2 → exec .leapApply s = .next s) ∧
    (halt → exec .leapApply s = .next s ∧ exec .holdoverEntry s = .next s) ∧
    (¬halt → p = 1 ∨ p = 2 → Completes .leapApply s [.cycle, .now, .regs, .time] [Reg.TIME_LEAP] (fun t =>
      (rd s Reg.TIME_LEAP_AT_LO + rd s Reg.TIME_LEAP_AT_HI * 2 ^ 32) * secU ≤ t.now ∧ fld t Reg.TIME_LEAP 17 16 = 0 ∧
      fld t Reg.TIME_LEAP 15 0 = (if p = 1 then fld s Reg.TIME_LEAP 15 0 + 1 else fld s Reg.TIME_LEAP 15 0 + 65535) % 65536)) ∧
    (let stays : Prop := timeSrc s = 0 ∨ ((rd s Reg.TIME_STATUS).testBit 5 = false ∧ (rd s Reg.TIME_STATUS).testBit 4 = true)
     (stays → exec .holdoverEntry s = .next s) ∧
     (¬halt → ¬stays → Completes .holdoverEntry s (itemParts ++ [.cycle, .now]) (Reg.TIME_STATUS :: Reg.SYS_HEALTH :: itemRegs) (fun t =>
       (rd t Reg.TIME_STATUS).testBit 5 = false ∧ (rd t Reg.TIME_STATUS).testBit 4 = true ∧ (rd t Reg.SYS_HEALTH).testBit 5 = true))) ∧
    (∀ (port : Fin 4) (ty q : Nat) (within : Bool),
      let mine : Prop := s.time.ptpPort = none ∨ s.time.ptpPort = some port.val ∨ (rd s Reg.TIME_STATUS).testBit 4 = true
      (gated s Reg.ETH0_CFG = true ∨ bit s (ethReg port 0) 31 = false → exec (.ptpFrameReceive port ⟨ty, q⟩ within) s = .next s) ∧
      (gated s Reg.ETH0_CFG = false → bit s (ethReg port 0) 31 = true →
        Completes (.ptpFrameReceive port ⟨ty, q⟩ within) s [.freeCtr, .regs, .time, .ing, .out] (Reg.ING_FW_DROP :: refRegs) (fun t =>
          (ty = 0 → within = true → timeSrc s = 1 → mine → (s.ing.fwq.map (fun x => x.len)).sum + 9216 ≤ 262144 →
            (rd t Reg.TIME_STATUS).testBit 5 = true ∧ t.time.ptpPort = some port.val) ∧
          (ty ≠ 0 ∨ timeSrc s ≠ 1 ∨ within = false ∨ ¬mine → ∀ r ∈ refRegs, rd t r = rd s r)))) ∧
    (∀ f : IrigFrame, let m := fld s Reg.TIME_CTRL 11 10
      (m = 0 ∨ m = 3 ∨ halt → exec (.irigFrame f) s = .next s) ∧
      let good : Prop := f.parityOk = true ∧ f.ext = true ∧ (f.b124 = true ↔ m = 2)
      let u := irigUtc s f
      let agrees : Prop := ∃ a, s.time.irigPrev = some a ∧ a ≤ u ∧ u ≤ a + 2
      let dated : Prop := f.hasYear = true ∨ (rd s Reg.TIME_STATUS).testBit 3 = true
      (f.hasYear = true → u = ((f.sec : Int) - f.offset * 1800).toNat) ∧
      (m ≠ 0 → m ≠ 3 → ¬halt → ¬good → exec (.irigFrame f) s = .next { s with time := { s.time with irigPrev := none } }) ∧
      (m ≠ 0 → m ≠ 3 → ¬halt → good → Completes (.irigFrame f) s [.freeCtr, .regs, .time] refRegs (fun t =>
        t.time.irigPrev = some u ∧
        (agrees → dated → (∃ mark, t.time.irig = some (f, mark)) ∧ event 2 t ∧
          (timeSrc s = 2 → rd t Reg.TIME_REF_TS_SEC_LO = u % 2 ^ 32 ∧ rd t Reg.TIME_REF_TS_NS = 0)) ∧
        (¬(agrees ∧ dated) → t.regs = s.regs ∧ t.time.irig = s.time.irig)))) ∧
    (halt → exec .ppsInEdge s = .next s ∧ exec .ref10mLoss s = .next s ∧ ∀ n, exec (.ref10mMeasure n) s = .next s) ∧
    (¬halt →
      Completes .ppsInEdge s [.freeCtr, .regs, .time] refRegs (event 3) ∧
      Completes .ref10mLoss s [.cycle, .now, .regs] [Reg.TIME_STATUS] (fun t => t.cycle = s.cycle + 500 ∧ (rd t Reg.TIME_STATUS).testBit 6 = false) ∧
      ∀ n, Completes (.ref10mMeasure n) s [.cycle, .now, .freeCtr, .regs] [Reg.TIME_STATUS, Reg.TIME_REF10M_ERR] (fun t =>
        (rd t Reg.TIME_STATUS).testBit 6 = decide (9999000 ≤ n ∧ n ≤ 10001000) ∧
        (9800000 ≤ n → n ≤ 10200000 → (rd t Reg.TIME_REF10M_ERR : Int) = (((n : Int) - 10000000) * 10000) % 2 ^ 32))) ∧
    (let runs : Prop := (rd s Reg.TIME_PPS_CFG).testBit 31 = true ∧ ((rd s Reg.TIME_STATUS).testBit 3 = true ∨ (rd s Reg.TIME_CTRL).testBit 7 = true) ∧ ¬halt
     (¬runs → exec .ppsOutPulse s = .next s) ∧
     (runs → Completes .ppsOutPulse s [.cycle, .now, .freeCtr, .time] [] (fun t => t.time.ppsSec = ppsNext s ∧
       t.time.ppsEnd = some (t.cycle + max 1 (min 999 (fld s Reg.TIME_PPS_CFG 9 0)) * 500000) ∧
       (ppsNext s * secU : Int) + sext 12 (fld s Reg.TIME_PPS_CFG 27 16) * 2 ^ 48 - 4 * 2 ^ 48 ≤ t.now ∧
       (s.cyc.addend = none → s.time.addend ≤ 8 * 2 ^ 48 →
         (t.now : Int) ≤ max (s.now : Int) ((ppsNext s * secU : Int) + sext 12 (fld s Reg.TIME_PPS_CFG 27 16) * 2 ^ 48 + 4 * 2 ^ 48))))) ∧
    (∀ port : Fin 4,
      (gated s (Reg.TIME_TXTS_TAG port) = true → exec (.txtsPop port) s = .next { s with hostData := 0 }) ∧
      (gated s (Reg.TIME_TXTS_TAG port) = false → Completes (.txtsPop port) s [.hostData, .regs, .shadow, .time]
        [Reg.TIME_TXTS_TAG port, Reg.TIME_TXTS_SEC_LO port, Reg.TIME_TXTS_SEC_HI port, Reg.TIME_TXTS_NS port, Reg.TIME_TXTS_FRAC port] (fun t =>
        match s.time.txts.getD port [] with
        | [] => t.hostData.toNat.testBit 31 = false ∧ t.time = s.time
        | (_, q, x) :: rest => (rest.length < 256 → t.hostData.toNat.testBit 31 = true) ∧ t.hostData.toNat % 65536 = q % 65536 ∧
            t.time = { s.time with txts := s.time.txts.set port rest } ∧
            rd t (Reg.TIME_TXTS_NS port) = x / nsU % 1000000000 ∧ rd t (Reg.TIME_TXTS_SEC_LO port) = x / nsU / 1000000000 % 2 ^ 32)))

/-- For every state with a positive addend and 64 slots. A time slot that is enabled, in time mode and waiting fires at its target or in the first cycle it may: LATE shows whether the target was past, FIRE_CNT grows by 1, EN clears where REPEAT is not 0 and FIRE_CNT has reached it, the slot's FIRED bit is set, and, where no other waiting slot has its destination and that is free (`alone`), every other slot and its words stay (else slots of the cycle fire along and the deliveries take a cycle each: R106, log 131). A slot that has fired along in this cycle changes nothing more. A periodic slot that stays enabled waits for its target plus its period (from a late one, for the first such instant not yet past); any other waits no more. A phase slot that waits is armed at its arming time and no longer waits; an armed one fires on the passing of its angle as the tracker's last cycle predicts it, no earlier than the 2 µs and the frequency's change allow (which instant is free: R104, log 134), and stays armed only where periodic. A slot that is off, of the other mode, or not waiting or armed, or whose tracker is not locked, changes nothing, and so does every slot in HALT. -/
def Obligations.CompareSlots : Prop :=
  ∀ (s : State) (slot : Fin 64), 0 < s.time.addend → s.time.cmp.length = 64 →
    let i := slot.val
    let w (t : State) (j : Nat) : Nat := getN t Win.TIME_CMP i j
    let c := cmpOf s i
    let on : Prop := mode s ≠ 11 ∧ (w s 0).testBit 31 = true
    let phase : Prop := (w s 0).testBit 30 = true
    let periodic : Prop := (w s 0).testBit 29 = true
    let n := (w s 5 % 65536 + 1) % 65536
    let ends : Prop := w s 5 / 65536 ≠ 0 ∧ w s 5 / 65536 ≤ n
    let alone : Prop := ∀ d, cmpDest s i = some d → Tab.get (fun _ => 0) s.time.dest d ≤ s.cycle ∧
      ∀ j, j < 64 → j ≠ i → cmpWaits s j = true → cmpDest s j ≠ some d
    let along : Prop := (i, s.cycle) ∈ s.time.along
    let parts := itemParts ++ [.cycle, .now, .freeCtr, .cfg, .ntab, .time, .ssk, .afe]
    let fires (c : Instr) (late : Bool) (others : Prop) (f : State → Prop) : Prop :=
      ∃ t, exec c s = .next t ∧ ChangesOnly parts s t ∧ (w t 0).testBit 28 = late ∧ w t 5 % 65536 = n ∧ ((w t 0).testBit 31 = true ↔ ¬ends) ∧
        bit t (if i < 32 then Reg.TIME_CMP_FIRED_LO else Reg.TIME_CMP_FIRED_HI) (i % 32) = true ∧
        (others → ∀ k, k ≠ i → cmpOf t k = cmpOf s k ∧ ∀ j, j < 6 → getN t Win.TIME_CMP k j = getN s Win.TIME_CMP k j) ∧ f t
    (along → Completes (.cmpFireTime slot) s [.time] [] (fun t => t.time = { s.time with along := s.time.along.filter (fun p => p != (i, s.cycle)) })) ∧
    (¬along → ¬(on ∧ ¬phase ∧ c.wait = true) → exec (.cmpFireTime slot) s = .next s) ∧
    (¬along → on → ¬phase → c.wait = true → fires (.cmpFireTime slot) c.late alone (fun t => c.tgt ≤ t.now ∧
      let period := max 1000 (min 1000000000 (w s 4)) * 2 ^ 48
      ((periodic ∧ ¬ends) → (cmpOf t i).wait = true ∧ (cmpOf t i).late = false ∧
        (c.late = false → (cmpOf t i).tgt = c.tgt + period) ∧
        (c.late = true → (alone → t.now < (cmpOf t i).tgt) ∧ ∃ k, (cmpOf t i).tgt = c.tgt + k * period)) ∧
      (¬(periodic ∧ ¬ends) → (cmpOf t i).wait = false))) ∧
    (¬(on ∧ phase ∧ c.wait = true) → exec (.cmpPhaseArm slot) s = .next s) ∧
    (on → phase → c.wait = true → Completes (.cmpPhaseArm slot) s [.cycle, .now, .time] [] (fun t => c.tgt ≤ t.now ∧
      cmpOf t i = { c with wait := false, late := false, armed := true, pass := none } ∧ ∀ k, k ≠ i → cmpOf t k = cmpOf s k)) ∧
    (let ch := bits (w s 4) 12 8
     let ready : Prop := on ∧ phase ∧ c.armed = true ∧ ch < 24 ∧ trkLocked s ch = true
     (¬ready → exec (.cmpFirePhase slot) s = .next s) ∧
     (∀ a b q rest, ready → (trkOf s ch).cycs = (a, b, q) :: rest → a < b →
       fires (.cmpFirePhase slot) false True (fun t =>
         let after := match c.pass with | some p => max s.now (p + (b - a) / 2) | none => s.now
         let x := passAfter b (b - a) (bits (w s 4) 31 16) after
         x ≤ t.now + phaseTol b (b - a) x ∧ ((cmpOf t i).armed = true ↔ periodic ∧ ¬ends))))

/-- For every state in which the ports are powered. ETH_CFG takes RX_EN, TX_EN, MCAST and UNK_FW and MAXLEN as written, SPEED only where RX_EN and TX_EN were both 0, and PRP on port 0 alone, where ETH1 shows it too. A frame with a bad FCS or length counts in RX_FCS_ERR, one that the filter refuses in RX_FILTERED, one for which the 64 KiB receive FIFO has no room behind the frames that the parser has still to take in RX_OVF, and none of these has another effect. Any other counts in RX_FRAMES and goes to the parser of its UDP port: one that is no C37.118 frame, or fails its check, counts in C37_CHK_ERR, and one that is no R-SV frame, or an R-SV frame outside R114's limits, in RSV_ERR. A frame of the internal path counts in ING_INT_FRAMES while the Lathe runs and is ignored while it does not. ING_SHCLR zeroes the counters and CFGCHG of one stream, or of all, but for what was counted in this fabric cycle (00 R11), and keeps its other fields. PCS lock follows its event and nothing else changes. -/
def Obligations.EthernetPorts : Prop :=
  ∀ (s : State) (p : Fin 4),
    let cfg (q : Nat) := rd s (ethReg q 0)
    (∀ v : Word, gated s Reg.ETH0_CFG = true → exec (.ethCfgWrite p v) s = .next s) ∧
    (∀ v : Word, gated s Reg.ETH0_CFG = false →
      Completes (.ethCfgWrite p v) s [.regs] (if p = 0 then [ethReg 0 0, Reg.ETH1_CFG] else [ethReg p 0]) (fun t =>
        ∀ b, b < 32 → (rd t (ethReg p 0)).testBit b =
          if b = 31 ∨ b = 30 ∨ b = 26 ∨ b = 25 ∨ b < 14 ∨ (b = 27 ∧ p = 0) then v.toNat.testBit b
          else if (b = 28 ∨ b = 29) ∧ (cfg p).testBit 31 = false ∧ (cfg p).testBit 30 = false then v.toNat.testBit b
          else (cfg p).testBit b)) ∧
    (∀ f : EthFrame, gated s Reg.ETH0_CFG = true → exec (.ethFrameReceive p f) s = .next s) ∧
    (∀ f : EthFrame, gated s Reg.ETH0_CFG = false →
      let counts (reg : Nat) : Prop := exec (.ethFrameReceive p f) s = .next (inc s reg)
      let bad : Prop := f.fcsOk = false ∨ f.len < 64 ∨ maxLen s p < f.len
      let full : Prop := 65536 < (((s.ing.rxFifo.getD p []).filter (fun x => decide (s.cycle < x.1))).map (·.2)).sum + f.len
      (bad → counts (Reg.ETH_RX_FCS_ERR p)) ∧
      (¬bad → rxFilter s p f = false → counts (Reg.ETH_RX_FILTERED p)) ∧
      (¬bad → rxFilter s p f = true → full → counts (Reg.ETH_RX_OVF p)) ∧
      (¬bad → rxFilter s p f = true → ¬full → ∃ t, exec (.ethFrameReceive p f) s = .next t ∧
        ChangesOnly (itemParts ++ [.freeCtr, .ing, .aln, .spc, .out]) s t ∧
        rd t (Reg.ETH_RX_FRAMES p) = min (rd s (Reg.ETH_RX_FRAMES p) + 1) (2 ^ 32 - 1) ∧
        (f.udpDst = fld s (Reg.ETH_UDP p) 15 0 →
          (∀ x, f.payload = .c37 x → x.chkOk = true → (x.version = 1 ∨ x.version = 2) →
            rd t (Reg.ETH_C37_CHK_ERR p) = rd s (Reg.ETH_C37_CHK_ERR p)) ∧
          ((∀ x, f.payload = .c37 x → x.chkOk = false ∨ (x.version ≠ 1 ∧ x.version ≠ 2)) →
            ChangesOnly [.freeCtr, .regs, .ing] s t ∧ t.ing = { s.ing with rxFifo := t.ing.rxFifo } ∧
              rd t (Reg.ETH_C37_CHK_ERR p) = min (rd s (Reg.ETH_C37_CHK_ERR p) + 1) (2 ^ 32 - 1))) ∧
        (f.udpDst ≠ fld s (Reg.ETH_UDP p) 15 0 →
          (∀ x, f.payload = .rsv x → x.decodeOk = false ∨ x.sid ≠ 0xA1 ∨ x.svPayload = false ∨ x.encrypted = true ∨ x.asdus = [] ∨
            8 < x.asdus.length ∨ (x.sim = true ∧ bit s Reg.ING_CTRL 0 = false)) →
          ChangesOnly [.freeCtr, .regs, .ing] s t ∧ t.ing = { s.ing with rxFifo := t.ing.rxFifo } ∧
            rd t (Reg.ETH_RSV_ERR p) = min (rd s (Reg.ETH_RSV_ERR p) + 1) (2 ^ 32 - 1)))) ∧
    (∀ (f : C37Frame) (ip : Nat) (v6 : Bool) (age : Nat),
      (gated s Reg.ING_CTRL = true ∨ runsLathe (mode s) = false → exec (.internalFrameDeliver f ip v6 age) s = .next s) ∧
      (gated s Reg.ING_CTRL = false → runsLathe (mode s) = true → ∃ t, exec (.internalFrameDeliver f ip v6 age) s = .next t ∧
        ChangesOnly (itemParts ++ [.ing, .aln, .spc, .out]) s t ∧
        rd t Reg.ING_INT_FRAMES = min (rd s Reg.ING_INT_FRAMES + 1) (2 ^ 32 - 1))) ∧
    (∀ v : Word, gated s Reg.ING_SHCLR = false → Completes (.streamHealthClear v) s [.ing] [] (fun t =>
      ∀ i, let h := healthOf s i
        healthOf t i = if (if v.toNat.testBit 31 = true then Tab.has s.ing.health i = true else i = v.toNat % 8192) then
          { healthNow s i with lastEpoch := h.lastEpoch, silent := h.silent, dataErr := h.dataErr, syncErr := h.syncErr, lastOfs := h.lastOfs }
        else h)) ∧
    (∀ i, Tab.has s.cyc.health i = false → healthNow s i = Health.zero) ∧
    (∀ lock, Completes (.ethPcsLockChange p lock) s [.twn] [] (fun t =>
      ∃ n, t.twn = { s.twn with pcs := n } ∧ ∀ q, n.testBit q = if q = p.val then lock else s.twn.pcs.testBit q))

/-- For every state and block of a stream below 8,192 whose analog channels lie in the 32,768 there are, where this fabric cycle has not already taken a block of that stream and blank from a port that comes after (R124; `tookOver`). A block whose blank is in the ring, open and in time, and whose stream has not reached it, is counted in its stream's FRAMES and written: each phasor slot of the stream has the block's value and quality, is marked measured, and has envelope 0; frequency and ROCOF are the block's; the stream is marked arrived. One that is late counts in the blank's late arrivals and waits for an amendment, or is dropped and counted in ALN_AMEND_LIMIT where the blank has its last one, or in ALN_AMEND_OVF where 4,096 wait. One whose blank is still to open waits for it and counts in ALN_EARLY, or in ALN_EARLY_OVF where 16,384 wait; one whose blank is past counts in ALN_TOO_LATE and its stream's LATE. A second block of a stream in one blank is counted as a duplicate and changes no value, unless it repairs a first one whose data error it does not share. A resampler output that is due is made in its cycle, or at once where that is past, and is no longer due; one that is not due changes nothing. -/
def Obligations.ArrivalsAtTheLathe : Prop :=
  (∀ (s : State) (blk : Block) (b : Blank), blk.stream < 8192 → blankOf s blk.epoch = some b → tookOver s blk.epoch blk = none → Tab.has b.dup blk.stream = false →
    anBase (confOf s blk.epoch) blk.stream + anCnt (confOf s blk.epoch) blk.stream ≤ 32768 →
    let t := latheArrive s blk
    let c := confOf s blk.epoch
    let st := blk.stream
    (healthOf t st).frames = ((healthOf s st).frames + 1) % 2 ^ 32 ∧
    (inTime s b blk = true → b.fillAt = none →
      ∃ x, blankOf t blk.epoch = some x ∧ x.state = b.state ∧ x.arrivedMap.testBit st = true ∧
        x.arrAll = b.arrAll + (if b.arrivedMap.testBit st then 0 else 1) ∧
        (∀ i v, i < phCnt c st → blk.ph[i]? = some v →
          let q := x.phOf (phBase c st + i)
          q.re = v.1 ∧ q.im = v.2.1 ∧ q.qual = v.2.2 ∧ q.env = 0 ∧ q.flags.testBit 0 = true) ∧
        x.frOf st = (blk.freq, blk.rocof) ∧ (x.hdrOf st).stat = blk.stat % 65536 ∧ (x.hdrOf st).sflags.testBit 0 = true) ∧
    (inTime s b blk = false →
      (∃ x, blankOf t blk.epoch = some x ∧ x.lateArr = min (b.lateArr + 1) 65535 ∧ x.ph = b.ph ∧ x.fr = b.fr ∧ x.an = b.an ∧ x.dg = b.dg) ∧
      (if b.amendMax ≤ b.amendCount then rd t Reg.ALN_AMEND_LIMIT = min (rd s Reg.ALN_AMEND_LIMIT + 1) (2 ^ 32 - 1) ∧ t.aln.amendQ = s.aln.amendQ
       else if 4096 ≤ s.aln.amendQ.length then rd t Reg.ALN_AMEND_OVF = min (rd s Reg.ALN_AMEND_OVF + 1) (2 ^ 32 - 1) ∧ t.aln.amendQ = s.aln.amendQ
       else t.aln.amendQ = s.aln.amendQ ++ [blk]))) ∧
  (∀ (s : State) (blk : Block) (b : Blank), blankOf s blk.epoch = some b → tookOver s blk.epoch blk = none → Tab.has b.dup blk.stream = true →
    ∀ prp, dupOf (Tab.get (fun _ => (0, 2, false)) b.dup blk.stream) blk = some prp →
      let h := healthOf s blk.stream
      healthOf (latheArrive s blk) blk.stream = (if prp then { h with prpDup := min (h.prpDup + 1) 65535 } else { h with dup := min (h.dup + 1) 65535 }) ∧
        ChangesOnly [.ing] s (latheArrive s blk)) ∧
  (∀ (s : State) (blk : Block), s.cyc.took = [] → tookOver s blk.epoch blk = none) ∧
  (∀ (s : State) (blk : Block), blankOf s blk.epoch = none → tookOver s blk.epoch blk = none →
    let t := latheArrive s blk
    let later : Prop := match s.aln.newest with | some n => n < blk.epoch | none => epochNow s ≤ blk.epoch
    (later → s.aln.earlyQ.length < 16384 → t.aln = { s.aln with earlyQ := s.aln.earlyQ ++ [blk] } ∧ ChangesOnly [.aln, .regs] s t ∧
      RegsBut [Reg.ALN_EARLY] s t ∧ rd t Reg.ALN_EARLY = min (rd s Reg.ALN_EARLY + 1) (2 ^ 32 - 1)) ∧
    (later → 16384 ≤ s.aln.earlyQ.length → t = inc s Reg.ALN_EARLY_OVF) ∧
    (¬later → t.aln = s.aln ∧ rd t Reg.ALN_TOO_LATE = min (rd s Reg.ALN_TOO_LATE + 1) (2 ^ 32 - 1) ∧
      (healthOf t blk.stream).late = min ((healthOf s blk.stream).late + 1) 65535)) ∧
  (∀ (s : State) (i k : Nat),
    ((∀ d ∈ (rsmOf s i).due, d.1 ≠ k) → exec (.resamplerOutput i k) s = .next s) ∧
    (∀ at_, (rsmOf s i).due.find? (fun d => d.1 == k) = some (k, at_) → ∃ t, exec (.resamplerOutput i k) s = .next t ∧
      ChangesOnly (itemParts ++ [.cycle, .now, .ing, .aln, .spc]) s t ∧ t.cycle = max s.cycle at_ ∧
      (rsmOf t i).due = (rsmOf s i).due.filter (fun x => x.1 != k) ∧ (rsmOf t i).taps = (rsmOf s i).taps))

/-- For every state with a positive addend and a ring of 32 slots. BLANK_OPEN while the Lathe may not open (R87) changes nothing; else the next index opens at its epoch instant, or at once where device time has passed it: the ring's slot holds it OPEN, ALN_NEWEST shows it. A fill starts for an OPEN blank with SPEC_EN that has had none, unless a seal is due, and completes ceil(N / 16) + 64 cycles later, unless a seal is due: the blank is PROVISIONAL and SPC_FILLS counts. SEAL_ALL of an OPEN or PROVISIONAL blank with every expected stream seals it in the next cycle with cause ALL, and SEAL_WAIT at its deadline with cause WAIT, or ALL where every expected stream had arrived; each counts in its register. SEAL_EVALUATION_END of a sealed blank with no ON_SEAL invocation or seal evaluation left makes it AMENDABLE. Each of these for a blank that is not in the ring, or not in the state it asks, and a fill or a seal that is not before its blank's retirement, changes nothing. -/
def Obligations.BlankLife : Prop :=
  ∀ (s : State) (k : Nat), 0 < s.time.addend → s.aln.ring.length = 32 →
    let in_ (t : State) (st : Nat) (f : Blank → Prop) : Prop := ∃ x, blankOf t k = some x ∧ x.epoch = k ∧ x.state = st ∧ f x
    (latheGate s = false → exec .blankOpen s = .next s) ∧
    (latheGate s = true → k = nextIndex s → ∃ t, exec .blankOpen s = .next t ∧ epochPlus s k 0 ≤ t.now ∧ t.aln.newest = some k ∧
      t.aln.ring.length = 32 ∧ rd t Reg.ALN_NEWEST_LO = k % 2 ^ 32 ∧ in_ t 1 (fun x => x.specEn = bit s Reg.ALN_CTRL 0 ∧ x.amendCount = 0)) ∧
    (blankOf s k = none → ∀ c ∈ [Instr.specFillStart k, .specFillComplete k, .sealAll k, .sealWait k, .sealEvaluationEnd k, .amendmentApply k,
      .amendmentEnd k], exec c s = .next s) ∧
    (∀ b, blankOf s k = some b →
      let deadline := deadlineTo s k (getC (confOf s k) Reg.SPC_DEADLINE 0 0 % 2 ^ 22)
      let engine := if s.spc.freeAt ≠ 0 ∧ deadline.cycle ≤ s.spc.freeAt then passCyc deadline (s.spc.freeAt + 1) else deadline
      let fresh : Prop := b.state = 1 ∧ b.specEn = true ∧ b.fillAt = none ∧ b.fillDone = false
      (¬fresh → exec (.specFillStart k) s = .next s) ∧
      (sealDue engine b = true ∨ retireDue engine b = true → exec (.specFillStart k) s = .next s) ∧
      (fresh → sealDue engine b = false → retireDue engine b = false → Completes (.specFillStart k) s [.cycle, .now, .regs, .aln, .spc] [Reg.SPC_FILL_DEFER] (fun t =>
        t.cycle = engine.cycle ∧ in_ t 1 (fun x => x.fillAt = some engine.cycle ∧ x.ph = b.ph ∧ ∀ ch ∈ fillList (confOf s k), Tab.has x.preds ch = true))) ∧
      (b.fillAt = none ∨ b.state ≠ 1 ∨ b.fillDone = true → exec (.specFillComplete k) s = .next s) ∧
      (∀ a, b.fillAt = some a → b.state = 1 → b.fillDone = false →
        let u := passCyc s (a + fillCycles (confOf s k))
        (sealDue u b = true ∨ retireDue u b = true → exec (.specFillComplete k) s = .next s) ∧
        (sealDue u b = false → retireDue u b = false → ∃ t, exec (.specFillComplete k) s = .next t ∧ t.cycle = u.cycle ∧
          rd t Reg.SPC_FILLS = min (rd s Reg.SPC_FILLS + 1) (2 ^ 32 - 1) ∧ in_ t 2 (fun x => x.fillDone = true ∧ x.bflags.testBit 1 = true))) ∧
      (2 < b.state → exec (.sealAll k) s = .next s ∧ exec (.sealWait k) s = .next s) ∧
      (b.fullAt = none → exec (.sealAll k) s = .next s) ∧
      (∀ f, b.fullAt = some f → retireDue (passCyc s (f + 1)) b = true → exec (.sealAll k) s = .next s) ∧
      (∀ f, b.fullAt = some f → b.state ≤ 2 → retireDue (passCyc s (f + 1)) b = false → ∃ t, exec (.sealAll k) s = .next t ∧ t.cycle = max s.cycle (f + 1) ∧
        in_ t 3 (fun x => x.cause = 1) ∧ rd t Reg.ALN_SEAL_ALL = min (rd s Reg.ALN_SEAL_ALL + 1) (2 ^ 32 - 1) ∧
        rd t Reg.ALN_SEAL_WAIT = rd s Reg.ALN_SEAL_WAIT) ∧
      (b.state ≤ 2 →
        let u := deadlineTo s k (getC (confOf s k) Reg.ALN_WAIT 0 0 % 2 ^ 22)
        let cause := if ∃ f, b.fullAt = some f ∧ f < u.cycle then 1 else 2
        (retireDue u b = true → exec (.sealWait k) s = .next s) ∧
        (retireDue u b = false → ∃ t, exec (.sealWait k) s = .next t ∧ t.cycle = u.cycle ∧ in_ t 3 (fun x => x.cause = cause) ∧
          rd t (if cause = 1 then Reg.ALN_SEAL_ALL else Reg.ALN_SEAL_WAIT) =
            min (rd s (if cause = 1 then Reg.ALN_SEAL_ALL else Reg.ALN_SEAL_WAIT) + 1) (2 ^ 32 - 1))) ∧
      (let busy : Prop := (∃ v ∈ s.ssk.invs, v.epoch = k ∧ v.point = 1 ∧ v.quiet = false) ∨ (∃ d ∈ b.dets, d.2.1 = 1)
       (b.state ≠ 3 ∨ busy → exec (.sealEvaluationEnd k) s = .next s) ∧
       (b.state = 3 → ¬busy → ∃ t, exec (.sealEvaluationEnd k) s = .next t ∧ ChangesOnly [.cycle, .now, .regs, .aln, .twn] s t ∧
         t.cycle = max s.cycle (b.evalAt + 1) ∧ in_ t 4 (fun x => x = { b with state := 4 }))))

/-- For every state. AMENDMENT_APPLY of an AMENDABLE blank that is not already in an amendment has queued blocks and does not retire in this cycle: the blank's amendment count grows by 1, ALN_AMENDS counts, the blank's queued blocks have left the queue and every other one stays, and its evaluation point is one cycle later (in this one where another blank's amendment has its point now: log 75); in any other case nothing changes. AMENDMENT_END, once no ON_AMEND invocation of the blank and no session frame of it waiting to be sent is left, ends it; else nothing changes. A write of SPC_CTRL with HIST_CLR sets MISSLOG_IVL and has every history cleared at the next opening. A write of SPC_CHCLR zeroes one channel's miss count, or every channel's. A floor within its permitted range is stored, and one outside it, or a NaN, only sets FLOOR_REFUSED. -/
def Obligations.Amendments : Prop :=
  ∀ (s : State),
    (∀ k b, blankOf s k = some b →
      let q := s.aln.amendQ.filter (fun x => x.epoch == k)
      let may : Prop := b.state = 4 ∧ q ≠ [] ∧ b.amendBusy = false ∧ retireDue s b = false
      (¬may → exec (.amendmentApply k) s = .next s) ∧
      (may → s.aln.ring.length = 32 → ∃ t x, exec (.amendmentApply k) s = .next t ∧ blankOf t k = some x ∧ x.state = 4 ∧
        x.amendCount = b.amendCount + 1 ∧ x.amendBusy = true ∧ t.aln.amendQ = s.aln.amendQ.filter (fun x => x.epoch != k) ∧
        t.cycle = (if amendPoint s then s.cycle else s.cycle + 1) ∧ (∀ y ∈ q, x.arrivedMap.testBit y.stream = true) ∧
        rd t Reg.ALN_AMENDS = min (rd s Reg.ALN_AMENDS + 1) (2 ^ 32 - 1)) ∧
      (let waits : Prop := b.amendBusy = false ∨ (∃ v ∈ s.ssk.invs, v.epoch = k ∧ v.point = 2 ∧ v.quiet = false) ∨
         (∃ l ∈ s.out.tx, ∃ f ∈ l, f.kind = 1 ∧ f.epoch = k)
       (waits → exec (.amendmentEnd k) s = .next s) ∧
       (¬waits → exec (.amendmentEnd k) s = .next (setBlank s { b with amendBusy := false })))) ∧
    (∀ v : Word, gated s Reg.SPC_CTRL = false →
      Completes (.spcHistClr v) s [.regs, .spc] [Reg.SPC_CTRL] (fun t => t.spc = { s.spc with histClr := true } ∧
        fld t Reg.SPC_CTRL 15 8 = v.toNat / 256 % 256) ∧
      Completes (.spcChannelMissClear v) s [.spc] [] (fun t => ∀ ch,
        chanOf t ch = if v.toNat.testBit 31 = true ∨ ch = v.toNat % 2 ^ 18 then { chanOf s ch with miss := 0 } else chanOf s ch)) ∧
    (∀ (i : Fin 4) (v : Word), gated s Reg.SPC_FLOOR_PH = false →
      let ok : Prop := isNaN f32 v.toNat = false ∧ flt f32 v.toNat (floorRange i).1 = false ∧ flt f32 (floorRange i).2 v.toNat = false
      (ok → Completes (.spcFloorWrite i v) s [.regs] [Reg.SPC_FLOOR_PH + 4 * i] (fun t => rd t (Reg.SPC_FLOOR_PH + 4 * i) = v.toNat)) ∧
      (¬ok → Completes (.spcFloorWrite i v) s [.regs] [Reg.SPC_STATUS] (fun t => rd t Reg.SPC_STATUS = rd s Reg.SPC_STATUS ||| 1)))

/-- For every state, line and evaluation point. An assertion of a line that DET_ALM_CFG, as it stood at the cycle's start, does not enable counts in DET_ALM_DISABLED, one of a line latched in an earlier cycle in DET_ALM_REPEAT, and neither changes a latch or its record; one of a line latched in this cycle by a source that R300 puts later takes over its record, and else changes nothing; else the line is latched, provisionally where the point is provisional, with its source and epoch in its registers, and DET_ALM_LATCHES counts. DET_ALM_ACK, its block not gated, clears the latch and the provisional bit of every latched line written 1 and no other line's; a line asserted in the same cycle stays latched (R301). The pins of the lines show, but in BOOT and LAST-GASP: active, by the line's polarity, exactly the latched lines in SOLO, ACTIVE and LEGACY-ACTIVE, and no line in any other mode. -/
def Obligations.AlarmLines : Prop :=
  (∀ (s : State) (n src k : Nat), n < 16 → src < 2 ^ 32 →
    let t := assertLine s n src k
    let en : Prop := (s.cyc.almCfg.getD (rd s Reg.DET_ALM_CFG)).testBit n = true
    let now : Prop := Tab.has s.cyc.lines n = true
    let lat : Prop := (rd s Reg.DET_ALM_STATE).testBit n = true
    let same : Prop := ChangesOnly [.regs, .aln, .twn] s t ∧ rd t Reg.DET_ALM_STATE = rd s Reg.DET_ALM_STATE
    (¬en → same ∧ RegsBut [Reg.DET_ALM_DISABLED] s t ∧ rd t Reg.DET_ALM_DISABLED = min (rd s Reg.DET_ALM_DISABLED + 1) (2 ^ 32 - 1)) ∧
    (en → lat → now →
      (¬(almRank src < Tab.get (fun _ => 0) s.cyc.lines n) → same ∧ t.regs = s.regs) ∧
      (almRank src < Tab.get (fun _ => 0) s.cyc.lines n → rd t (Reg.DET_ALM_SRC n) = src ∧ rd t (Reg.DET_ALM_EPOCH n) = k % 2 ^ 32 ∧
        RegsBut [Reg.DET_ALM_STATE, Reg.DET_ALM_SRC n, Reg.DET_ALM_EPOCH n] s t ∧
        (∀ b, b < 32 → b ≠ 16 + n → (rd t Reg.DET_ALM_STATE).testBit b = (rd s Reg.DET_ALM_STATE).testBit b))) ∧
    (en → lat → ¬now → same ∧ RegsBut [Reg.DET_ALM_REPEAT] s t ∧ rd t Reg.DET_ALM_REPEAT = min (rd s Reg.DET_ALM_REPEAT + 1) (2 ^ 32 - 1)) ∧
    (en → ¬lat → ChangesOnly (itemParts ++ [.freeCtr, .aln, .out, .det, .twn]) s t ∧
      (∀ b, b < 32 → (rd t Reg.DET_ALM_STATE).testBit b = if b = n then true else if b = 16 + n then decide (bits src 29 28 = 0)
        else (rd s Reg.DET_ALM_STATE).testBit b) ∧
      rd t (Reg.DET_ALM_SRC n) = src ∧ rd t (Reg.DET_ALM_EPOCH n) = k % 2 ^ 32 ∧
      rd t Reg.DET_ALM_LATCHES = min (rd s Reg.DET_ALM_LATCHES + 1) (2 ^ 32 - 1) ∧
      (∀ m, m < 16 → m ≠ n → rd t (Reg.DET_ALM_SRC m) = rd s (Reg.DET_ALM_SRC m) ∧ rd t (Reg.DET_ALM_EPOCH m) = rd s (Reg.DET_ALM_EPOCH m)))) ∧
  (∀ (s : State) (v : Word),
    (gated s Reg.DET_ALM_ACK = true → exec (.alarmAck v) s = .next s) ∧
    (gated s Reg.DET_ALM_ACK = false → ∃ t, exec (.alarmAck v) s = .next t ∧
      ChangesOnly (itemParts ++ [.freeCtr, .out, .det]) s t ∧
      (∀ b, b < 32 →
        let asked := v.toNat.testBit (b % 16) && (rd s Reg.DET_ALM_STATE).testBit (b % 16)
        let held : Prop := Tab.has s.cyc.lines (b % 16) = true ∨ Tab.get (fun _ => []) s.cyc.asserted (b % 16) ≠ []
        (¬held → (rd t Reg.DET_ALM_STATE).testBit b = ((rd s Reg.DET_ALM_STATE).testBit b && !asked)) ∧
        (held → b < 16 → (rd t Reg.DET_ALM_STATE).testBit b = (rd s Reg.DET_ALM_STATE).testBit b)) ∧
      (mode s ≠ 0 → mode s ≠ 9 → t.pins.alarmDriven = true ∧ ∀ n, n < 16 → t.pins.alarm.testBit n =
        ((decide (mode s = 3 ∨ mode s = 4 ∨ mode s = 6) && (rd t Reg.DET_ALM_STATE).testBit n) == (rd t Reg.DET_ALM_CFG).testBit (16 + n)))))

/-- For every state. GOOSE_RETRANSMIT with GOOSE enabled and running, in a mode that permits it and after a first message, sends one interval after the last: sqNum counts on (0xFFFFFFFF is followed by 1), stNum stays, and the next interval is twice as long, up to T0; else nothing changes. A detector unit takes its evaluations one after the other, `detNext` being the first by the cycle of its point, provisional and seal before amendment, and epoch, of all that wait in the ring (R281). OSC_EVALUATION and ISL_EVALUATION of another blank than that one's change nothing. An oscillation evaluation that runs counts in DET_OSC_EVALS. Of the island unit, an amendment's that is more than 60 µs old is skipped and counted in DET_ISL_AMEND_SKIP; any other records, for every pair of enabled groups, the divergence of their weighted averages for this blank, and counts in DET_ISL_EVALS. -/
def Obligations.GooseAndDetectors : Prop :=
  ∀ (s : State),
    (let runs : Prop := (rd s Reg.DET_GS_CFG).testBit 31 = true ∧ gated s Reg.DET_GS_CFG = false ∧ (mode s = 3 ∨ mode s = 4 ∨ mode s = 6) ∧ s.det.gsDs ≠ none
     (¬runs → exec .gooseRetransmit s = .next s) ∧
     (runs → Completes .gooseRetransmit s [.cycle, .now, .freeCtr, .regs, .out, .det] [Reg.DET_GS_SQNUM, Reg.DET_GS_SENT] (fun t =>
       t.cycle = max s.cycle (s.det.gsAt + s.det.gsIvl * 500000) ∧ t.det.gsAt = t.cycle ∧
       rd t Reg.DET_GS_SQNUM = (if rd s Reg.DET_GS_SQNUM = 0xFFFFFFFF then 1 else rd s Reg.DET_GS_SQNUM + 1) ∧
       t.det.gsIvl = min (2 * s.det.gsIvl) (max 10 (min 60000 (fld s Reg.DET_GS_TIMING 31 16)))))) ∧
    (∀ u : Nat,
      (detNext s u = none ↔ ∀ b, some b ∈ s.aln.ring → ∀ e ∈ b.dets, e.1 ≠ u) ∧
      (∀ k d, detNext s u = some (k, d) → (∃ b, some b ∈ s.aln.ring ∧ b.epoch = k ∧ d ∈ b.dets ∧ d.1 = u) ∧
        ∀ b, some b ∈ s.aln.ring → ∀ e ∈ b.dets, e.1 = u → detBefore (b.epoch, e) (k, d) = false)) ∧
    (∀ k : Nat, (∀ d, detNext s 8 ≠ some (k, d)) → exec (.islEvaluation k) s = .next s) ∧
    (∀ (u : Fin 8) (k : Nat), (∀ d, detNext s u.val ≠ some (k, d)) → exec (.oscEvaluation u k) s = .next s) ∧
    (∀ (k : Nat) (b : Blank), blankOf s k = some b → s.aln.ring.length = 32 →
      (∀ (u : Fin 8) d, detNext s u.val = some (k, d) →
        ∃ t, exec (.oscEvaluation u k) s = .next t ∧ rd t Reg.DET_OSC_EVALS = min (rd s Reg.DET_OSC_EVALS + 1) (2 ^ 32 - 1) ∧
          ChangesOnly (itemParts ++ [.freeCtr, .ntab, .aln, .out, .det, .twn, .pwr]) s t) ∧
      (∀ d, detNext s 8 = some (k, d) →
        (d.2.1 = 2 → d.2.2 + 30000 < s.cycle → Completes (.islEvaluation k) s [.regs, .ntab, .aln, .pwr] [Reg.DET_ISL_AMEND_SKIP, Reg.SYS_OOS_ACK_UNIT, Reg.PWR_STATUS] (fun t =>
          rd t Reg.DET_ISL_AMEND_SKIP = min (rd s Reg.DET_ISL_AMEND_SKIP + 1) (2 ^ 32 - 1))) ∧
        (d.2.1 ≠ 2 ∨ s.cycle ≤ d.2.2 + 30000 →
          let c := confOf s k
          (∀ g ∈ groupsOf c, g < 64) →
          ∃ t, exec (.islEvaluation k) s = .next t ∧ ChangesOnly (itemParts ++ [.freeCtr, .ntab, .aln, .out, .det, .twn, .pwr]) s t ∧
            rd t Reg.DET_ISL_EVALS = min (rd s Reg.DET_ISL_EVALS + 1) (2 ^ 32 - 1) ∧
            ∀ x ∈ groupsOf c, ∀ y ∈ groupsOf c, x < y → Tab.get (fun _ => 0) t.det.isl ((x * 64 + y) * 32 + k % 32) =
              outCode (divergence c (groupVals s c k x) (groupVals s c k y)))))

/-- For every state with four transmit queues and 32 places for blanks. Sending copies of a frame appends one to the queue of each port of the mask (with PRP, of both of its LANs where it names one) that transmits, has room in its 256 KiB and takes a session's frame of that length, on the PRP pair with a trailer of 6 bytes and the one sequence number, and touches no other queue. ETH_FRAME_TRANSMIT takes the frame at the front of its port's queue (a Pdelay_Resp or a Sync, its time stamped, is followed by its follow-up); an empty queue stays. SESSION_FINAL_SEND of a blank that is not in the ring, is sealed, has been sent by the session or is not due by the session's wait changes nothing; else the instant is the session's, the session counts as having sent the blank, and where its data state and mode let it send, a TYPE 0 frame, or a TYPE 1 frame with no key, goes out in copies on its ports and OUT_FRAMES counts it if some copy was queued; a keyed one that another unit sends is not sent. KEY_CELL_EPOCH_LIMIT suspends a session that has used a cell for 2^27 epochs, once, with one item, and else changes nothing. A command of a receiver for an enabled TYPE 0 session from its DST address counts in OUT_CMD_RX; with CMD_EN 0 it also counts in OUT_CMD_IGNORED and nothing else changes; with CMD_EN 1 data off and on wait for the next session blank, and each of the other four, in a mode that permits output, sends one reply in copies to the source; from any other address nothing changes. -/
def Obligations.OutputFrames : Prop :=
  ∀ (s : State), s.out.tx.length = 4 → s.aln.ring.length = 32 →
    (∀ (ports seq : Nat) (f : TxFrame) (p : Nat), p < 4 →
      let g : TxFrame := if p < 2 ∧ prpOn s = true then { f with prp := some (p, seq), size := f.size + 6 } else f
      (sendCopies s ports seq f).1.out.tx.getD p [] = s.out.tx.getD p [] ++
        (if (ports.testBit p = true ∨ (prpOn s = true ∧ p < 2 ∧ ports % 4 ≠ 0)) ∧ (4 ≤ f.kind ∨ f.size ≤ maxLen s p) ∧ txEn s p = true ∧
          ((s.out.tx.getD p []).map (fun x => x.size)).sum + g.size ≤ 262144 then [g] else [])) ∧
    (∀ p : Fin 4, s.out.tx.getD p.val [] = [] → exec (.ethFrameTransmit p) s = .next s) ∧
    (∀ (p : Fin 4) f q, s.out.tx.getD p.val [] = f :: q → Completes (.ethFrameTransmit p) s [.freeCtr, .regs, .time, .out] [Reg.TIME_TXTS_TAG p.val] (fun t =>
      let g : TxFrame := ptpFrame (if f.src = 3 then 10 else 8) f.epoch
      let follow : List TxFrame := if f.kind = 6 ∧ (f.src = 3 ∨ f.src = 0) ∧ (s.time.txts.getD p.val []).length < 16 ∧ txEn s p.val = true ∧
        (q.map (fun x => x.size)).sum + g.size ≤ 262144 then [g] else []
      (∀ n, t.out.tx.getD n [] = if n = p.val then q ++ follow else s.out.tx.getD n []) ∧ t.out.sess = s.out.sess)) ∧
    (∀ i k : Nat, blankOf s k = none → exec (.sessionFinalSend i k) s = .next s) ∧
    (∀ (i k : Nat) b, blankOf s k = some b →
      let c := confOf s k
      let w := getC c Reg.ALN_WAIT 0 0 % 2 ^ 22
      let s1 := deadlineTo s k (ssWait c i)
      let due : Prop := b.state ≤ 2 ∧ i ∉ b.sent ∧ ssEn c i = true ∧ ssWait c i < w ∧
        ¬(ssEarly c i = true ∧ b.state = 1 ∧ b.specEn = true ∧ getC c Reg.SPC_DEADLINE 0 0 % 2 ^ 22 < w)
      let body : List Nat := if ssType c i = 0 then
          c37Frame 0 (ssIdcode c i) (c37Time s1 c k) (((ssBlocks c i).map (c37Block c b false (ssPolar c i) (sessArmed s i))).flatten)
        else rsvBody s1 c b i false 0
      let frame : TxFrame := ⟨0, i, k, 0, none, (ssDst c i, ssF c i 7 31 16),
        ethBytes c i (if ssType c i = 0 then body.length else Config.encSize 0 body), body, sessHead c i⟩
      (¬due → exec (.sessionFinalSend i k) s = .next s) ∧
      (due → serves s c i k = true → Completes (.sessionFinalSend i k) s (itemParts ++ [.cycle, .now, .aln, .out, .twn])
          (Reg.OUT_TX_DROP :: Reg.OUT_FRAMES :: Reg.OUT_KEY_DROP :: itemRegs) (fun t =>
        t.cycle = s1.cycle ∧ t.now = s1.now ∧ blankOf t k = some { b with sent := b.sent ++ [i] } ∧
        (i ∉ b.mute → sessDataOn s c i = true → runsOutput (mode s) = true →
          (ssType c i = 0 ∨ (ssType c i = 1 ∧ ssKeyed c i = false) → t.out.tx = (sendCopies s (ssPorts c i) (prpSeq k 0) frame).1.out.tx ∧
            rd t Reg.OUT_FRAMES = min (rd s Reg.OUT_FRAMES + if 0 < (sendCopies s (ssPorts c i) (prpSeq k 0) frame).2.1 then 1 else 0) (2 ^ 32 - 1)) ∧
          (ssType c i = 1 → ssKeyed c i = true → keyedHere s = false → t.out = s.out))))) ∧
    (∀ i : Nat,
      let slot := ssSlot s.cfg i
      let spent : Prop := ∃ first, firstUse (sessOf s i) slot (slotOf s slot).gen = some first ∧ first + 2 ^ 27 ≤ newestOr s
      (¬(spent ∧ (sessOf s i).keyWait = false) → exec (.keyCellEpochLimit i) s = .next s) ∧
      (spent ∧ (sessOf s i).keyWait = false → Completes (.keyCellEpochLimit i) s (itemParts ++ [.out]) itemRegs (fun t =>
        sessOf t i = { sessOf s i with keyWait := true } ∧ ∀ j, j ≠ i → sessOf t j = sessOf s j))) ∧
    (∀ (i src : Nat) (v6 : Bool) (udp : Nat),
      let c := s.cfg
      let mine : Prop := ssEn c i = true ∧ ssType c i = 0 ∧ ssDst c i = src ∧ ssV6 c i = v6
      let rx : Nat := min (rd s Reg.OUT_CMD_RX + 1) (2 ^ 32 - 1)
      let cmds : List Instr := [.c37DataOff i ⟨src, v6⟩ udp, .c37DataOn i ⟨src, v6⟩ udp, .c37SendHeader i ⟨src, v6⟩ udp, .c37SendCfg1 i ⟨src, v6⟩ udp,
        .c37SendCfg2 i ⟨src, v6⟩ udp, .c37SendCfg3 i ⟨src, v6⟩ udp]
      let reply (x : Instr) (kind sync sub : Nat) (body : List Nat) : Prop :=
        let f := c37Frame sync (ssIdcode c i) (c37Time s c (newestOr s)) body
        Completes x s [.regs, .out] [Reg.OUT_CMD_RX, Reg.OUT_TX_DROP] (fun t => rd t Reg.OUT_CMD_RX = rx ∧
          t.out.tx = if runsOutput (mode s) = true then (sendCopies s (ssPorts c i) (prpSeq (newestOr s) sub)
            ⟨kind, i, newestOr s, 0, none, (src, udp), ethBytes c i f.length, f, sessHead c i⟩).1.out.tx else s.out.tx)
      (¬mine → ∀ x ∈ cmds, exec x s = .next s) ∧
      (mine → ssCmdEn c i = false → ∀ x ∈ cmds, Completes x s [.regs] [Reg.OUT_CMD_RX, Reg.OUT_CMD_IGNORED] (fun t =>
        rd t Reg.OUT_CMD_RX = rx ∧ rd t Reg.OUT_CMD_IGNORED = min (rd s Reg.OUT_CMD_IGNORED + 1) (2 ^ 32 - 1))) ∧
      (mine → ssCmdEn c i = true →
        (∀ on, Completes (if on then .c37DataOn i ⟨src, v6⟩ udp else .c37DataOff i ⟨src, v6⟩ udp) s [.regs, .out] [Reg.OUT_CMD_RX] (fun t =>
          rd t Reg.OUT_CMD_RX = rx ∧ sessOf t i = { sessOf s i with want := some on } ∧ t.out.tx = s.out.tx ∧
          ∀ j, j ≠ i → sessOf t j = sessOf s j)) ∧
        reply (.c37SendHeader i ⟨src, v6⟩ udp) 3 1 15 (nameOf c (bkF c (ssF c i 2 31 18) 2 15 0)) ∧
        reply (.c37SendCfg1 i ⟨src, v6⟩ udp) 2 2 14 (cfgBody s c i) ∧
        reply (.c37SendCfg2 i ⟨src, v6⟩ udp) 2 3 14 (cfgBody s c i) ∧
        reply (.c37SendCfg3 i ⟨src, v6⟩ udp) 2 5 14 (cfgBody s c i)))

/-- For every state with its 16 rings and every ring. A vector's message is sent, once a cycle, where MSI-X is enabled, neither function nor vector is masked and the bus can be mastered; else it pends. RING_ENABLE and RING_DISABLE of a gated register change nothing; else EN, IRQ_EN and VEC take what is written, LOG2SIZE only while EN was 0 and IDLE 1; a ring newly enabled starts at index 0 with PHASE 1, armed; clearing EN clears HALTED where IDLE is 1; an armed ring whose IRQ_EN is left 1 with CNT unsignalled completions signals. DESC_TAIL_WRITE posts descriptors up to the new tail and CPL_HEAD_WRITE frees entries, arms the ring and signals where completions remain; then a waiting record tries again. RECORD_PLACE in HALT or with no record changes nothing; on a ring off or halted, without the bus or without room, a Drop ring drops and counts the record and a Wait ring keeps it; one that 64 descriptors cannot hold is dropped with TRUNC; where enough good descriptors and completion entries are free, both indices move on and RECORDS counts; where a descriptor is bad, the ring halts with code 4. Outside HALT, IRQ_MOD_TIMEOUT signals an armed ring no earlier than USEC µs after its first unsignalled completion, and DMA_ERROR_COMPLETION halts a running ring with its code and signals vector 31, or marks the next completion (5: bus error on a buffer). FUNCTION_LEVEL_RESET stops every ring, drops what waits for the Drop rings, resets MSI-X and abandons the host's jobs. PCIE_LINK_CHANGE changes the link, PCIE_CONFIG_WRITE, from 100 ms after such a reset, the configuration space; once the bus can be mastered, waiting answers are written and unmasked pending vectors sent (one message a cycle and the waiting: DESIGN CHOICE, log 153). -/
def Obligations.RingCommands : Prop :=
  ∀ (s : State), s.dma.rings.length = 16 →
    (∀ v, v < 32 → ChangesOnly [.dma] s (signalVec s v) ∧
      (if s.dma.msixEn = true ∧ s.dma.msixAll = false ∧ s.dma.msixMask.testBit v = false ∧ s.dma.linkUp = true ∧ s.dma.bme = true ∧
          s.dma.d3hot = false ∧ mode s ≠ Mode.halt then
        (signalVec s v).dma.msixPend = s.dma.msixPend ∧
          ∀ w, Tab.get (fun _ => 0) (signalVec s v).dma.msixSent w =
            Tab.get (fun _ => 0) s.dma.msixSent w + if w = v ∧ s.cyc.vecs.testBit v = false then 1 else 0
       else (signalVec s v).dma.msixSent = s.dma.msixSent ∧
          ∀ w, (signalVec s v).dma.msixPend.testBit w = (decide (w = v) || s.dma.msixPend.testBit w))) ∧
    (∀ (r : Fin 16) (v : Word),
      let R := [Reg.RING_CTRL r.val, Reg.RING_STATUS r.val, Reg.RING_DESC_HEAD r.val, Reg.RING_CPL_TAIL r.val]
      let was := bit s (Reg.RING_CTRL r.val) 31
      let idle := bit s (Reg.RING_STATUS r.val) 31
      let flds (t : State) : Prop := fld t (Reg.RING_CTRL r.val) 25 20 = bits v.toNat 25 20 ∧
        fld t (Reg.RING_CTRL r.val) 19 16 = if was = false ∧ idle = true then bits v.toNat 19 16 else fld s (Reg.RING_CTRL r.val) 19 16
      let g := ringOf s r.val
      let due : Prop := v.toNat.testBit 25 = true ∧ g.armed = true ∧ max 1 (fld s (Reg.RING_IRQ_MOD r.val) 15 0) ≤ g.unsig
      let sent (t : State) : Prop := (due → t.dma = (signalVec (setRing s r.val { g with armed := false, unsig := 0 }) (bits v.toNat 24 20)).dma) ∧
        (¬due → t.dma = s.dma)
      (gated s (Reg.RING_CTRL r.val) = true → exec (.ringEnable r v) s = .next s ∧ exec (.ringDisable r v) s = .next s) ∧
      (gated s (Reg.RING_CTRL r.val) = false →
        Completes (.ringEnable r v) s [.regs, .dma] R (fun t => bit t (Reg.RING_CTRL r.val) 31 = true ∧ flds t ∧ rd t (Reg.RING_STATUS r.val) = rd s (Reg.RING_STATUS r.val) ∧
          (was = false → fld t (Reg.RING_DESC_HEAD r.val) 15 0 = 0 ∧ fld t (Reg.RING_CPL_TAIL r.val) 15 0 = 0 ∧ 
            t.dma = (setRing s r.val { ringOf s r.val with phase := true, unsig := 0, armed := true, tried := false }).dma) ∧
          (was = true → sent t)) ∧
        Completes (.ringDisable r v) s [.regs, .dma] R (fun t => bit t (Reg.RING_CTRL r.val) 31 = false ∧ flds t ∧ sent t ∧
          (∀ b, b < 32 → bit t (Reg.RING_STATUS r.val) b = (bit s (Reg.RING_STATUS r.val) b && !(decide (b = 30) && idle)))))) ∧
    (∀ (r : Fin 16) (v : Word) (ds : List Desc),
      let n := ringSize s r.val
      let new := v.toNat % 2 ^ 16 % n
      let again (t : State) : State := if (ringOf s r.val).tried = true then placeRec t r.val else t
      (gated s (Reg.RING_DESC_TAIL r.val) = true → exec (.descTailWrite r v ds) s = .next s) ∧
      (gated s (Reg.RING_DESC_TAIL r.val) = false → ∃ t, exec (.descTailWrite r v ds) s = .next (again t) ∧ ChangesOnly [.regs, .dma] s t ∧
        RegsBut [Reg.RING_DESC_TAIL r.val] s t ∧ fld t (Reg.RING_DESC_TAIL r.val) 15 0 = new ∧
        ringOf t r.val = { ringOf s r.val with q := (ringOf t r.val).q } ∧ (∀ x, x ≠ r.val → ringOf t x = ringOf s x) ∧
        ∀ i, i < n → Tab.get noDesc (ringOf t r.val).q i =
          (let j := (i + n - fld s (Reg.RING_DESC_TAIL r.val) 15 0 % n) % n
           if j < (new + n - fld s (Reg.RING_DESC_TAIL r.val) 15 0 % n) % n ∧ j < ds.length then ds.getD j (noDesc 0)
           else Tab.get noDesc (ringOf s r.val).q i)) ∧
      (gated s (Reg.RING_CPL_HEAD r.val) = true → exec (.cplHeadWrite r v) s = .next s) ∧
      (gated s (Reg.RING_CPL_HEAD r.val) = false →
        let left := (fld s (Reg.RING_CPL_TAIL r.val) 15 0 + n - new) % n
        let sig : Prop := bit s (Reg.RING_CTRL r.val) 25 = true ∧ left ≠ 0
        ∃ t, exec (.cplHeadWrite r v) s = .next (again t) ∧ ChangesOnly [.regs, .dma] s t ∧ RegsBut [Reg.RING_CPL_HEAD r.val] s t ∧
          fld t (Reg.RING_CPL_HEAD r.val) 15 0 = new ∧ (∀ x, x ≠ r.val → ringOf t x = ringOf s x) ∧
          (¬sig → ringOf t r.val = { ringOf s r.val with armed := true, unsig := left, firstUnsig := s.cycle }) ∧
          (sig → ringOf t r.val = { ringOf s r.val with armed := false, unsig := 0, firstUnsig := s.cycle } ∧
            t.dma.msixPend = (signalAt s (fld s (Reg.RING_CTRL r.val) 24 20) (32 + fld s (Reg.RING_CTRL r.val) 24 20)).dma.msixPend ∧
            t.dma.msixSent = (signalAt s (fld s (Reg.RING_CTRL r.val) 24 20) (32 + fld s (Reg.RING_CTRL r.val) 24 20)).dma.msixSent))) ∧
    (∀ r : Fin 16, mode s = Mode.halt ∨ frontRec s r.val = none → exec (.recordPlace r) s = .next s) ∧
    (∀ (r : Fin 16) rec, mode s ≠ Mode.halt → frontRec s r.val = some rec → rec.bytes ≠ [] →
      let n := ringSize s r.val
      let h := fld s (Reg.RING_DESC_HEAD r.val) 15 0
      let off : Prop := busOk s = false ∨ ringRuns s r.val = false
      let good (k : Nat) : Prop := ∀ i, i < k → descOk (Tab.get noDesc (ringOf s r.val).q ((h + i) % n)) = true
      let none_ : Prop := (r.val < 2 → exec (.recordPlace r) s = .next (inc (popRec s r.val) (Reg.RING_NOBUF r.val))) ∧
        (2 ≤ r.val → exec (.recordPlace r) s = .next (setRing s r.val { ringOf s r.val with tried := true }))
      (off → none_) ∧
      (¬off → descsFor s r.val (min 64 (posted s r.val)) h rec.bytes.length = none →
        (posted s r.val < 64 → none_) ∧
        (64 ≤ posted s r.val → exec (.recordPlace r) s =
          .next (setB (inc (popRec s r.val) (Reg.RING_NOBUF r.val)) (Reg.RING_STATUS r.val) 29 true))) ∧
      (∀ k, ¬off → descsFor s r.val (min 64 (posted s r.val)) h rec.bytes.length = some k →
        (¬good k → exec (.recordPlace r) s = .next (haltRing s r.val 4)) ∧
        (good k → cplRoom s r.val < k → none_) ∧
        (good k → k ≤ cplRoom s r.val → ∃ t, exec (.recordPlace r) s = .next t ∧ ChangesOnly [.regs, .chutes, .dma, .ssk] s t ∧
          fld t (Reg.RING_DESC_HEAD r.val) 15 0 = (if k = 0 then h else (h + k) % n) ∧
          rd t (Reg.RING_RECORDS r.val) = (rd s (Reg.RING_RECORDS r.val) + 1) % 2 ^ 32 ∧ (ringOf t r.val).tried = false))) ∧
    (∀ r : Fin 16,
      let g := ringOf s r.val
      let off : Prop := mode s = Mode.halt ∨ g.unsig = 0 ∨ g.armed = false ∨ bit s (Reg.RING_CTRL r.val) 25 = false
      (off → exec (.irqModTimeout r) s = .next s) ∧
      (¬off → Completes (.irqModTimeout r) s [.cycle, .now, .dma] [] (fun t =>
        let u := passCyc s (g.firstUnsig + 500 * fld s (Reg.RING_IRQ_MOD r.val) 31 16)
        t.cycle = max s.cycle (g.firstUnsig + 500 * fld s (Reg.RING_IRQ_MOD r.val) 31 16) ∧ ringOf t r.val = { g with armed := false, unsig := 0 } ∧
        t.dma.msixPend = (signalVec u (fld s (Reg.RING_CTRL r.val) 24 20)).dma.msixPend ∧
        t.dma.msixSent = (signalVec u (fld s (Reg.RING_CTRL r.val) 24 20)).dma.msixSent))) ∧
    (∀ (r : Fin 16) (code : Fin 6),
      let acts : Prop := mode s ≠ Mode.halt ∧ code.val ≠ 0 ∧ ringRuns s r.val = true
      (¬acts → exec (.dmaErrorCompletion r code) s = .next s) ∧
      (acts → code.val = 5 → exec (.dmaErrorCompletion r code) s =
        .next (if r.val = 15 then s else setRing s r.val { ringOf s r.val with bufErr := true })) ∧
      (acts → code.val ≠ 5 → Completes (.dmaErrorCompletion r code) s [.regs, .dma] [Reg.RING_STATUS r.val] (fun t =>
        bit t (Reg.RING_STATUS r.val) 30 = true ∧ fld t (Reg.RING_STATUS r.val) 23 16 = code.val ∧ t.dma = (signalVec s 31).dma))) ∧
    Completes .functionLevelReset s [.regs, .rseq, .dma, .cmp, .nvs, .key]
      ([Reg.CMP_JOBS, Reg.CMP_ERR_CNT, Reg.CMP_STATUS, Reg.NVS_LOG_DROPPED, Reg.NVS_LOG_QDROP, Reg.NVS_STATUS] ++
        (List.range 16).map Reg.RING_CTRL ++ (List.range 16).map Reg.RING_STATUS) (fun t =>
      (∀ r, r < 16 → bit t (Reg.RING_CTRL r) 31 = false ∧ bit t (Reg.RING_STATUS r) 30 = false ∧ bit t (Reg.RING_STATUS r) 31 = true ∧
        ringOf t r = { ringOf s r with unsig := 0, tried := false, bufErr := false, waiting := (ringOf t r).waiting } ∧ (r < 2 → (ringOf t r).waiting = []) ∧
        (2 ≤ r → r ≠ 13 → (ringOf t r).waiting = (ringOf s r).waiting)) ∧
      t.dma.msixMask = 2 ^ 32 - 1 ∧ t.dma.msixPend = 0 ∧ t.dma.msixTab = [] ∧ t.dma.msixEn = false ∧ t.dma.msixAll = false ∧ t.dma.owed = [] ∧
      t.dma.cfgAt = s.cycle + 50000000 ∧ t.dma.bme = s.dma.bme ∧ t.cmp.order = [] ∧ t.cmp.queues.getD 2 [] = [] ∧ ∀ e j, t.cmp.run.getD e none = some j → j.queue ≠ 2) ∧
    (let back (c : Instr) (u : State) : Prop :=
       (busOk u = false → exec c s = .next u) ∧
       (busOk u = true → ∃ t, exec c s = .next t ∧ ChangesOnly [.regs, .dma] s t ∧
         RegsBut (s.dma.owed.map (fun o => Reg.RING_CPL_TAIL o.ring) ++ s.dma.owed.map (fun o => Reg.RING_RECORDS o.ring)) s t ∧
         t.dma.owed = [] ∧ t.dma.linkUp = u.dma.linkUp ∧ t.dma.bme = u.dma.bme ∧ t.dma.d3hot = u.dma.d3hot ∧ t.dma.msixMask = s.dma.msixMask ∧
         t.dma.msixEn = u.dma.msixEn ∧ t.dma.msixAll = u.dma.msixAll ∧ t.dma.mps = u.dma.mps ∧ t.dma.mrrs = u.dma.mrrs ∧
         (s.dma.owed = [] → t.dma.hostMem = s.dma.hostMem ∧ t.dma.rings = s.dma.rings ∧ RegsBut [] s t) ∧
         (∀ v, v < 32 → t.dma.msixEn = true → t.dma.msixAll = false → t.dma.msixMask.testBit v = false → t.dma.msixPend.testBit v = false))
     (∀ up, back (.pcieLinkChange up) { s with dma := { s.dma with linkUp := up } }) ∧
     (∀ b d e a (p : Fin 3) (q : Fin 6),
       (s.cycle < s.dma.cfgAt → exec (.pcieConfigWrite ⟨b, d, p, q⟩ ⟨e, a⟩) s = .next s) ∧
       (s.dma.cfgAt ≤ s.cycle → back (.pcieConfigWrite ⟨b, d, p, q⟩ ⟨e, a⟩)
         { s with dma := { s.dma with bme := b, d3hot := d, msixEn := e, msixAll := a, mps := p.val, mrrs := q.val } })))

/-- For every state with its 4 chutes and every chute; its complete items are those whose last word came in an earlier cycle (R355). CHUTE_POP of a gated register reads 0. Where no item was refused earlier in its cycle: with a byte enable clear it returns the last word's low half and changes nothing else; a full read, READER being 0, pops the next word of the item being read, else the header of the oldest item of the highest priority, returns its low half, latches both halves and counts the item that ends; with READER 1 or no item it sets UNDERRUN and returns the last word's low half. A flush, not gated, leaves no item, no word and no open item, counts each item it cuts and answers 0 to a CHUT among them; items not yet begun stay. CH_PUSH_SOI, not gated, drops an unfinished item of the port; a header with LEN 9 to 15, or whose item does not fit in 32 words with all that is held or promised, is refused and counted and takes no record number; else the item opens with its header, the next record number and the time, on its way at once where LEN is 0, and the taps of its header fire. CH_PUSH_HI, not gated, adds its word to the open item, which is on its way with its last; after a refused header it discards the word; else it refuses it. None of the four takes a chute beyond 32 words. -/
def Obligations.ChuteCommands : Prop :=
  ∀ (s : State) (n : Fin 4) (v : Word), s.chutes.length = 4 →
    let c := chuteOf s n.val
    let w := v.toNat * 2 ^ 32 + rd s (Reg.CH_PUSH_LO n.val)
    let len := bits w 15 12
    let sat (x : Nat) : Nat := min (x + 1) (2 ^ 32 - 1)
    let lastLo := BitVec.ofNat 32 c.last
    let quiet : Prop := ∀ x ∈ s.cyc.refused, x.ch ≠ n.val
    (∀ be : BitVec 4, gated s (Reg.CH_RD_LO n.val) = true → exec (.chutePop n be) s = .next { s with hostData := 0 }) ∧
    (gated s (Reg.CH_RD_LO n.val) = false →
      (∀ be : BitVec 4, quiet → be ≠ 15 → exec (.chutePop n be) s = .next { s with hostData := lastLo }) ∧
      (quiet → bit s (Reg.CH_CFG n.val) 0 = true ∨ (c.reading = [] ∧ c.items = []) → Completes (.chutePop n 15) s [.hostData, .regs] [Reg.CH_STATUS n.val] (fun t =>
        t.hostData = lastLo ∧ bit t (Reg.CH_STATUS n.val) 31 = true)) ∧
      (quiet → bit s (Reg.CH_CFG n.val) 0 = false → ∀ x rest others,
        (c.reading = x :: rest ∧ others = c.items ∨ c.reading = [] ∧ ∃ p, offered c.items = some (⟨p, x :: rest⟩, others)) →
        Completes (.chutePop n 15) s [.hostData, .regs, .chutes, .dma] [Reg.CH_RD_HI n.val, Reg.CH_RD_LO n.val, Reg.CH_ITEMS n.val] (fun t =>
          t.hostData = BitVec.ofNat 32 x ∧ t.chutes = s.chutes.set n.val { c with items := others, reading := rest, last := x } ∧
          rd t (Reg.CH_RD_HI n.val) = x / 2 ^ 32 % 2 ^ 32 ∧ rd t (Reg.CH_RD_LO n.val) = x % 2 ^ 32 ∧ (ChutesFit s → bits (chuteStatus t n.val) 13 8 = min 32 others.length) ∧
          rd t (Reg.CH_ITEMS n.val) = (rd s (Reg.CH_ITEMS n.val) + if rest = [] then 1 else 0) % 2 ^ 32))) ∧
    (gated s (Reg.CH_CFG n.val) = true → exec (.chuteFlush n v) s = .next s) ∧
    (gated s (Reg.CH_CFG n.val) = false → let cut := c.coming.filter (fun e => decide (e.start ≤ s.cycle))
      Completes (.chuteFlush n v) s [.regs, .chutes, .dma, .ssk] [Reg.CH_CFG n.val, Reg.CH_STATUS n.val, Reg.CH_FLUSH_TRUNC n.val] (fun t =>
      (∃ x, t.chutes = s.chutes.set n.val x ∧ x.items = [] ∧ x.reading = [] ∧ x.port = none ∧ x.last = c.last ∧ x.flushed = some s.cycle ∧
        (∀ e ∈ x.coming, s.cycle < e.start) ∧ x.coming.length + x.behind.length + cut.length = c.coming.length + c.behind.length) ∧
      chuteStatus t n.val = fld t (Reg.CH_STATUS n.val) 31 29 * 2 ^ 29 ∧ (cut = [] → t.ssk = s.ssk) ∧ bit t (Reg.CH_CFG n.val) 0 = v.toNat.testBit 0 ∧
      fld t (Reg.CH_CFG n.val) 9 4 = bits v.toNat 9 4 ∧
      bit t (Reg.CH_STATUS n.val) 30 = (bit s (Reg.CH_STATUS n.val) 30 || !c.reading.isEmpty) ∧
      rd t (Reg.CH_FLUSH_TRUNC n.val) = min (rd s (Reg.CH_FLUSH_TRUNC n.val) + cut.length + if c.port.isSome then 1 else 0) (2 ^ 32 - 1))) ∧
    (gated s (Reg.CH_PUSH_SOI n.val) = true → exec (.chPushSoi n v) s = .next s) ∧
    (gated s (Reg.CH_PUSH_SOI n.val) = false →
      let c0 := if c.port.isSome then c.release s.cycle else c
      (9 ≤ len ∨ 32 < c0.taken + len + 3 → Completes (.chPushSoi n v) s [.regs, .chutes, .dma]
          [Reg.CH_PUSH_REFUSED n.val, Reg.CH_STATUS n.val, Reg.CH_FLUSH_TRUNC n.val] (fun t =>
        rd t (Reg.CH_PUSH_REFUSED n.val) = sat (rd s (Reg.CH_PUSH_REFUSED n.val)) ∧ bit t (Reg.CH_STATUS n.val) 29 = true ∧
        t.chutes = s.chutes.set n.val { c0 with portSkip := len })) ∧
      (len ≤ 8 → c0.taken + len + 3 ≤ 32 →
        let h := itemHeader 7 0 0 (fld s Reg.SYS_STATUS 31 16) (bits w 31 16 % 2 ^ 15 + 2 ^ 15) len (bits w 11 10)
        let i : Item := ⟨bits w 11 10, [h, s.rseq, nowNs s]⟩
        ∃ t, exec (.chPushSoi n v) s = .next (fireTaps t h (nowNs s) none) ∧ ChangesOnly [.regs, .rseq, .chutes, .dma] s t ∧
          RegsBut [Reg.CH_STATUS n.val, Reg.CH_FLUSH_TRUNC n.val] s t ∧ t.rseq = (s.rseq + 1) % 2 ^ 64 ∧
          (len ≠ 0 → t.chutes = s.chutes.set n.val { c0 with port := some (i, len), portSkip := 0, portAt := c0.freeAt s.cycle }) ∧
          (len = 0 → ∃ x, t.chutes = s.chutes.set n.val x ∧ x.port = none ∧ x.items = c.items ∧ x.taken = c0.taken + 3 ∧ ∃ e ∈ x.coming, e.item = i))) ∧
    (gated s (Reg.CH_PUSH_HI n.val) = true → exec (.chPushHi n v) s = .next s) ∧
    (gated s (Reg.CH_PUSH_HI n.val) = false →
      (∀ i k, c.port = some (i, k + 1) → Completes (.chPushHi n v) s [.chutes, .dma] [] (fun t =>
        let i' : Item := { i with words := i.words ++ [w] }
        (k ≠ 0 → t.chutes = s.chutes.set n.val { c with port := some (i', k) }) ∧
        (k = 0 → ∃ x, t.chutes = s.chutes.set n.val x ∧ x.port = none ∧ x.items = c.items ∧ x.taken = c.taken ∧ ∃ e ∈ x.coming, e.item = i'))) ∧
      ((∀ i k, c.port ≠ some (i, k + 1)) → 0 < c.portSkip →
        exec (.chPushHi n v) s = .next { s with chutes := s.chutes.set n.val { c with portSkip := c.portSkip - 1 } }) ∧
      ((∀ i k, c.port ≠ some (i, k + 1)) → c.portSkip = 0 →
        Completes (.chPushHi n v) s [.regs] [Reg.CH_PUSH_REFUSED n.val, Reg.CH_STATUS n.val] (fun t =>
          rd t (Reg.CH_PUSH_REFUSED n.val) = sat (rd s (Reg.CH_PUSH_REFUSED n.val)) ∧ bit t (Reg.CH_STATUS n.val) 29 = true))) ∧
    (ChutesFit s → ∀ x ∈ [Instr.chutePop n 15, .chuteFlush n v, .chPushSoi n v, .chPushHi n v], ∀ t, exec x s = .next t → ChutesFit t)

/-- The tokens of an input expand to that input, whatever matches the engine finds; a block that is written has a payload smaller than its input, and with its 32-byte header fits the destination. For every state with two engines and three queues: CMP_JOB_START with an engine that runs, is not enabled or has no clock changes nothing; else the engine takes the oldest capture job, else the oldest firmware job, else the job of ring 15's next descriptor, and its BUSY bit is set; the host queue gives none while it is held, its ring off or empty, the bus not to be mastered or the completion queue without room, and a bad descriptor halts its ring with code 4. CMP_JOB_COMPLETE with an idle engine, or of a job for host memory without the bus, changes nothing; else the engine is free, CMP_JOBS counts, and the outcome is 5 for a bad parameter, 3 or 4 for a bus error, else 0 done, 1 destination full, 2 no gain, counted in its counter, CMP_IN_KIB counting the whole KiB read for 0 to 2 (floored a job: DESIGN CHOICE, log 15); a firmware job's outcome stands in CMP_STATUS. A firmware block for history memory or NOR is written whole at its address (how a NOR address names the device: log 15). -/
def Obligations.CompressionJobs : Prop :=
  (∀ input, lzExpand (tokensOf input) = input) ∧
  (∀ input dst, input ≠ [] → (deflate input dst).code = 0 →
    (deflate input dst).payload.length < input.length ∧ 32 + (deflate input dst).payload.length ≤ dst) ∧
  (∀ input dst, (deflate input dst).read ≤ input.length ∧ ((deflate input dst).code = 0 → (deflate input dst).read = input.length)) ∧
  (∀ (s : State) (e : Fin 2), s.cmp.run.length = 2 → s.cmp.queues.length = 3 →
    let off : Prop := s.cmp.run.getD e.val none ≠ none ∨ bit s Reg.CMP_CTRL e.val = false ∨ domOn s (25 + e.val) = false
    let took (q : Nat) (j : CmpJob) (js : List CmpJob) : Prop := Completes (.cmpJobStart e) s [.regs, .cmp] [Reg.CMP_STATUS] (fun t =>
      t.cmp = { s.cmp with queues := s.cmp.queues.set q js, run := s.cmp.run.set e.val (some j) } ∧ bit t Reg.CMP_STATUS e.val = true)
    (off → exec (.cmpJobStart e) s = .next s) ∧
    (¬off → ∀ j js, s.cmp.queues.getD 0 [] = j :: js → took 0 j js) ∧
    (¬off → s.cmp.queues.getD 0 [] = [] → ∀ j js, s.cmp.queues.getD 1 [] = j :: js → took 1 j js) ∧
    (¬off → s.cmp.queues.getD 0 [] = [] → s.cmp.queues.getD 1 [] = [] →
      let h := fld s (Reg.RING_DESC_HEAD 15) 15 0
      let d := Tab.get noDesc (ringOf s 15).q h
      let none_ : Prop := bit s Reg.CMP_CTRL 2 = true ∨ ringRuns s 15 = false ∨ busOk s = false ∨ posted s 15 = 0 ∨ cplRoom s 15 ≤ s.cmp.order.length
      let bad : Prop := d.addr % 8 ≠ 0 ∨ d.len ≠ 64
      let w (a n : Nat) := ofLe ((d.data.drop a).take n)
      (none_ → exec (.cmpJobStart e) s = .next s) ∧
      (¬none_ → bad → Completes (.cmpJobStart e) s [.regs, .dma] [Reg.RING_DESC_HEAD 15, Reg.RING_STATUS 15] (fun t =>
        bit t (Reg.RING_STATUS 15) 30 = true ∧ fld t (Reg.RING_STATUS 15) 23 16 = 4)) ∧
      (¬none_ → ¬bad → Completes (.cmpJobStart e) s [.freeCtr, .regs, .cmp] [Reg.CMP_STATUS, Reg.RING_DESC_HEAD 15, Reg.RING_STATUS 15] (fun t =>
        bit t Reg.CMP_STATUS e.val = true ∧ bit t (Reg.RING_STATUS 15) 31 = false ∧ fld t (Reg.RING_DESC_HEAD 15) 15 0 = (h + 1) % ringSize s 15 ∧
        t.cmp.queues = s.cmp.queues ∧ t.cmp.order = s.cmp.order ++ [⟨(h, d.tag), d.irq, none⟩] ∧
        ∃ j, t.cmp.run = s.cmp.run.set e.val (some j) ∧ j.queue = 2 ∧ j.dst = 2 ∧ j.desc = (h, d.tag) ∧ j.dstLen = w 12 4 ∧ j.addr = w 16 8 ∧
          j.last = (w 24 4).testBit 0 ∧ j.tag = w 28 4 ∧
          (j.paramOk = true ↔ 1 ≤ w 8 4 ∧ w 8 4 ≤ 16777216 ∧ 64 ≤ w 12 4 ∧ w 16 8 % 8 = 0) ∧
          (j.paramOk = true → j.input.length = w 8 4 ∧ ∀ i, i < w 8 4 → i < d.src.length → j.input.getD i 0 = d.src.getD i 0)))) ∧
    (∀ b : Fin 3, s.cmp.run.getD e.val none = none → exec (.cmpJobComplete e b) s = .next s) ∧
    (∀ (b : Fin 3) j, s.cmp.run.getD e.val none = some j → j.dst = 2 → busOk s = false → exec (.cmpJobComplete e b) s = .next s) ∧
    (∀ (b : Fin 3) j, s.cmp.run.getD e.val none = some j → (j.dst = 2 → busOk s = true) →
      let d := deflate j.input j.dstLen
      let code := if j.paramOk = false then 5 else if b.val = 1 then 3 else if b.val = 2 then 4 else d.code
      let sat (x : Nat) (c : Prop) [Decidable c] : Nat := min (x + if c then 1 else 0) (2 ^ 32 - 1)
      ∃ t, exec (.cmpJobComplete e b) s = .next t ∧ ChangesOnly [.freeCtr, .regs, .rseq, .hist, .dma, .cmp, .nvs, .cap] s t ∧
        RegsBut [Reg.CMP_JOBS, Reg.CMP_DSTFULL_CNT, Reg.CMP_NOGAIN_CNT, Reg.CMP_ERR_CNT, Reg.CMP_IN_KIB, Reg.CMP_STATUS, Reg.RING_CPL_TAIL 15,
          Reg.RING_STATUS 15, Reg.RING_RECORDS 15] s t ∧
        t.cmp.run = s.cmp.run.set e.val none ∧ t.cmp.queues = s.cmp.queues ∧ bit t Reg.CMP_STATUS e.val = false ∧
        rd t Reg.CMP_JOBS = sat (rd s Reg.CMP_JOBS) True ∧ rd t Reg.CMP_DSTFULL_CNT = sat (rd s Reg.CMP_DSTFULL_CNT) (code = 1) ∧
        rd t Reg.CMP_NOGAIN_CNT = sat (rd s Reg.CMP_NOGAIN_CNT) (code = 2) ∧ rd t Reg.CMP_ERR_CNT = sat (rd s Reg.CMP_ERR_CNT) (3 ≤ code) ∧
        rd t Reg.CMP_IN_KIB = (rd s Reg.CMP_IN_KIB + if code ≤ 2 then d.read / 1024 else 0) % 2 ^ 32 ∧
        (j.queue = 1 → fld t Reg.CMP_STATUS 27 24 = code) ∧
        (j.queue = 1 → j.dst = 0 → code = 0 →
          HoldsBytes Memory.zero s.hist t.hist j.addr (blockHeader 1 (b2n j.last) j.input.length d.payload.length d.crc j.tag ++ d.payload)) ∧
        (j.queue = 1 → j.dst = 1 → code = 0 → j.addr / 2 ^ 32 < s.nvs.nor.length → HoldsBytes norDef (norOf s (j.addr / 2 ^ 32)).mem (norOf t (j.addr / 2 ^ 32)).mem (j.addr % 2 ^ 32)
          (blockHeader 1 (b2n j.last) j.input.length d.payload.length d.crc j.tag ++ d.payload)) ∧
        (3 ≤ code → t.hist = s.hist ∧ t.nvs = s.nvs)))

/-- For every state with 8 groups. MCLK_CONFIG_WRITE, not gated, changes AFE_CTRL and the clock pin where no group runs or is armed; else it leaves them and sets LOAD_REFUSED. GROUP_RUN_WRITE and GROUP_IMM_START, not gated, give every group its RUN bit, 0 in a mode where every group is stopped: clearing RUN of a running group notes the stop, of an armed one disarms it; setting RUN of a group that does not run arms it; an IMM bit notes a start event for a group with RUN that does not run and has none, and is counted in AFE_GRP_REFIRE for a group that runs or has no RUN. GROUP_START with no event, with the clock off or of a running group changes nothing; else it is at the first MODCLK edge at least 20 ns after the event, and the group runs where every enabled channel of it keeps the limits, and else has START_ERR set and RUN cleared. GROUP_STOP with no stop noted changes nothing; else it is at the first edge after the write and the group no longer runs. CONTROL_CYCLE_APPLY, not gated, brings the GAIN, OFFSET and matrix values of the named cycle into use as they were staged when the front-end cycle began, changes no other table word, and records the cycle, of two in one front-end cycle the higher (DESIGN CHOICE, log 157). Where edges fall is the model's choice (log 26). -/
def Obligations.FrontEndGroups : Prop :=
  ∀ (s : State), s.afe.startAt.length = 8 → s.afe.stopAt.length = 8 → s.afe.runFrom.length = 8 → s.afe.lastStop.length = 8 →
    (∀ v : Word,
      let w := bits v.toNat 31 31 * 2 ^ 31 + bits v.toNat 5 0
      let held : Prop := rd s Reg.AFE_GRP_CTRL % 256 ≠ 0 ∨ fld s Reg.AFE_GRP_STATUS 7 0 ≠ 0
      (gated s Reg.AFE_CTRL = true ∨ w = rd s Reg.AFE_CTRL → exec (.mclkConfigWrite v) s = .next s) ∧
      (gated s Reg.AFE_CTRL = false → w ≠ rd s Reg.AFE_CTRL → held → Completes (.mclkConfigWrite v) s [.regs] [Reg.AFE_STATUS] (fun t => bit t Reg.AFE_STATUS 0 = true)) ∧
      (gated s Reg.AFE_CTRL = false → w ≠ rd s Reg.AFE_CTRL → ¬held → Completes (.mclkConfigWrite v) s [.regs, .pins] [Reg.AFE_CTRL] (fun t =>
        rd t Reg.AFE_CTRL = w ∧ t.pins = { s.pins with modclk := v.toNat.testBit 31 }))) ∧
    (∀ (v : Word) (c : Instr), c = .groupRunWrite v ∨ c = .groupImmStart v →
      (gated s Reg.AFE_GRP_CTRL = true → exec c s = .next s) ∧
      (gated s Reg.AFE_GRP_CTRL = false → Completes c s [.regs, .afe] [Reg.AFE_GRP_CTRL, Reg.AFE_GRP_STATUS, Reg.AFE_GRP_REFIRE] (fun t =>
        let run (g : Nat) : Bool := v.toNat.testBit g && !afeOff (mode s)
        let imm (g : Nat) : Bool := v.toNat.testBit (8 + g)
        (∀ g, g < 8 →
          let was := grpRun s g
          let on := grpRunning s g
          grpRun t g = run g ∧ grpRunning t g = on ∧
          grpArmed t g = (if was && !run g && !on then false else if run g && !was && !on then true else grpArmed s g) ∧
          t.afe.stopAt.getD g none = (if was && !run g && on then some s.cycle else s.afe.stopAt.getD g none) ∧
          t.afe.startAt.getD g none = (if was && !run g && !on then none
            else if imm g && run g && !on && (s.afe.startAt.getD g none).isNone then some s.cycle else s.afe.startAt.getD g none)) ∧
        t.afe = { s.afe with startAt := t.afe.startAt, stopAt := t.afe.stopAt } ∧
        rd t Reg.AFE_GRP_REFIRE = min (rd s Reg.AFE_GRP_REFIRE +
          ((List.range 8).filter (fun g => imm g && (!run g || grpRunning s g))).length) (2 ^ 32 - 1)))) ∧
    (∀ g : Fin 8,
      let idle : Prop := s.afe.startAt.getD g.val none = none ∨ bit s Reg.AFE_CTRL 31 = false ∨ grpRunning s g.val = true
      (idle → exec (.groupStart g) s = .next s) ∧
      (∀ c, ¬idle → s.afe.startAt.getD g.val none = some c → Completes (.groupStart g) s [.cycle, .now, .regs, .afe, .nrg]
          [Reg.AFE_GRP_CTRL, Reg.AFE_GRP_STATUS] (fun t =>
        t.cycle = max s.cycle (modEdge s (c + 10)) ∧ grpArmed t g.val = false ∧ t.afe.startAt = s.afe.startAt.set g.val none ∧
        ((∀ ch ∈ grpChans s g.val, startOk s ch = true) → grpRunning t g.val = true ∧ t.afe.runFrom = s.afe.runFrom.set g.val (some (t.now, t.cycle)) ∧
          rd t Reg.AFE_GRP_CTRL = rd s Reg.AFE_GRP_CTRL) ∧
        ((∃ ch ∈ grpChans s g.val, startOk s ch = false) → grpRunning t g.val = false ∧ grpRun t g.val = false ∧ bit t Reg.AFE_GRP_STATUS (16 + g.val) = true))) ∧
      (s.afe.stopAt.getD g.val none = none → exec (.groupStop g) s = .next s) ∧
      (∀ c, s.afe.stopAt.getD g.val none = some c → Completes (.groupStop g) s [.cycle, .now, .regs, .afe] [Reg.AFE_GRP_STATUS] (fun t =>
        t.cycle = max s.cycle (modEdge s (c + 1)) ∧ grpRunning t g.val = false ∧ grpArmed t g.val = grpRun s g.val ∧
        t.afe = { s.afe with stopAt := s.afe.stopAt.set g.val none, lastStop := s.afe.lastStop.set g.val (some t.now) }))) ∧
    (∀ v : Word,
      let n := v.toNat % 16
      let use (w i j : Nat) : Nat := stagedThen s (cfgKey w i j) % 2 ^ 32
      (gated s Reg.AFE_CC_CMD = true → exec (.controlCycleApply v) s = .next s) ∧
      (gated s Reg.AFE_CC_CMD = false → Completes (.controlCycleApply v) s [.regs, .ntab, .afe] [Reg.AFE_CC_LAST] (fun t =>
        (∀ ch, ch < 24 → afF s ch 0 11 8 = n → getN t Win.AFE_CH ch 2 = use Win.AFE_CH ch 2 ∧ getN t Win.AFE_CH ch 3 = use Win.AFE_CH ch 3) ∧
        (∀ st r j, st < 8 → r < 3 → j < 8 → bits (getN s Win.AFE_MX (4 * st + 3) 0) 27 24 = n →
          getN t Win.AFE_MX (4 * st + r) j = use Win.AFE_MX (4 * st + r) j) ∧
        (∀ x, Tab.get ntabDef t.ntab x ≠ Tab.get ntabDef s.ntab x →
          (∃ ch j, ch < 24 ∧ (j = 2 ∨ j = 3) ∧ x = cfgKey Win.AFE_CH ch j ∧ afF s ch 0 11 8 = n) ∨
          ∃ st r j, st < 8 ∧ r < 3 ∧ j < 8 ∧ x = cfgKey Win.AFE_MX (4 * st + r) j ∧ bits (getN s Win.AFE_MX (4 * st + 3) 0) 27 24 = n) ∧
        t.afe.staged = s.afe.staged ∧ t.afe.ccAt = some (feCycle s) ∧
        fld t Reg.AFE_CC_LAST 3 0 = (if s.afe.ccAt = some (feCycle s) then max n (fld s Reg.AFE_CC_LAST 3 0) else n) ∧ fld t Reg.AFE_CC_LAST 31 16 = (fld s Reg.AFE_CC_LAST 31 16 + 1) % 2 ^ 16)))

/-- For every state with 24 trackers. CHANNEL_STUCK and FILTER_STAGE_CLIP concern an enabled channel of a running group alone: a stuck channel has its bit set, with an item, until CHANNEL_UNSTUCK clears it, with an item; a stage whose rounded sum of its newest inputs, weighted by the sinc³ weights, R372's coefficients or its FIR set, leaves 24 bits sets the channel's clip bit and counts. TRACKER_CROSSING of such a channel, whose newest two samples, each less the mean of the 480 before it, rise through 0, notes the instant between them at which their line does; after a former one, the cycle's frequency is the reciprocal of the time between them, a good cycle counts on, a bad one restarts the count, and the lock follows: kept by a good cycle, gained with the fourth. TRACKER_TIMEOUT unlocks a locked tracker 25 ms after its last crossing. STREAM0_RECORD_WRITE writes nothing for a disabled stream, a blank already written or a mode without the Lathe; where a channel it rests on did not run over the window, or AFE_TRK.REF changed in it, it counts in AFE_S0_SKIPPED; else one block of stream 0 reaches the Lathe with the mean frequency, the levels at the epoch instant and a value for every source in use. DIN_CHANGE_ACCEPT of an enabled input, not gated, inverts its level and, for an edge that is selected, queues the event by input number among those of its front-end cycle, and counts one that then stands past 256. DIN_EVENT_POP returns and takes the oldest event, latching its time, or returns no VALID bit. -/
def Obligations.FrontEndChannels : Prop :=
  ∀ (s : State), s.afe.trk.length = 24 →
    (∀ ch : Fin 24,
      let live : Prop := afEn s ch.val = true ∧ grpRunning s (afGroup s ch.val) = true
      let stuck := bit s Reg.AFE_STUCK ch.val
      (stuck = true ∨ ¬live → exec (.channelStuck ch) s = .next s) ∧
      (stuck = false → live → Completes (.channelStuck ch) s (itemParts ++ [.afe]) (itemRegs ++ [Reg.AFE_STUCK]) (fun t =>
        ∀ b, b < 32 → bit t Reg.AFE_STUCK b = (decide (b = ch.val) || bit s Reg.AFE_STUCK b))) ∧
      (stuck = false → exec (.channelUnstuck ch) s = .next s) ∧
      (stuck = true → Completes (.channelUnstuck ch) s (itemParts ++ [.afe]) (itemRegs ++ [Reg.AFE_STUCK]) (fun t =>
        ∀ b, b < 32 → bit t Reg.AFE_STUCK b = (!decide (b = ch.val) && bit s Reg.AFE_STUCK b))) ∧
      (∀ (g : Fin 4) (xs : List Int),
        let sh := stageSh s ch.val g.val
        let dot (h x : List Int) : Int := ((h.zip x).map (fun p => p.1 * p.2)).sum
        let acc := match g.val with
          | 0 => dot (sincTaps (afSinc s ch.val)) (xs.map (fun b => if 0 < b then 1 else -1))
          | 1 => dot [-5, 0, 49, 0, -245, 0, 1225, 2048, 1225, 0, -245, 0, 49, 0, -5] xs
          | 2 => dot [-5, 0, 49, 0, -245, 0, 1225, 2048, 1225, 0, -245, 0, 49, 0, -5] xs
          | _ => dot ((List.range 128).map (fun j => sext 20 (getN s Win.AFE_FIR (afFir s ch.val * 16 + j / 8) (j % 8)))) xs
        let y := if sh = 0 then acc else (acc + 2 ^ (sh - 1)) / 2 ^ sh
        let clips : Prop := y < -8388608 ∨ 8388607 < y
        (¬(live ∧ clips) → exec (.filterStageClip ch g xs) s = .next s) ∧
        (live → clips → Completes (.filterStageClip ch g xs) s (itemParts ++ [.afe]) (itemRegs ++ [Reg.AFE_CLIP, Reg.AFE_CLIP_CNT]) (fun t =>
          rd t Reg.AFE_CLIP_CNT = min (rd s Reg.AFE_CLIP_CNT + 1) (2 ^ 32 - 1) ∧
          ∀ b, b < 32 → bit t Reg.AFE_CLIP b = (decide (b = ch.val) || bit s Reg.AFE_CLIP b)))) ∧
      (∀ (k : Nat) (gs : List GridTaps),
        let xs := lockedSamples s ch.val k gs
        let y := lastTwo xs
        let t0 := crossAt 24000 (k - 1) k (Dy.ofInt 0) y.1 y.2
        let u := passTo s (ceilDiv (k * secU) 24000)
        let crosses : Prop := live ∧ 2 ≤ xs.length ∧ (∀ x ∈ xs, isFin f32 x = true) ∧ y.1.m < 0 ∧ 0 ≤ y.2.m
        let q := trkOf s ch.val
        (¬crosses → exec (.trackerCrossing ch k gs) s = .next s) ∧
        (crosses → q.last = none → exec (.trackerCrossing ch k gs) s = .next (setTrk u ch.val { q with last := some t0 })) ∧
        (crosses → ∀ p, q.last = some p → t0 ≤ p → exec (.trackerCrossing ch k gs) s = .next u) ∧
        (crosses → ∀ p, q.last = some p → p < t0 →
          let rms := rmsAll (xs.drop (xs.length - min xs.length (k - p * 24000 / secU)))
          let d := (t0 - p) / 2 ^ 32
          let d0 := match q.cycs with | (a, b, _) :: _ => if b = p then some ((b - a) / 2 ^ 32) else none | [] => none
          let good := cycleGood d d0 && flt f32 (rd s Reg.AFE_TRK_MIN) rms
          let n := if good then q.good + 1 else 0
          Completes (.trackerCrossing ch k gs) s (itemParts ++ [.cycle, .now, .afe])
              (itemRegs ++ [Reg.AFE_TRK_LOCK, Reg.AFE_TRK_UNLOCKS, Reg.AFE_TRK_FREQ]) (fun t =>
            t.cycle = u.cycle ∧ (trkOf t ch.val).last = some t0 ∧ (trkOf t ch.val).good = n ∧
            (trkOf t ch.val).freq = divRnd f32 .near (Dy.ofInt 65536000000000) (Dy.ofInt d) ∧
            (∀ x, x ≠ ch.val → trkOf t x = trkOf s x) ∧
            (∀ b, b < 32 → bit t Reg.AFE_TRK_LOCK b = if b = ch.val then (if trkLocked s b then good else decide (4 ≤ n)) else bit s Reg.AFE_TRK_LOCK b) ∧
            rd t Reg.AFE_TRK_FREQ = if trkLocked t (trkRef s) then (trkOf t (trkRef s)).freq % 2 ^ 32 else 0))) ∧
      (trkLocked s ch.val = false ∨ (trkOf s ch.val).last = none → exec (.trackerTimeout ch) s = .next s) ∧
      (∀ p, trkLocked s ch.val = true → (trkOf s ch.val).last = some p → Completes (.trackerTimeout ch) s (itemParts ++ [.cycle, .now, .afe])
          (itemRegs ++ [Reg.AFE_TRK_LOCK, Reg.AFE_TRK_UNLOCKS, Reg.AFE_TRK_FREQ]) (fun t =>
        t.cycle = (passTo s (p + 25 * msU)).cycle ∧ trkLocked t ch.val = false ∧ (trkOf t ch.val).good = 0))) ∧
    (∀ (k : Nat) (xs : List (List GridTaps)),
      let c := confOf s k
      let r := blankRate s
      let big := 24000 / fnom s
      let t0 := k * secU / r
      let a := t0 - secU / fnom s
      let b := t0 + secU / fnom s
      let u := passTo s (ceilDiv (secU * (k * fnom s + r) + 50000 * nsU * r * fnom s) (r * fnom s))
      let ref := trkRefAt u b
      let v := { u with afe := { u.afe with s0 := some (k, meanFreq u ref a b) } }
      let srcs := (s0Sources u c b).1 ++ (s0Sources u c b).2
      let tap (i n : Nat) : GridTaps := (xs.getD i []).getD n ⟨0, []⟩
      let off : Prop := stEn c 0 = false ∨ (∃ e f, s.afe.s0 = some (e, f) ∧ k ≤ e) ∨ runsLathe (mode s) = false
      let ran : Prop := (∀ ch i, srcs[i]? = some ch → s0Ran u ch a b (tap i 0) (tap i (2 * big)) = true) ∧ ∀ p ∈ u.afe.refAt, ¬(a ≤ p.1 ∧ p.1 ≤ b)
      (off → exec (.stream0RecordWrite k xs) s = .next s) ∧
      (¬off → ¬ran → exec (.stream0RecordWrite k xs) s = .next (inc v Reg.AFE_S0_SKIPPED)) ∧
      (¬off → ran → ∃ blk : Block, exec (.stream0RecordWrite k xs) s = .next (latheArrive v blk) ∧ blk.stream = 0 ∧ blk.epoch = k ∧
        blk.freq = meanFreq u ref a b ∧ blk.stat = s0Stat u srcs a b ∧ blk.ph.length = min 32 (phCnt c 0) ∧ blk.an.length = min 24 (anCnt c 0) ∧
        blk.dg = [dinAt u t0 % 65536, dinAt u t0 / 65536] ∧
        (let ys (i ch : Nat) : List Nat := chSamples v true ch ((List.range (2 * big + 1)).map (fun i => a + i * secU / 24000)) (xs.getD i [])
         let fe := if trkLocked u ref then (trkOf u ref).freq else fofInt f32 (fnom s)
         blk.ph = ((s0Sources u c b).1.zipIdx.map (fun x => ((phasorOf fe big (ys x.2 x.1)).1, (phasorOf fe big (ys x.2 x.1)).2, qualOf blk.stat))) ∧
         blk.an = ((s0Sources u c b).2.zipIdx.map (fun x => rmsOf big (ys ((s0Sources u c b).1.length + x.2) x.1))) ∧
         ∀ f, (∃ e, s.afe.s0 = some (e, f) ∧ e + 1 = k) → blk.rocof = Machine.fmul f32 .near (Machine.fsub f32 .near blk.freq f) (fofInt f32 r)))) ∧
    (∀ i : Fin 32,
      let e := getN s Win.AFE_DIN i.val 0
      let up := !bit s Reg.AFE_DIN_LEVEL i.val
      let off : Prop := e.testBit 31 = false ∨ gated s Reg.AFE_DIN_LEVEL = true
      let tag := feNow s - (if e % 2 ^ 16 = 0 then 10 else e % 2 ^ 16 * 1000) * nsU
      let sel : Prop := (if up then e.testBit 28 else e.testBit 29) = true
      (off → exec (.dinChangeAccept i) s = .next s) ∧
      (¬off → Completes (.dinChangeAccept i) s (itemParts ++ [.afe]) (itemRegs ++ [Reg.AFE_DIN_LEVEL, Reg.AFE_DINEV_TAG, Reg.AFE_DIN_OVF]) (fun t =>
        (∀ b, b < 32 → bit t Reg.AFE_DIN_LEVEL b = if b = i.val then up else bit s Reg.AFE_DIN_LEVEL b) ∧
        (¬sel → t.afe.dinFifo = s.afe.dinFifo ∧ rd t Reg.AFE_DIN_OVF = rd s Reg.AFE_DIN_OVF) ∧
        (let n := if s.afe.dinNow.1 = feCycle s then s.afe.dinNow.2 else 0
         let was := s.afe.dinFifo.take (s.afe.dinFifo.length - n)
         let own := s.afe.dinFifo.drop (s.afe.dinFifo.length - n)
         let q := was ++ own.filter (fun x => decide (x.2.1 ≤ i.val)) ++ (tag / nsU, i.val, b2n up) :: own.filter (fun x => decide (i.val < x.2.1))
         sel → t.afe.dinFifo = q.take 256 ∧ (q.length ≤ 256 → rd t Reg.AFE_DIN_OVF = rd s Reg.AFE_DIN_OVF) ∧
           (256 < q.length → bit t Reg.AFE_DINEV_TAG 30 = true ∧ rd t Reg.AFE_DIN_OVF = min (rd s Reg.AFE_DIN_OVF + 1) (2 ^ 32 - 1))))) ) ∧
    (gated s Reg.AFE_DINEV_TAG = true → exec .dinEventPop s = .next { s with hostData := 0 }) ∧
    (gated s Reg.AFE_DINEV_TAG = false →
      (s.afe.dinFifo = [] → Completes .dinEventPop s [.hostData, .regs, .shadow] [Reg.AFE_DINEV_TAG] (fun t => t.hostData.toNat < 2 ^ 31)) ∧
      (∀ x i l q, s.afe.dinFifo = (x, i, l) :: q → i < 32 → l < 2 → q.length < 256 →
        Completes .dinEventPop s [.hostData, .regs, .shadow, .afe] [Reg.AFE_DINEV_TAG, Reg.AFE_DINEV_SEC_LO, Reg.AFE_DINEV_SEC_HI, Reg.AFE_DINEV_NS] (fun t =>
          t.afe = { s.afe with dinFifo := q } ∧
          t.hostData.toNat = 2 ^ 31 + b2n (bit s Reg.AFE_DINEV_TAG 30) * 2 ^ 30 + q.length * 512 + l * 256 + i ∧
          rd t Reg.AFE_DINEV_NS = x % 1000000000 ∧ rd t Reg.AFE_DINEV_SEC_LO = x / 1000000000 % 2 ^ 32)))

/-- Of a cycle whose powers are finite: active energy of a kind is added at or above creep, to import for P above 0 and export for P below 0; the held direction follows it and else stays; reactive energy at or above creep goes to the quadrant of the direction after the cycle and the sign of Q; apparent energy is added where P or Q of the total reaches creep; each increment is power times T / 3,600 rounded to the nearest 2^-32 of a milli-unit. A cycle that starts within the interval in progress adds its length and its counts to it and records the first reversal; one that starts after it closes it first: its record is written at NRG_IR_HEAD, which moves on, and a new interval starts at the whole multiple of INT_S at or before the cycle. A reference cycle no crossing follows ends 1 / FNOM after its start. METER_CYCLE_COMPLETE takes the cycle after the circuit's last, or the named one (DESIGN CHOICE, log 157); of a circuit that is not metered, gated, not advancing or in a mode without metering changes nothing; else it is at the cycle's end, NRG_CYCLES counts, no other circuit changes; a cycle with a NaN sample, or a short one with no full cycle before it, counts in NRG_NAN and leaves accumulators and directions; a short one counts in NRG_SHORT; a full one adds the increments of the signed sums over its elements in a mode that accumulates. -/
def Obligations.EnergyCycle : Prop :=
  (∀ (s : State) (creep dirs t : Nat) (p : CircP), (∀ x ∈ [p.pt, p.qt, p.pf, p.qf, p.ap], x < 2 ^ 64 ∧ isFin f64 x = true) →
    let big (x : Nat) : Bool := fle f64 creep (fabs f64 x)
    let dir (x : Nat) (was : Bool) : Bool := if big x && posF x then false else if big x && negF x then true else was
    let et := dir p.pt (dirs.testBit 0)
    let ef := dir p.pf (dirs.testBit 1)
    let mwh (x : Nat) (c : Bool) : Nat := if c then (increment s (fabs f64 x) t).2 else 0
    let quad (e : Bool) (q : Nat) (j : Nat) : Bool := big q && decide (j = if e then (if negF q then 2 else 1) else (if negF q then 3 else 0))
    (cycleIncs s creep dirs p t).1 = s ∧
    (cycleIncs s creep dirs p t).2 =
      ([mwh p.pt (big p.pt && posF p.pt), mwh p.pt (big p.pt && negF p.pt), mwh p.pf (big p.pf && posF p.pf), mwh p.pf (big p.pf && negF p.pf),
        mwh p.qt (quad et p.qt 0), mwh p.qt (quad et p.qt 1), mwh p.qt (quad et p.qt 2), mwh p.qt (quad et p.qt 3),
        mwh p.qf (quad ef p.qf 0), mwh p.qf (quad ef p.qf 1), mwh p.qf (quad ef p.qf 2), mwh p.qf (quad ef p.qf 3),
        mwh p.ap ((big p.pt || big p.qt) && !et), mwh p.ap ((big p.pt || big p.qt) && et)],
        b2n et + 2 * b2n ef)) ∧
  (∀ (s : State) (c : Nat) (e : CycLog) (unl rec : Bool) (v : Ival), c < s.nrg.circ.length → (circOf s c).ival = some v → e.t0 ≤ e.t1 →
    (v.start * secU ≤ e.t0 → e.t0 < (v.start + v.len) * secU →
      applyCycle s c e unl rec = setCirc (noteAccs s) c { circOf s c with acc := accAdd (circOf s c).acc e.incs, dirs := e.dirs, ival := some { v with
        dur := v.dur + (e.t1 - e.t0), flags := if unl then v.flags ||| 16 else v.flags, cycles := v.cycles + 1, short := v.short + b2n (e.kind == 1),
        nan := v.nan + b2n (e.kind == 2), unmeas := v.unmeas + (if e.kind = 2 then e.t1 - e.t0 else 0), revs := v.revs + b2n e.rev,
        firstRev := if e.rev && v.firstRev.isNone then some ((e.t0 - v.start * secU) / msU) else v.firstRev } }) ∧
    ((v.start + v.len) * secU ≤ e.t0 →
      let t := applyCycle s c e unl true
      Tab.get (fun _ => []) t.nrg.irs (fld s Reg.NRG_IR_HEAD 11 0) = ivalBytes s s.rseq c v.flags v (circOf s c).acc ∧
      fld t Reg.NRG_IR_HEAD 11 0 = (fld s Reg.NRG_IR_HEAD 11 0 + 1) % 4096 ∧ (circOf t c).acc = accAdd (circOf s c).acc e.incs ∧
      ∃ w, (circOf t c).ival = some w ∧ w.start = e.t0 / secU / intS s * intS s ∧ w.len = intS s ∧ w.cycles = 1 ∧ w.base = (circOf s c).acc)) ∧
  (∀ (s : State) (t0 : Nat), (∀ c ∈ (trkOf s (trkRef s)).cycs, c.2.1 ≤ t0) → cycleEnd s t0 = t0 + secU / fnom s) ∧
  (∀ (s : State) (c : Fin 8) (a b : Nat) (vs is : List (List GridTaps)), s.nrg.circ.length = 8 →
    let x := circOf s c.val
    let t0 := match x.next with | some t => if t ≤ s.now then t else a * secU + b * 2 ^ 32 | none => a * secU + b * 2 ^ 32
    let t1 := cycleEnd s t0
    let u := passTo s t1
    let off : Prop := cirEn s c.val = false ∨ gated s Reg.NRG_CTRL = true ∨ t1 ≤ t0 ∨ (accumulates (mode s) = false ∧ mode s ≠ Mode.diagnostic)
    let els := (List.range (cirElems s c.val)).map (fun e =>
      let w := getN s Win.NRG_CIR c.val (1 + e)
      let ts := (cycleInstants u t0 t1).take (min (vs.getD e []).length (is.getD e []).length)
      let n := ts.length
      (n, (if bits w 20 16 < 24 then chSamples u false (bits w 20 16) ts (vs.getD e []) else List.replicate n f32.nan),
        chSamples u false (bits w 5 0) ts (is.getD e []), (List.range 5).map (fun j => wordAt s Win.NRG_CAL (4 * c.val + e) j t0)))
    let bad : Prop := ∃ y ∈ els, ∃ z ∈ y.2.1 ++ y.2.2.1, isNaN f32 z = true
    let full : Prop := ∀ y ∈ els, y.1 = 256
    let rs := els.map (fun y => elCycle y.2.2.2 y.2.1 y.2.2.1)
    let sgn (z : Nat) : Nat := if bitOf (wordAt s Win.NRG_CIR c.val 0 t0) 30 && !isNaN f64 z then fneg f64 z else z
    let p : CircP := ⟨sgn (sumEl rs (·.pt)), sgn (sumEl rs (·.qt)), sgn (sumEl rs (·.pf)), sgn (sumEl rs (·.qf)), sumEl rs (·.ap)⟩
    let one (y : Nat) : Nat := min (y + 1) (2 ^ 32 - 1)
    (off → exec (.meterCycleComplete c a b vs is) s = .next s) ∧
    (¬off → Completes (.meterCycleComplete c a b vs is) s (itemParts ++ [.cycle, .now, .freeCtr, .nrg])
        (itemRegs ++ [Reg.NRG_CYCLES, Reg.NRG_NAN, Reg.NRG_SHORT, Reg.NRG_IR_HEAD, Reg.NRG_GAP_LEN]) (fun t =>
      t.cycle = u.cycle ∧ rd t Reg.NRG_CYCLES = one (rd s Reg.NRG_CYCLES) ∧ (circOf t c.val).lastEnd = t1 ∧ (circOf t c.val).next = some t1 ∧
      (∀ d, d ≠ c.val → circOf t d = circOf s d) ∧
      (bad ∨ (¬full ∧ x.lastFull = none) → rd t Reg.NRG_NAN = one (rd s Reg.NRG_NAN) ∧ rd t Reg.NRG_SHORT = rd s Reg.NRG_SHORT ∧
        (circOf t c.val).dirs = x.dirs ∧ (circOf t c.val).acc = (if accumulates (mode s) then accAdd x.acc (List.replicate 14 0) else x.acc)) ∧
      (¬bad → ¬full → x.lastFull ≠ none → rd t Reg.NRG_SHORT = one (rd s Reg.NRG_SHORT) ∧ rd t Reg.NRG_NAN = rd s Reg.NRG_NAN) ∧
      (¬bad → full → (circOf t c.val).lastFull = some (rs.map (fun r => (r.pf, r.qf, r.qt))) ∧ rd t Reg.NRG_NAN = rd s Reg.NRG_NAN ∧
        (accumulates (mode s) = false → (circOf t c.val).acc = x.acc) ∧
        (accumulates (mode s) = true → ∃ s', (circOf t c.val).acc = accAdd x.acc (cycleIncs s' (fcvt f32 f64 .near (wordAt s Win.NRG_CIR c.val 4 t0)) x.dirs p (t1 - t0)).2.1 ∧
          s'.freeCtr = s.freeCtr)))))

/-- For every state with 14 accumulators in every circuit. ENERGY_SNAPSHOT of the gated register changes nothing; else NRG_CTRL takes its fields and, SNAP being 1, the snapshot reads every accumulator of every circuit as it stood when the cycle began; nothing else of metering changes. ENERGY_PERIODIC_SAVE in a mode without authority changes nothing; else it is at the time that was due, the next one is due SAVE_IVL × 0.25 s later, and where an energy save is still being written the save is skipped and counted, else a bank write of kind 1 is requested and SAVE_BUSY set. PULSE_EDGE_ACCEPT of a disabled input, an edge that is not selected, a gated unit or a mode that does not accumulate changes nothing; else the register gains the weight modulo 2^64, its COUNT one, its last time is the debounced edge's, and no other input's entry changes. -/
def Obligations.EnergyRecords : Prop :=
  ∀ (s : State), (∀ x ∈ s.nrg.circ, x.acc.length = 14) →
    (∀ v : Word,
      (gated s Reg.NRG_CTRL = true → exec (.energySnapshot v) s = .next s) ∧
      (gated s Reg.NRG_CTRL = false → Completes (.energySnapshot v) s [.regs, .nrg] [Reg.NRG_CTRL] (fun t =>
        rd t Reg.NRG_CTRL = bits v.toNat 31 20 * 2 ^ 20 + bits v.toNat 15 8 * 256 ∧ t.nrg = { s.nrg with snap := t.nrg.snap } ∧
        (v.toNat.testBit 0 = false → t.nrg.snap = s.nrg.snap) ∧
        (v.toNat.testBit 0 = true → (∀ x ∈ accsThen s, x.length = 14) → ∀ c q, c < (accsThen s).length → q < 14 →
          Tab.get (fun _ => 0) t.nrg.snap (c * 16 + q) = ((accsThen s).getD c []).getD q 0) ∧
        (v.toNat.testBit 0 = true → s.cyc.accs = none → ∀ c q, c < s.nrg.circ.length → q < 14 →
          Tab.get (fun _ => 0) t.nrg.snap (c * 16 + q) = (circOf s c).acc.getD q 0)))) ∧
    (runsAlarms (mode s) = false → exec .energyPeriodicSave s = .next s) ∧
    (runsAlarms (mode s) = true → Completes .energyPeriodicSave s [.cycle, .now, .regs, .nvs, .nrg] [Reg.NRG_STATUS, Reg.NRG_SAVE_SKIP] (fun t =>
      t.cycle = (passTo s s.nrg.saveDue).cycle ∧ t.nrg = { s.nrg with saveDue := s.nrg.saveDue + saveIvl s } ∧
      (saving s = true → rd t Reg.NRG_SAVE_SKIP = min (rd s Reg.NRG_SAVE_SKIP + 1) (2 ^ 32 - 1) ∧ t.nvs = s.nvs) ∧
      (saving s = false → bit t Reg.NRG_STATUS 3 = true ∧ rd t Reg.NRG_SAVE_SKIP = rd s Reg.NRG_SAVE_SKIP ∧
        ∃ w : BankWr, w.kind = 1 ∧ w.line = 0 ∧ t.nvs = { s.nvs with bw := s.nvs.bw ++ [w] } ∧ (w.payload.drop 12).head? = some 1))) ∧
    (∀ (n : Fin 16) (up : Bool),
      let e := getN s Win.NRG_PLS n.val 0
      let off : Prop := e.testBit 31 = false ∨ gated s Reg.NRG_CTRL = true ∨ accumulates (mode s) = false ∨ (if up then e.testBit 28 else e.testBit 29) = false
      let tag := (feNow s - (if e % 2 ^ 16 = 0 then 10 else e % 2 ^ 16 * 1000) * nsU) / nsU
      (off → exec (.pulseEdgeAccept n up) s = .next s) ∧
      (¬off → Completes (.pulseEdgeAccept n up) s [.ntab, .nrg] [] (fun t =>
        plsReg t n.val = (plsReg s n.val + getN s Win.NRG_PLS n.val 1) % 2 ^ 64 ∧ plsCount t n.val = (plsCount s n.val + 1) % 2 ^ 32 ∧
        getN t Win.NRG_PLS n.val 7 = tag % 1000000000 ∧ getN t Win.NRG_PLS n.val 5 = tag / 1000000000 % 2 ^ 32 ∧
        (∀ x, ¬(cfgKey Win.NRG_PLS n.val 2 ≤ x ∧ x < cfgKey Win.NRG_PLS n.val 0 + 8) → Tab.get ntabDef t.ntab x = Tab.get ntabDef s.ntab x) ∧
        t.nrg = { s.nrg with plog := t.nrg.plog })))

/-- For every state with 4 lines, 64 threshold units and 8 sequencers. A record trigger while ARMED with fewer than two closed records starts the record of its instant and input, and the logic is in POST; with two it counts in CAP_NOREC, as it does in REARM; in POST an EXTEND trigger of a later cycle moves the end, at most to MAX_POST_MS; DISARMED, nothing changes. XTRIG_EDGE inverts the line's level and, where no pulse of the device on the line ends after it or ended within 1 µs before it, its input's level follows and the selected edge is its event. XTRIG_PULSE_END releases the line. A gated CAPTURE_FORCE or CAPTURE_ENABLE changes nothing; else HOST, WRAP and XOUT take what is written, EN set arms the logic with an empty history, is refused for a bad store and waits for the scan or the mode, EN cleared disarms it, drops its record and takes back what CAP_NOREC counted in its cycle, and FORCE is the event of input 4. THRESHOLD_CROSSING_LOCAL and THRESHOLD_UNIT_ARM test the newest sample of the source, or the RMS of the newest 24,000 / FNOM; a unit that is off, blank-domain or in no capture mode keeps its state; a NaN makes the level UNSURE; else the level follows the direction, an armed unit fires on the far side and is armed again on the near side. SEQUENCER_TRANSITION takes the first enabled transition of the state whose condition holds, at most one a cycle: the counters cleared, then incremented, timers started, NEXT the state; with none nothing changes; an UNSURE level satisfies no condition. SEQUENCER_TIMER_EXPIRE makes a RUNNING timer EXPIRED at its end. -/
def Obligations.CaptureTriggers : Prop :=
  ∀ (s : State), s.pins.xtrigEnd.length = 4 → s.pins.xtrigLast.length = 4 → s.cap.thr.length = 64 → s.cap.seq.length = 8 →
    let sat (x : Nat) : Nat := min (x + 1) (2 ^ 32 - 1)
    (∀ e : CapEv,
      (capState s = 0 → recTrigger s e = s) ∧
      (capState s = 1 → s.cap.staged.length < 2 → ∃ r, (recTrigger s e).cap = { s.cap with cur := some r, suppN := 0, supp := 0 } ∧
        capState (recTrigger s e) = 2 ∧ r.rseq = s.rseq ∧ (recTrigger s e).rseq = (s.rseq + 1) % 2 ^ 64 ∧ r.trig = e.inst ∧ r.input = e.input ∧
        r.spanEnd = e.inst + postMs s * msU ∧ e.inst - preMs s * msU ≤ r.start ∧ (r.shortPre = true ↔ e.inst < r.start + preMs s * msU)) ∧
      (capState s = 1 ∧ 2 ≤ s.cap.staged.length ∨ capState s = 3 →
        rd (recTrigger s e) Reg.CAP_NOREC = sat (rd s Reg.CAP_NOREC) ∧ capState (recTrigger s e) = capState s ∧ (recTrigger s e).cap.cur = s.cap.cur) ∧
      (∀ r, capState s = 2 → s.cap.cur = some r → r.startCyc ≠ e.cyc → bitOf (cw s Win.CAP_IN e.input 0) 30 = true →
        ChangesOnly [.regs, .cap] s (recTrigger s e) ∧ RegsBut [Reg.CAP_EXTENDS] s (recTrigger s e) ∧
        rd (recTrigger s e) Reg.CAP_EXTENDS = sat (rd s Reg.CAP_EXTENDS) ∧ (recTrigger s e).cap = { s.cap with cur := (recTrigger s e).cap.cur } ∧
        (recTrigger s e).cap.cur = some { r with spanEnd := min (e.inst + postMs s * msU) (r.trig + maxPostMs s * msU), ext := true, spanDone := false })) ∧
    (∀ n : Fin 4,
      let up := !s.pins.xtrigLvl.testBit n.val
      let own : Prop := ∃ c, (s.pins.xtrigEnd.getD n.val none = some c ∨ s.pins.xtrigLast.getD n.val none = some c) ∧ s.cycle < c + 500
      let sel : Prop := (if up then (cw s Win.CAP_IN n.val 0).testBit 28 else (cw s Win.CAP_IN n.val 0).testBit 29) = true
      ∃ t, ChangesOnly [.pins, .cap] s t ∧ (∀ b, t.pins.xtrigLvl.testBit b = if b = n.val then up else s.pins.xtrigLvl.testBit b) ∧
        t.pins = { s.pins with xtrigLvl := t.pins.xtrigLvl } ∧
        (own → exec (.xtrigEdge n) s = .next t ∧ t.cap = s.cap) ∧
        (¬own → (lvlOf t n.val).lvl = b2n up ∧ (∀ m, m ≠ n.val → lvlOf t m = lvlOf s m) ∧
          (sel → exec (.xtrigEdge n) s = .next (capEvent t n.val s.now none)) ∧ (¬sel → exec (.xtrigEdge n) s = .next t))) ∧
    (∀ n : Fin 4, s.pins.xtrigEnd.getD n.val none = none → exec (.xtrigPulseEnd n) s = .next s) ∧
    (∀ (n : Fin 4) c, s.pins.xtrigEnd.getD n.val none = some c → Completes (.xtrigPulseEnd n) s [.cycle, .now, .pins] [] (fun t =>
      t.cycle = max s.cycle c ∧ t.pins = { s.pins with xtrigEnd := s.pins.xtrigEnd.set n.val none, xtrigLast := s.pins.xtrigLast.set n.val (some c) })) ∧
    (∀ v : Word,
      let was := bit s Reg.CAP_CTRL 31
      let size := fld s Reg.CAP_STORE_SIZE 15 0
      let bad : Prop := size < 16 ∨ 4096 < fld s Reg.CAP_STORE_BASE 15 0 + size
      let waits : Prop := bit s Reg.CAP_STATUS 7 = true ∨ runsLathe (mode s) = false
      let flds (t : State) : Prop := ChangesOnly [.regs, .cap] s t ∧ RegsBut [Reg.CAP_CTRL, Reg.CAP_STATUS, Reg.CAP_NOREC] s t ∧
        fld t Reg.CAP_CTRL 30 29 = bits v.toNat 30 29 ∧ fld t Reg.CAP_CTRL 19 16 = bits v.toNat 19 16
      let on (t : State) : Prop :=
        (was = true → bit t Reg.CAP_CTRL 31 = true ∧ t.cap = s.cap ∧ capState t = capState s) ∧
        (was = false → waits → bit t Reg.CAP_CTRL 31 = false ∧ t.cap = { s.cap with heldEn := true } ∧ capState t = capState s) ∧
        (was = false → ¬waits → bad → bit t Reg.CAP_CTRL 31 = false ∧ bit t Reg.CAP_STATUS 8 = true ∧ t.cap = s.cap) ∧
        (was = false → ¬waits → ¬bad → bit t Reg.CAP_CTRL 31 = true ∧ capState t = 1 ∧ t.cap.hist = [] ∧ t.cap.histStart = nowNs s ∧ t.cap.lastV = [])
      (gated s Reg.CAP_CTRL = true → exec (.captureForce v) s = .next s ∧ exec (.captureEnable v) s = .next s) ∧
      (gated s Reg.CAP_CTRL = false →
        (∃ t, flds t ∧ on t ∧ rd t Reg.CAP_NOREC = rd s Reg.CAP_NOREC ∧ exec (.captureEnable v) s = .next (if v.toNat.testBit 28 then capEvent t 4 s.now none else t)) ∧
        ∃ t, flds t ∧ (v.toNat.testBit 31 = true → on t ∧ rd t Reg.CAP_NOREC = rd s Reg.CAP_NOREC) ∧ (v.toNat.testBit 31 = false → bit t Reg.CAP_CTRL 31 = false ∧ capState t = 0 ∧
          t.cap = { s.cap with cur := none, heldEn := false } ∧
          rd t Reg.CAP_NOREC = rd s Reg.CAP_NOREC - (cycReg s Reg.CAP_NOREC).2.2) ∧ exec (.captureForce v) s = .next (capEvent t 4 s.now none))) ∧
    (∀ (u : Fin 64) (n : Nat) (gs : List GridTaps) (c : Instr), c = .thresholdCrossingLocal u n gs ∨ c = .thresholdUnitArm u n gs →
      let d0 := cw s Win.CAP_TH u.val 0
      let off : Prop := d0.testBit 31 = false ∨ d0.testBit 30 = true ∨ runsLathe (mode s) = false
      let xs := lockedSamples s (bits d0 17 0) n gs
      let v := if bits d0 27 26 = 1 then rmsAll (xs.drop (xs.length - 24000 / fnom s)) else xs.getLast?.getD f32.nan
      let p := passTo s (ceilDiv (n * secU) 24000)
      let th := thrOf s u.val
      let level := dyOf f32 (cw s Win.CAP_TH u.val 1)
      let hyst := dyOf f32 (cw s Win.CAP_TH u.val 2)
      let x := dyOf f32 v
      let dir := bits d0 29 28
      let hi := level.lt x
      let lo := x.lt level
      let low := x.le (level.sub hyst)
      let high := (level.add hyst).le x
      let fires := th.armed && (if dir = 0 then hi else if dir = 1 then lo else if th.low then hi else !hi)
      let arms := if dir = 0 then low else if dir = 1 then high else low || high
      (47 < bits d0 17 0 → exec c s = .next s) ∧
      (bits d0 17 0 ≤ 47 → off → exec c s = .next p) ∧
      (bits d0 17 0 ≤ 47 → ¬off → ∃ t inst, ChangesOnly [.cycle, .now, .cap] s t ∧ t.cycle = p.cycle ∧ (∀ m, m ≠ 0x40 + u.val → lvlOf t m = lvlOf s m) ∧ (∀ m, m ≠ u.val → thrOf t m = thrOf s m) ∧
        (isNaN f32 v = true → exec c s = .next t ∧ (lvlOf t (0x40 + u.val)).lvl = 2 ∧ thrOf t u.val = { th with last := some (n, v) }) ∧
        (isNaN f32 v = false → exec c s = .next (if fires then capEvent t (0x40 + u.val) inst none else t) ∧
          (lvlOf t (0x40 + u.val)).lvl = b2n (if dir = 1 then lo else hi) ∧
          thrOf t u.val =
            { th with armed := if fires then (decide (2 ≤ dir) && arms) else th.armed || arms, low := if arms then low else th.low, last := some (n, v) }))) ∧
    (∀ n : Fin 8,
      let q := seqOf s n.val
      let tr (i : Nat) : Nat := cw s Win.CAP_TR (n.val * 64 + q.st * 4 + i) 0
      let off : Prop := (cw s Win.CAP_SQ n.val 0).testBit 31 = false ∨ runsLathe (mode s) = false ∨ q.lastCyc = some s.cycle
      let holds (i : Nat) : Prop := (tr i).testBit 31 = true ∧ seqCond s n.val q (tr i) ≠ none
      (∀ d, bits d 30 28 = 0 → (lvlOf s (bits d 23 16)).lvl = 2 → seqCond s n.val q d = none) ∧
      (off ∨ (∀ i, i < 4 → ¬holds i) → exec (.sequencerTransition n) s = .next s) ∧
      (∀ i, i < 4 → ¬off → holds i → (∀ j, j < i → ¬holds j) →
        let d1 := cw s Win.CAP_TR (n.val * 64 + q.st * 4 + i) 1
        Completes (.sequencerTransition n) s itemParts (itemRegs ++ [Reg.CAP_SQCUR]) (fun t =>
          (seqOf t n.val).st = bits (tr i) 15 12 ∧ (seqOf t n.val).lastCyc = some s.cycle ∧ (∀ m, m ≠ n.val → seqOf t m = seqOf s m) ∧
          (∀ k, k < q.cnt.length → (seqOf t n.val).cnt.getD k 0 =
            let c := if d1.testBit (8 + k) && decide (k < 4) then 0 else q.cnt.getD k 0
            if d1.testBit (12 + k) && decide (k < 4) then min (c + 1) 65535 else c) ∧
          (∀ k, k < q.tmr.length → (seqOf t n.val).tmr.getD k (0, 0) =
            if d1.testBit (4 + k) && decide (k < 4) then (1, s.cycle + 500 * max 1 (cw s Win.CAP_SQ n.val (3 + k))) else q.tmr.getD k (0, 0)))) ∧
      (∀ k : Fin 4,
        let tm := q.tmr.getD k.val (0, 0)
        (tm.1 ≠ 1 ∨ runsLathe (mode s) = false → exec (.sequencerTimerExpire n k) s = .next s) ∧
        (tm.1 = 1 → runsLathe (mode s) = true → Completes (.sequencerTimerExpire n k) s [.cycle, .now, .regs, .cap] [Reg.CAP_SQCUR] (fun t =>
          t.cycle = max s.cycle tm.2 ∧ t.cap = { s.cap with seq := s.cap.seq.set n.val { q with tmr := q.tmr.set k.val (2, tm.2) } }))))

/-- For every state with two NOR devices, three compression queues and 16 rings. POST_SPAN_END without a record, or of one whose span has ended, changes nothing; else the span ends at its time. RECORD_CLOSE of a record whose span has not ended, or whose newest blank is neither sealed nor retired while a channel is in the blank domain, changes nothing; else REARM begins, and the record, with the channels in force and a body of at most 128 × 65,536 entries, joins the closed ones and its jobs the capture queue, or is dropped and counted where it finds no room. CAPTURE_REARM outside REARM changes nothing; else the logic is ARMED REARM_MS after the close. RECORD_COMMIT with nothing closed, a commit that runs or blocks missing changes nothing; else the oldest record leaves the list; without a place it is counted in CAP_STORE_FULL; a failure sets NOR_ERR and leaves no commit; success with nothing in the way leaves the record's bytes in its sectors, erased bytes after them and every other byte as before. RECORD_COMMITTED without a commit changes nothing; success adds the record to the directory and counts it, failure abandons it. CAPTURE_SCAN_END outside a scan changes nothing; else the directory holds records with a valid marker alone. SHAVING_STORE of a channel that is off or blank-domain, off its grid or not of the front end changes nothing; a first value is stored, and a later one where it differs by more than the dead band, changes between NaN and number, or the heartbeat is due. -/
def Obligations.CaptureRecords : Prop :=
  ∀ (s : State), s.nvs.nor.length = 2 → s.cmp.queues.length = 3 → s.dma.rings.length = 16 →
    let sat (x : Nat) : Nat := min (x + 1) (2 ^ 32 - 1)
    let failRegs := itemRegs ++ [Reg.SYS_HEALTH, Reg.CAP_HOST_LOST, Reg.CAP_STORE_FULL]
    (s.cap.cur = none → exec .postSpanEnd s = .next s ∧ exec .recordClose s = .next s) ∧
    (∀ r, s.cap.cur = some r →
      let k := r.spanEnd * blankRate s / secU
      let waits : Prop := (∃ c ∈ capChans s, (c.2.getD 0 0).testBit 30 = true) ∧ ∃ b, s.aln.ring.getD (k % 32) none = some b ∧ b.epoch = k ∧ b.state < 3
      (r.spanDone = true → exec .postSpanEnd s = .next s) ∧
      (r.spanDone = false → exec .postSpanEnd s = .next { passTo s r.spanEnd with cap := { s.cap with cur := some { r with spanDone := true } } }) ∧
      (r.spanDone = false ∨ waits → exec .recordClose s = .next s) ∧
      (r.spanDone = true → ¬waits → Completes .recordClose s [.regs, .rseq, .chutes, .dma, .cmp, .cap]
          ([Reg.CAP_STATUS, Reg.CAP_STORE_FULL] ++ [Reg.CH_STATUS 0, Reg.CH_PUSH_REFUSED 0, Reg.CH_FLUSH_TRUNC 0]) (fun t =>
        capState t = 3 ∧ t.cap.cur = none ∧ t.cap.rearmAt = s.now + rearmMs s * msU ∧
        ∃ r', r'.rseq = r.rseq ∧ r'.trig = r.trig ∧ r'.input = r.input ∧ r'.start = r.start ∧ r'.chans = capChans s ∧
          r'.body = (recBody s r (capChans s)).take (128 * 65536) ∧ (r'.trunc = true ↔ 128 * 65536 < (recBody s r (capChans s)).length) ∧
          r'.nblk = ceilDiv r'.body.length 65536 ∧
          (recRoom s (recSectors (recDone r')) = true → t.cap.staged = s.cap.staged ++ [r'] ∧
            t.cmp.queues.getD 0 [] = s.cmp.queues.getD 0 [] ++ recJobs r' ∧ rd t Reg.CAP_STORE_FULL = rd s Reg.CAP_STORE_FULL) ∧
          (recRoom s (recSectors (recDone r')) = false → t.cap.staged = s.cap.staged ∧ t.cmp = s.cmp ∧
            rd t Reg.CAP_STORE_FULL = sat (rd s Reg.CAP_STORE_FULL))))) ∧
    (capState s ≠ 3 → exec .captureRearm s = .next s) ∧
    (capState s = 3 → Completes .captureRearm s [.cycle, .now, .freeCtr, .regs, .rseq, .dma, .nvs, .cap]
        [Reg.CAP_STATUS, Reg.NVS_LOG_DROPPED, Reg.NVS_LOG_QDROP, Reg.NVS_STATUS] (fun t =>
      t.cycle = (passTo s s.cap.rearmAt).cycle ∧ capState t = 1 ∧ t.cap = { s.cap with suppN := 0, supp := 0 } ∧
      (s.cap.supp = 0 → t.nvs = s.nvs ∧ t.rseq = s.rseq))) ∧
    (∀ ok, s.cap.staged = [] ∨ s.cap.commit ≠ none → exec (.recordCommit ok) s = .next s) ∧
    (∀ ok r rest, s.cap.staged = r :: rest → s.cap.commit = none →
      let n := recSectors r
      let dev := storeDev s
      (r.blocks.length < r.nblk → exec (.recordCommit ok) s = .next s) ∧
      (r.nblk ≤ r.blocks.length → Completes (.recordCommit ok) s itemParts failRegs (fun t =>
        t.cap.staged = rest ∧
        (recRoom s n = false → t.cap.commit = none ∧ t.nvs.nor = s.nvs.nor ∧ rd t Reg.CAP_STORE_FULL = sat (rd s Reg.CAP_STORE_FULL)) ∧
        (∀ first way, recRoom s n = true → recPlace s n = some (first, way) →
          let can : Prop := norProtected s dev first n = false ∧ (norOf s dev).present = true ∧ ok = true
          (¬can → t.cap.commit = none ∧ bit t Reg.CAP_STATUS 6 = false ∧ bit t Reg.SYS_HEALTH Health.norErr = true) ∧
          (can → t.cap.commit = some (r, first, n) ∧ bit t Reg.CAP_STATUS 6 = true ∧
            (way = [] → ∀ a, Tab.get norDef (norOf t dev).mem a =
              if first * 65536 ≤ a ∧ a < first * 65536 + (recImage r).length then BitVec.ofNat 8 ((recImage r).getD (a - first * 65536) 0)
              else if first ≤ a / 65536 ∧ a / 65536 < first + n then 255 else Tab.get norDef (norOf s dev).mem a)))))) ∧
    (∀ ok, s.cap.commit = none → exec (.recordCommitted ok) s = .next s) ∧
    (∀ ok r first n, s.cap.commit = some (r, first, n) → Completes (.recordCommitted ok) s itemParts (failRegs ++ [Reg.CAP_RECORDS]) (fun t =>
      t.cap.commit = none ∧ bit t Reg.CAP_STATUS 6 = false ∧
      (ok = true → t.cap.dir = s.cap.dir ++ [⟨r.rseq, first, n, r.input, recFlags r, (recTail r).length⟩] ∧
        rd t Reg.CAP_RECORDS = sat (rd s Reg.CAP_RECORDS) ∧
        (bit s Reg.CAP_CTRL 30 = true → (ringOf t 3).waiting = (ringOf s 3).waiting ++ [⟨r.rseq, recImage r⟩])) ∧
      (ok = false → t.cap.dir = s.cap.dir ∧ bit t Reg.SYS_HEALTH Health.norErr = true))) ∧
    (bit s Reg.CAP_STATUS 7 = false → exec .captureScanEnd s = .next s) ∧
    (bit s Reg.CAP_STATUS 7 = true → Completes .captureScanEnd s [.regs, .rseq, .chutes, .dma, .nvs, .cap]
        (itemRegs ++ [Reg.CAP_CTRL, Reg.CAP_RECLAIMED]) (fun t =>
      bit t Reg.CAP_STATUS 7 = false ∧ (∀ d ∈ t.cap.dir, scanAt s (storeDev s) d.first = some d) ∧
      (s.cap.heldEn = false → capState t = capState s) ∧ t.cap.heldEn = false)) ∧
    (∀ (c : Fin 256) (n : Nat) (xs : GridTaps),
      let w := cw s Win.CAP_CH c.val 0
      let src := bits w 17 0
      let off : Prop := w.testBit 31 = false ∨ w.testBit 30 = true ∨ n % (bits w 25 18 + 1) ≠ 0 ∨ 47 < src
      let t0 := n * secU / 24000
      (off → exec (.shavingStore c n xs) s = .next s) ∧
      let u := passTo s (ceilDiv (n * secU) 24000)
      (¬off → exec (.shavingStore c n xs) s = .next (if (chRoots u src).all (fun m => grpRanAt u (afGroup u m) t0)
        then shave u c.val (n * 1000000000 / 24000) (chSample u true src t0 xs) else u))) ∧
    (∀ ch t v,
      let off : Prop := bit s Reg.CAP_CTRL 31 = false ∨ runsLathe (mode s) = false ∨ bit s Reg.CAP_STATUS 7 = true ∨ (cw s Win.CAP_CH ch 0).testBit 31 = false
      let last := Tab.get (fun _ => (0, 0)) s.cap.lastV ch
      let first : Prop := Tab.has s.cap.lastV ch = false
      let far : Prop := isFin f32 v = true ∧ isFin f32 last.2 = true ∧ (dyOf f32 (cw s Win.CAP_CH ch 1)).lt ((dyOf f32 v).sub (dyOf f32 last.2)).abs = true
      let flip : Prop := isNaN f32 v ≠ isNaN f32 last.2
      let due : Prop := bits (cw s Win.CAP_CH ch 2) 31 16 * 1000000 ≤ t - last.1
      let room : Prop := s.cap.hist.length < histCap s ∧ s.cap.rate.2 < 8000000
      (off → shave s ch t v = s) ∧
      (¬off → ¬first → ¬far → ¬flip → ¬due → (isFin f32 v = true ∧ isFin f32 last.2 = true ∨ isNaN f32 v = true) → shave s ch t v = s) ∧
      (¬off → room → first ∨ far ∨ flip ∨ due → ∃ e : Shaving, e.t = t ∧ e.chan = ch ∧ e.v = v ∧ (shave s ch t v).cap.hist = s.cap.hist ++ [e] ∧
        Tab.get (fun _ => (0, 0)) (shave s ch t v).cap.lastV ch = (t, v) ∧ ChangesOnly [.cap] s (shave s ch t v)))

/-- For every state with two mesh channels. MESH_CHANNEL_ENABLE, its register not gated, writes MSH_CTRL, stops a channel whose EN is 0, keeps one that may run, and marks a newly enabled one whose settings break the limits. MESH_CHANNEL_START of a channel with no admitted domain, EN 0, running, without the radio or with bad settings changes nothing; else the channel runs from the first superframe start at least 1 ms after the admission, with a full airtime budget and no request from before. MESH_SUPERFRAME_END of a channel that does not run changes nothing; else the channel is in the next superframe, at its start, nothing of it sent yet, and acknowledgements four superframes old are dropped and counted. MESH_SPI_WRITE, not gated, starts a shift, or sets LOAD_REFUSED where one runs; MESH_SPI_SHIFT_END ends it with what was shifted in. MESH_TRANSMIT_END ends the channel's transmission and its pin falls. MESH_COMMAND_GO, not gated, writes MSH_CMD; with GO 0 no more; a running command or an ASSIGN to other than one node sets CMD_REFUSED; else the command runs with the next MSG_ID, an empty bitmap and the enabled nodes of its destination, and is done at once where there are none. -/
def Obligations.MeshChannels : Prop :=
  ∀ (s : State), s.msh.ch.length = 2 →
    (∀ v : Word,
      (gated s Reg.MSH_CTRL = true → exec (.meshChannelEnable v) s = .next s) ∧
      (gated s Reg.MSH_CTRL = false → Completes (.meshChannelEnable v) s [.regs, .ntab, .pins, .msh, .pwr] [Reg.MSH_CTRL, Reg.MSH_STATUS, Reg.PWR_STATUS] (fun t =>
        rd t Reg.MSH_CTRL = v.toNat % 4 ∧ ∀ n, n < 2 →
          (v.toNat.testBit n = false → mcRun t n = false) ∧ (mcRun s n = true → v.toNat.testBit n = false → (chOf t n).txEnd = none ∧ t.pins.mshTxEn.testBit n = false) ∧
          (v.toNat.testBit n = true → radioOk s = true → mcRun t n = mcRun s n) ∧
          (v.toNat.testBit n = true → mcEn s n = false → meshCfgOk s n = false → bit t Reg.MSH_STATUS (4 + n) = true)))) ∧
    (∀ n : Fin 2,
      let off : Prop := (chOf s n.val).admitAt = none ∨ mcEn s n.val = false ∨ mcRun s n.val = true ∨ radioOk s = false ∨ meshCfgOk s n.val = false
      (off → exec (.meshChannelStart n) s = .next s) ∧
      (∀ a, ¬off → (chOf s n.val).admitAt = some a → Completes (.meshChannelStart n) s (itemParts ++ [.cycle, .now, .msh]) (itemRegs ++ [Reg.MSH_STATUS]) (fun t =>
        let s1 := passCyc s (a + 500000)
        let k0 := sfAt s n.val s1.now
        let k := if sfStart s n.val k0 < s1.now then k0 + 1 else k0
        mcRun t n.val = true ∧ t.cycle = (passTo s1 (sfStart s n.val k)).cycle ∧ (chOf t n.val).sf = k ∧ (chOf t n.val).firstSf = k ∧
        (chOf t n.val).budget = budgetMax s n.val ∧ (chOf t n.val).budgetAt = t.now ∧ (chOf t n.val).wakes = [] ∧ (chOf t n.val).acks = [] ∧
        (chOf t n.val).txEnd = none ∧ (∀ m, m ≠ n.val → chOf t m = chOf s m)))) ∧
    (∀ n : Fin 2,
      let c := chOf s n.val
      let back : Prop := s.now < sfStart s n.val c.sf
      let k := if back then sfAt s n.val s.now + 1 else max (c.sf + 1) (sfAt s n.val s.now)
      (mcRun s n.val = false → exec (.meshSuperframeEnd n) s = .next s) ∧
      (mcRun s n.val = true → ∃ t, exec (.meshSuperframeEnd n) s = .next t ∧ ChangesOnly (itemParts ++ [.cycle, .now, .msh]) s t ∧
        t.cycle = (passTo s (sfStart s n.val k)).cycle ∧ (chOf t n.val).sf = k ∧ (chOf t n.val).bcnDone = false ∧ (chOf t n.val).woke = false ∧
        (chOf t n.val).capDone = false ∧ (chOf t n.val).acks = c.acks.filter (fun e => decide (k ≤ e.2.2.2 + 4)) ∧
        rd t Reg.MSH_ACK_DROP = min (rd s Reg.MSH_ACK_DROP + (c.acks.filter (fun e => decide (e.2.2.2 + 4 < k))).length) (2 ^ 32 - 1) ∧
        mcRun t n.val = true)) ∧
    (∀ v : Word,
      (gated s Reg.MSH_SPI = true → exec (.meshSpiWrite v) s = .next s) ∧
      (gated s Reg.MSH_SPI = false → s.msh.spi ≠ none → Completes (.meshSpiWrite v) s [.regs] [Reg.MSH_STATUS] (fun t => bit t Reg.MSH_STATUS 3 = true)) ∧
      (gated s Reg.MSH_SPI = false → s.msh.spi = none →
        exec (.meshSpiWrite v) s = .next { s with msh := { s.msh with spi := some (s.cycle + 1600, v.toNat) } }) ∧
      (s.msh.spi = none → exec (.meshSpiShiftEnd v) s = .next s) ∧
      (∀ c w, s.msh.spi = some (c, w) → Completes (.meshSpiShiftEnd v) s [.cycle, .now, .regs, .msh] [Reg.MSH_SPI] (fun t =>
        t.cycle = max s.cycle c ∧ rd t Reg.MSH_SPI = v.toNat ∧ t.msh = { s.msh with spi := none }))) ∧
    (∀ n : Fin 2, (chOf s n.val).txEnd = none → exec (.meshTransmitEnd n) s = .next s) ∧
    (∀ (n : Fin 2) c, (chOf s n.val).txEnd = some c → Completes (.meshTransmitEnd n) s [.cycle, .now, .pins, .msh] [] (fun t =>
      t.cycle = max s.cycle (c + 1000) ∧ chOf t n.val = { chOf s n.val with txEnd := none } ∧ (∀ m, m ≠ n.val → chOf t m = chOf s m) ∧
      ∀ b, t.pins.mshTxEn.testBit b = (s.pins.mshTxEn.testBit b && decide (b ≠ n.val)))) ∧
    (∀ v : Word,
      let dest := v.toNat % 2 ^ 16
      let kind := bits v.toNat 23 16
      let ex := cmdNodes s dest
      let id := (s.msh.lastId + 1) % 65536
      let bad : Prop := s.msh.cmd ≠ none ∨ (kind = 1 ∧ 1024 ≤ dest)
      let put (t : State) : Prop := rd t Reg.MSH_CMD = v.toNat % 2 ^ 31
      (gated s Reg.MSH_CMD = true → exec (.meshCommandGo v) s = .next s) ∧
      (gated s Reg.MSH_CMD = false →
        (v.toNat.testBit 31 = false → Completes (.meshCommandGo v) s [.regs] [Reg.MSH_CMD] put) ∧
        (v.toNat.testBit 31 = true → bad → Completes (.meshCommandGo v) s [.regs] [Reg.MSH_CMD, Reg.MSH_STATUS] (fun t => put t ∧ bit t Reg.MSH_STATUS 2 = true)) ∧
        (v.toNat.testBit 31 = true → ¬bad → ∃ t, exec (.meshCommandGo v) s = .next t ∧ put t ∧ (∀ i, i < 32 → rd t (Reg.MSH_ABM i) = 0) ∧
          rd t Reg.MSH_CMD_EXP = ex.length % 2 ^ 32 ∧ t.msh.lastId = id ∧ t.msh.nodes = s.msh.nodes ∧
          (ex ≠ [] → ChangesOnly [.regs, .msh] s t ∧ rd t Reg.MSH_CMD_STATUS = 2 ^ 31 + id ∧ ∃ m, t.msh.cmd = some m ∧ m.id = id ∧ m.dest = dest ∧
            m.kind = kind ∧ m.expect = ex ∧ m.retry = [0, 0]) ∧
          (ex = [] → ChangesOnly (itemParts ++ [.msh]) s t ∧ t.msh.cmd = none ∧ bit t Reg.MSH_CMD_STATUS 31 = false ∧ bit t Reg.MSH_CMD_STATUS 30 = true))))

/-- For every state with two mesh channels. A received frame changes nothing while the channel does not run or transmits; else one with a bad FCS counts in MSH_RX_BAD, the network's own downlink in MSH_ECHO, one of another network, of no enabled node of the channel or of no uplink type in MSH_RX_FOREIGN, and a copy whose key is held in MSH_SEEN_DUP; of any other, one with the node's last number counts as a repeat and one older as stale, where the node has joined, and any other is accepted: MSH_RX_FRAMES counts it and the node's last number is the frame's. MESH_BEACON_SEND of a channel that does not run, has sent it or transmits changes nothing; else, at the superframe's start, with too small a budget it is skipped and counted, and with enough the pin is high, the budget is charged the airtime and the frame is a beacon to 0xFFFF. A sample word gives its channel I and Q, a word without VALID or with a code error a zero sample, fill none (the channel of a bad word: DESIGN CHOICE, log 155). MESH_WAKE_SEND, MESH_CAP_TRANSMIT and MESH_CCA_BACKOFF_END change nothing where nothing is due, and a transmission that one of them starts leaves BCN_RES_US in the budget; a busy channel starts none. -/
def Obligations.MeshTraffic : Prop :=
  ∀ (s : State) (n : Fin 2), s.msh.ch.length = 2 → s.msh.sent.length = 2 →
    let c := chOf s n.val
    let sat (x : Nat) : Nat := min (x + 1) (2 ^ 32 - 1)
    let counts (x : Instr) (l : List Comp) (r : Nat) : Prop := Completes x s l [r] (fun t => rd t r = sat (rd s r))
    (∀ f : MeshFrame,
      let x := Instr.meshFrameReceive n f
      let deaf : Prop := mcRun s n.val = false ∨ c.txEnd ≠ none
      let net : Prop := f.net = mcF s n.val 0 15 8
      let own : Prop := net ∧ (f.ftype = 1 ∨ f.ftype = 2)
      let mine : Prop := net ∧ 8 ≤ f.ftype ∧ f.ftype ≤ 11 ∧ f.addr ≤ 1023 ∧ ndEn s f.addr = true ∧ ndCh s f.addr = n.val
      let seq := mfLe f 6 2
      let key := [n.val, f.addr, f.ftype, seq, if f.ftype = 8 then 0 else bits (mfLe f 8 1) 7 6]
      let held : Prop := ∃ e ∈ (seenPrune s).msh.seen, e.1 = key
      let d := (seq + 65536 - (nodeOf s f.addr).lastSeq) % 65536
      let joins : Prop := (nodeOf s f.addr).st = 0 ∨ (f.ftype = 10 ∧ d ≠ 0)
      (deaf → exec x s = .next s) ∧
      (¬deaf → f.fcsOk = false → counts x [.regs] Reg.MSH_RX_BAD) ∧
      (¬deaf → f.fcsOk = true →
        (own → counts x [.regs] Reg.MSH_ECHO) ∧
        (¬own → ¬mine → counts x [.regs] Reg.MSH_RX_FOREIGN) ∧
        (mine → held → counts x [.regs, .msh] Reg.MSH_SEEN_DUP) ∧
        (mine → ¬held → ∃ t, exec x s = .next t ∧ ChangesOnly (itemParts ++ [.ing, .aln, .spc, .msh]) s t ∧
          (¬joins → d = 0 → rd t Reg.MSH_REPEAT = sat (rd s Reg.MSH_REPEAT) ∧ t.chutes = s.chutes ∧ t.aln = s.aln ∧
            nodeOf t f.addr = { nodeOf s f.addr with repeats := satAdd 16 (nodeOf s f.addr).repeats 1 }) ∧
          (¬joins → 32768 ≤ d → rd t Reg.MSH_STALE = sat (rd s Reg.MSH_STALE) ∧ t.chutes = s.chutes ∧ t.aln = s.aln ∧
            nodeOf t f.addr = { nodeOf s f.addr with stale := satAdd 16 (nodeOf s f.addr).stale 1 }) ∧
          (joins ∨ (d ≠ 0 ∧ d < 32768) → rd t Reg.MSH_RX_FRAMES = sat (rd s Reg.MSH_RX_FRAMES) ∧ (nodeOf t f.addr).lastSeq = seq ∧
            (nodeOf t f.addr).st = 1 ∧ (nodeOf t f.addr).wakes = 0 ∧ f.addr ∉ (chOf t n.val).wakes)))) ∧
    (let off : Prop := mcRun s n.val = false ∨ c.bcnDone = true ∨ c.txEnd ≠ none
     let s1 := passTo s (sfStart s n.val c.sf)
     let acks := (c.acks.filter (fun e => decide (e.2.2.1 + msU ≤ sfStart s n.val c.sf))).take 48
     let air := airtime s n.val (26 + 4 * acks.length + 4)
     (off → exec (.meshBeaconSend n) s = .next s) ∧
     (¬off → budgetNow s1 n.val < 1000 * air → Completes (.meshBeaconSend n) s [.cycle, .now, .regs, .msh] [Reg.MSH_BCN_SKIP] (fun t =>
       t.cycle = s1.cycle ∧ rd t Reg.MSH_BCN_SKIP = sat (rd s Reg.MSH_BCN_SKIP) ∧ chOf t n.val = { c with bcnDone := true, skipped := true })) ∧
     (¬off → 1000 * air ≤ budgetNow s1 n.val → Completes (.meshBeaconSend n) s [.cycle, .now, .freeCtr, .regs, .pins, .msh] [Reg.MSH_SEEN_EVICT] (fun t =>
       t.cycle = s1.cycle ∧ t.pins.mshTxEn.testBit n.val = true ∧ (chOf t n.val).budget = budgetNow s1 n.val - 1000 * air ∧
       (chOf t n.val).txEnd = some (t.cycle + ceilDiv air (2 * nsU)) ∧ (chOf t n.val).bcnDone = true ∧ (chOf t n.val).skipped = false ∧
       (t.msh.sent.getD n.val []).take 4 = [16, mcF s n.val 0 15 8, 255, 255] ∧ (t.msh.sent.getD n.val []).length = 26 + 4 * acks.length))) ∧
    (∀ (m next : Nat) (i q : Int) (w : Word) (l : List IqWord), m < 2 → next < 2 → -2048 ≤ i → i < 2048 → -2048 ≤ q → q < 2048 →
      iqSamples m next (.word (iqWord m i q) :: l) = (i, q) :: iqSamples m (1 - m) l ∧
      iqSamples m next (.word (iqWord (1 - m) i q) :: l) = iqSamples m m l ∧ iqSamples m next (.fill :: l) = iqSamples m next l ∧
      (w.toNat.testBit 30 = false → bits w.toNat 31 31 = m → iqSamples m next (.word w :: l) = (0, 0) :: iqSamples m (1 - m) l) ∧
      iqSamples m m (.bad :: l) = (0, 0) :: iqSamples m (1 - m) l) ∧
    (∀ iq : List IqWord,
      let wake := Instr.meshWakeSend n iq
      let cap := Instr.meshCapTransmit n iq
      let off : Prop := mcRun s n.val = false ∨ c.txEnd ≠ none ∨ c.backoff ≠ none ∨ c.bcnDone = false
      (off ∨ c.woke = true ∨ c.wakes = [] → exec wake s = .next s) ∧
      (off ∨ c.capDone = true → exec cap s = .next s) ∧
      (c.backoff = none → exec (.meshCcaBackoffEnd n iq) s = .next s) ∧
      ∀ x ∈ [wake, cap, Instr.meshCcaBackoffEnd n iq], ∃ t, exec x s = .next t ∧
        ChangesOnly [.cycle, .now, .freeCtr, .regs, .pins, .msh] s t ∧ RegsBut [Reg.MSH_LBT_DEFER, Reg.MSH_WAKES, Reg.MSH_SEEN_EVICT] s t ∧
        (c.txEnd = none → (chOf t n.val).txEnd ≠ none → t.pins.mshTxEn.testBit n.val = true ∧ ccaBusy s n.val iq = false ∧
          rd s (Reg.MSH_CH_CFG n.val + 0x18) * 1000 * usU ≤ (chOf t n.val).budget))

/-- For every state. TWIN_LANE_UP, the link enabled, and TWIN_LANE_DOWN of a lane that is up change the lane; TWIN_LINK_DOWN shows whether none is up; a loss with frames in flight ends the session, as does TWIN_LSEQ_TIMEOUT with a frame held. TWIN_HELLO_SEND with a key, the link enabled, a lane up and no nonce sent sends a HELLO under a fresh nonce; TWIN_HELLO_RECEIVE with a bad tag counts, sets PAIR_ERR and ends the session, with settings that differ sets PAIR_ERR, and else keeps the partner's HELLO. TWIN_HEALTH_SEND and TWIN_CFG_SEND send one frame of a running session, encrypted and tagged under its key with its number, which counts on; CFG at once after the session's start, else 1 s after the one before. A received session frame changes nothing without a session, without a lane or when its number has passed; one ahead is held; a due one with a bad tag counts and ends the session; a due one with a good tag, nothing held, is taken: HEALTH shows the partner's word, CFG keeps its digest, COPY_BEGIN opens a copy in a standby mode, COPY_DATA adds bytes not yet held or spoils the copy, and COPY_END applies a complete, newer copy and else discards it, which TWIN_STALE shows. TWIN_COPY_TIMEOUT discards an open copy. TWIN_COPY_SENT ends the copy being sent and shows its number. -/
def Obligations.TwinLinkFrames : Prop :=
  ∀ (s : State),
    let one (x : Nat) : Nat := min (x + 1) (2 ^ 32 - 1)
    let R := itemRegs ++ [Reg.SYS_HEALTH, Reg.TWN_STATUS, Reg.TWN_COPY_FAIL, Reg.TWN_LINK_RESTART, Reg.TWN_AUTH_FAIL, Reg.DET_GS_STNUM, Reg.DET_GS_SQNUM, Reg.DET_GS_SENT]
    let P := itemParts ++ [.freeCtr, .out, .det]
    let lanes := twF s 17 16
    let on : Prop := bit s Reg.TWN_CTRL 31 = true ∧ lanes ≠ 0
    let sends (x : Instr) (ty : Nat) (body : State → List Nat) : Prop := ∀ l, s.twn.sess = some l → ∃ t, exec x s = .next t ∧
      ∃ s1 e f, t.twn.sess = some { l with txSeq := l.txSeq + 1 } ∧ t.twn.sentF = some f ∧ f.ftype = ty ∧ f.lseq = l.txSeq ∧ f.epoch = e ∧
        f.body = gcmText l.key (linkIv l.pref l.txSeq) (body s1) ∧
        f.tag = gcmTag l.key (linkIv l.pref l.txSeq) (linkHeader ty (body s1).length l.txSeq e f.role f.pri) (body s1)
    (∀ n : Fin 2,
      (bit s Reg.TWN_CTRL 31 = false → exec (.twinLaneUp n) s = .next s) ∧
      (bit s Reg.TWN_CTRL 31 = true → Completes (.twinLaneUp n) s P R (fun t => twF t 17 16 = setBitN lanes n.val ∧ bit t Reg.SYS_HEALTH Health.twinLinkDown = false)) ∧
      (∀ fl, lanes.testBit n.val = false → exec (.twinLaneDown n fl) s = .next s) ∧
      (∀ fl, lanes.testBit n.val = true → Completes (.twinLaneDown n fl) s (P ++ [.twn]) R (fun t => twF t 17 16 = clrBitN lanes n.val ∧
        (bit t Reg.SYS_HEALTH Health.twinLinkDown = decide (clrBitN lanes n.val = 0)) ∧ (fl = true → t.twn.sess = none) ∧ (fl = false → t.twn = s.twn)))) ∧
    (s.twn.held = [] → exec .twinLseqTimeout s = .next s) ∧
    (∀ c f rest, s.twn.held = (c, f) :: rest → Completes .twinLseqTimeout s (itemParts ++ [.cycle, .now, .twn]) R (fun t =>
      t.cycle = max s.cycle (c + 50000) ∧ t.twn.sess = none ∧ t.twn.held = [] ∧
      rd t Reg.TWN_LINK_RESTART = if s.twn.sess.isSome then one (rd s Reg.TWN_LINK_RESTART) else rd s Reg.TWN_LINK_RESTART)) ∧
    (twinKey s = none ∨ ¬on ∨ s.twn.nonce ≠ none → exec .twinHelloSend s = .next s) ∧
    (∀ key, twinKey s = some key → on → s.twn.nonce = none → Completes .twinHelloSend s [.freeCtr, .twn] [] (fun t => ∃ n e f,
      n = Config.fresh s.freeCtr % 2 ^ 256 ∧ t.twn.nonce = some n ∧ t.twn.sentF = some f ∧ f.ftype = 1 ∧ f.lseq = 0 ∧ f.epoch = e ∧ f.body = helloBody s n ∧
      f.tag = ofBe ((hmac (keyBytes key) (linkHeader 1 f.body.length 0 e f.role f.pri ++ f.body)).take 16))) ∧
    (∀ f : LinkFrame,
      let b := f.body
      let good : Prop := ∃ key, twinKey s = some key ∧
        f.tag = ofBe ((hmac (keyBytes key) (linkHeader 1 b.length f.lseq f.epoch f.role f.pri ++ b)).take 16)
      let same : Prop := b.length = 52 ∧ b.getD 41 0 = s.sys.twinMode ∧ b.getD 42 0 = fld s Reg.ALN_RATE 3 0 ∧ (b.drop 44).take 6 = twnMac s ∧
        ofLe (b.take 8) ≠ unitId s
      (¬on → exec (.twinHelloReceive f) s = .next s) ∧
      (on → ¬good → Completes (.twinHelloReceive f) s (itemParts ++ [.twn]) R (fun t =>
        bit t Reg.TWN_STATUS 29 = true ∧ rd t Reg.TWN_AUTH_FAIL = one (rd s Reg.TWN_AUTH_FAIL) ∧ t.twn.sess = none)) ∧
      (on → good → ¬same → Completes (.twinHelloReceive f) s [.regs] [Reg.TWN_STATUS] (fun t => bit t Reg.TWN_STATUS 29 = true)) ∧
      (on → good → same → Completes (.twinHelloReceive f) s (itemParts ++ [.twn]) R (fun t => bit t Reg.TWN_STATUS 29 = false ∧
        t.twn.peerId = some (ofLe (b.take 8)) ∧ t.twn.hello = some (ofLe (b.take 8), b.getD 40 0 % 2 == 1, ofBe ((b.drop 8).take 32))))) ∧
    (s.twn.sess = none ∨ inTwin (mode s) = false → exec .twinHealthSend s = .next s) ∧
    (inTwin (mode s) = true → sends .twinHealthSend 2 (fun s1 => beBytes 4 (healthWord s1) ++ beBytes 8 (copySeq s)) ∧
      (s.twn.sess ≠ none → ∃ t, exec .twinHealthSend s = .next t ∧ t.twn.hEp = some (nextInstant s s.twn.hEp 100) ∧
        t.cycle = (passTo s (epochPlus s (nextInstant s s.twn.hEp 100) 100)).cycle ∧ ChangesOnly [.cycle, .now, .regs, .twn] s t)) ∧
    (s.twn.sess = none → exec .twinCfgSend s = .next s) ∧ sends .twinCfgSend 3 (fun _ => cfgDigest s) ∧
    (s.twn.sess ≠ none → ∃ t, exec .twinCfgSend s = .next t ∧ t.twn.cfgAt = some t.cycle ∧
      t.cycle = match s.twn.cfgAt with | some c => max s.cycle (c + cycSec) | none => s.cycle) ∧
    (∀ (f0 : LinkFrame) (x : Instr) (ty : Nat),
      (x, ty) ∈ [(Instr.twinHealthReceive f0, 2), (.twinCfgReceive f0, 3), (.twinCopyBeginReceive f0, 0x10), (.twinCopyDataReceive f0, 0x11), (.twinCopyEndReceive f0, 0x12)] →
      (s.twn.sess = none → exec x s = .next s) ∧
      (∀ l, s.twn.sess = some l →
        let iv := linkIv (!l.pref) f0.lseq
        let b := gcmText l.key iv f0.body
        let good : Prop := f0.tag = gcmTag l.key iv (linkHeader ty f0.body.length f0.lseq f0.epoch f0.role f0.pri) b
        (lanes = 0 ∨ f0.lseq < l.rxSeq → exec x s = .next s) ∧
        (lanes ≠ 0 → l.rxSeq < f0.lseq → exec x s = .next { s with twn := { s.twn with held := s.twn.held ++ [(s.cycle, { f0 with ftype := ty })] } }) ∧
        (lanes ≠ 0 → f0.lseq = l.rxSeq → ¬good → Completes x s (P ++ [.twn]) R (fun t =>
          t.twn.sess = none ∧ rd t Reg.TWN_AUTH_FAIL = one (rd s Reg.TWN_AUTH_FAIL))) ∧
        (lanes ≠ 0 → f0.lseq = l.rxSeq → good → s.twn.held = [] → ∃ t, exec x s = .next t ∧ t.twn.sess = some { l with rxSeq := l.rxSeq + 1 } ∧
          rd t Reg.TWN_AUTH_FAIL = rd s Reg.TWN_AUTH_FAIL ∧
          (ty = 2 → rd t Reg.TWN_PEER_HEALTH = ofBe (b.take 4) % 2 ^ 32 ∧ t.twn.hbEp = (f0.epoch :: s.twn.hbEp).take 16 ∧ t.twn.rx = s.twn.rx) ∧
          (ty = 3 → t.twn.peerCfg = some (b.take 48) ∧ t.twn.rx = s.twn.rx) ∧
          (ty = 0x10 → takesCopies s = false → t.twn.rx = s.twn.rx) ∧
          (ty = 0x10 → takesCopies s = true → t.twn.rx = some ⟨ofBe (b.take 8), ofBe ((b.drop 8).take 4), s.cycle, [], false⟩) ∧
          (ty = 0x11 ∨ ty = 0x12 → s.twn.rx = none → t.twn.rx = none) ∧
          (∀ r, ty = 0x11 → s.twn.rx = some r →
            let at_ := ofBe ((b.drop 8).take 4)
            let d := b.drop 16
            let bad : Prop := r.bad = true ∨ ofBe (b.take 8) ≠ r.seq ∨ d = [] ∨ r.len < at_ + d.length ∨ ∃ i, i < d.length ∧ Tab.has r.bytes (at_ + i) = true
            (bad → t.twn.rx = some { r with bad := true }) ∧
            (¬bad → ∃ y, t.twn.rx = some { r with bytes := y } ∧ ∀ i, Tab.get (fun _ => 0) y i =
              if at_ ≤ i ∧ i < at_ + d.length then d.getD (i - at_) 0 else Tab.get (fun _ => 0) r.bytes i)) ∧
          (∀ r, ty = 0x12 → s.twn.rx = some r →
            let img := r.bytes.map (·.2)
            let ok : Prop := r.bad = false ∧ ofBe (b.take 8) = r.seq ∧ ofBe ((b.drop 8).take 4) = r.len ∧ img.length = r.len ∧
              ofBe ((b.drop 12).take 4) = crc32c img ∧ (∀ q e, s.twn.applied = some (q, e) → q < r.seq) ∧ takesCopies s = true
            t.twn.rx = none ∧
            (ok → t.twn.applied = some (payLe img 0 8, payLe img 8 8) ∧ t.twn.failed = false ∧ rd t Reg.TWN_COPIES_APPLIED = one (rd s Reg.TWN_COPIES_APPLIED)) ∧
            (¬ok → t.twn.applied = s.twn.applied ∧ t.twn.failed = true ∧ bit t Reg.SYS_HEALTH Health.twinStale = true ∧
              rd t Reg.TWN_COPY_FAIL = one (rd s Reg.TWN_COPY_FAIL) ∧ t.nrg = s.nrg ∧ t.msh = s.msh ∧ t.hist = s.hist))))) ∧
    (s.twn.rx = none → exec .twinCopyTimeout s = .next s) ∧
    (∀ r, s.twn.rx = some r → Completes .twinCopyTimeout s (P ++ [.cycle, .now, .twn]) R (fun t => t.cycle = max s.cycle (r.at_ + 5000000) ∧
      t.twn.rx = none ∧ t.twn.failed = true ∧ bit t Reg.SYS_HEALTH Health.twinStale = true ∧ rd t Reg.TWN_COPY_FAIL = one (rd s Reg.TWN_COPY_FAIL))) ∧
    (s.twn.sending = none → exec .twinCopySent s = .next s) ∧
    (∀ e img, s.twn.sending = some (e, img) → Completes .twinCopySent s [.regs, .twn]
        [Reg.TWN_COPIES_SENT, Reg.TWN_STATUS, Reg.TWN_COPY_SEQ_LO, Reg.TWN_COPY_SEQ_HI, Reg.TWN_COPY_EPOCH_LO, Reg.TWN_COPY_EPOCH_HI] (fun t =>
      rd t Reg.TWN_COPIES_SENT = one (rd s Reg.TWN_COPIES_SENT) ∧ rd t Reg.TWN_COPY_SEQ_LO = ofLe (img.take 8) % 2 ^ 32 ∧
      (s.twn.waiting = none ∨ s.twn.sess = none → t.twn.sending = none ∧ t.twn.waiting = s.twn.waiting ∧ bit t Reg.TWN_STATUS 24 = s.twn.rx.isSome) ∧
      (∀ w l, s.twn.waiting = some w → s.twn.sess = some l → t.twn.sending = some w ∧ t.twn.waiting = none ∧ bit t Reg.TWN_STATUS 24 = true)))

/-- For every state with four transmit queues. TWIN_BEACON_SEND outside twin modes or with beacons off changes nothing; else one beacon of the epoch goes to each selected port that takes it, with the health word and a tag under the beacon key. TWIN_BEACON_RECEIVE then drops and counts one with a bad tag, of the unit itself, of a far epoch or seen before, and else shows the partner's word. TWIN_CONTACT_RECORD outside twin modes changes nothing; an active unit with no change decided gains the record of the epoch, counts one with neither sign of the partner, and yields in the next epoch where its RELINQUISH of the epoch before met TAKE; a standby of a native pair that is out of contact, its start over, decides to be active in the next epoch. ROLE_CHANGE with nothing decided changes nothing; else it is at the epoch instant, a standby made active is in its active mode by cause 8 and an active unit made standby in its standby mode by cause 9. A write of TWN_CTRL, not gated, takes the enables, ends the unlock, and its OP: RELINQUISH is noted in an active mode; PARTNER_DOWN, unlocked within 1 ms, turns dual-active into active; LINK_RESTART ends the session. The unlock is open exactly after its word. A failed lane KAT of an idle clocked lane, a failed crypto KAT and a monitor out of limits set SELFTEST_FAIL and the grade is FAILED; a pass changes nothing. A scrub counts a corrected word, at most 2^32 − 1 (DESIGN CHOICE, log 130); an uncorrectable one sets ECC_UE, or leads to HALT 0x12 in a management core's memory; a kernel-table entry's parity error marks it. -/
def Obligations.TwinRolesAndSelfTests : Prop :=
  ∀ (s : State), s.out.tx.length = 4 →
    let one (x : Nat) : Nat := min (x + 1) (2 ^ 32 - 1)
    let G := [Reg.DET_GS_STNUM, Reg.DET_GS_SQNUM, Reg.DET_GS_SENT]
    let act : Prop := mode s = Mode.active ∨ mode s = Mode.legacyActive
    (let off : Prop := bit s Reg.TWN_CTRL 30 = false ∨ inTwin (mode s) = false
     let k := nextInstant s s.twn.bEp 200
     let s1 := passTo s (epochPlus s k 200)
     (off → exec .twinBeaconSend s = .next s) ∧
     (¬off → bcnKey s = none → exec .twinBeaconSend s = .next { s1 with twn := { s.twn with bEp := some k } }) ∧
     (∀ key, ¬off → bcnKey s = some key → Completes .twinBeaconSend s [.cycle, .now, .regs, .out, .twn] [Reg.TWN_HEALTH, Reg.TWN_STATUS] (fun t =>
       t.cycle = s1.cycle ∧ t.twn.bEp = some k ∧ rd t Reg.TWN_HEALTH = healthWord s1 % 2 ^ 32 ∧ ∀ p, p < 4 →
         let b := bcnHead (p % 2) (unitId s) k (healthWord s1) (copySeq s)
         let f : TxFrame := ⟨5, 0, k, 0, none, (rd s Reg.TWN_BCN_DST_LO + rd s Reg.TWN_BCN_DST_HI * 2 ^ 32, 0), 64 + 4 * fld s Reg.TWN_BCN_CFG 31 31, b ++ (hmac key b).take 16,
           ⟨some (rd s Reg.TWN_BCN_DST_LO + rd s Reg.TWN_BCN_DST_HI * 2 ^ 32), none,
             if bit s Reg.TWN_BCN_CFG 31 then some (fld s Reg.TWN_BCN_CFG 30 28, fld s Reg.TWN_BCN_CFG 11 0) else none, none, none⟩⟩
         t.out.tx.getD p [] = s.out.tx.getD p [] ++ (if bit s Reg.TWN_BCN_CFG (24 + p) = true ∧ txEn s p = true ∧
           ((s.out.tx.getD p []).map (fun g => g.size)).sum + f.size ≤ 262144 then [f] else []))) ∧
     (∀ f : BeaconFrame,
       let b := bcnHead f.lan f.unitId f.epoch f.health f.copySeq
       let good : Prop := f.magicOk = true ∧ (∃ key, bcnKey s = some key ∧ f.tag = ofBe ((hmac key b).take 16)) ∧ f.unitId ≠ unitId s ∧
         newestOr s ≤ f.epoch + 2 ∧ f.epoch ≤ newestOr s + 2 ∧ (f.epoch, f.lan.val) ∉ s.twn.bcnEp
       (off → exec (.twinBeaconReceive f) s = .next s) ∧
       (¬off → ¬good → Completes (.twinBeaconReceive f) s [.regs] [Reg.TWN_BCN_BAD] (fun t => rd t Reg.TWN_BCN_BAD = one (rd s Reg.TWN_BCN_BAD))) ∧
       (¬off → good → Completes (.twinBeaconReceive f) s [.regs, .twn] [Reg.TWN_PEER_HEALTH, Reg.TWN_STATUS] (fun t =>
         rd t Reg.TWN_PEER_HEALTH = f.health % 2 ^ 32 ∧ t.twn.peerId = some f.unitId ∧ t.twn.bcnEp = ((f.epoch, f.lan.val) :: s.twn.bcnEp).take 32)))) ∧
    (let k := nextInstant s s.twn.recEp 1000
     let s1 := passTo s (epochPlus s k 1000)
     let hb := s.twn.hbEp.contains k
     let bc := s.twn.bcnEp.any (fun e => e.1 == k)
     let recs := ((hb, bc) :: s.twn.recs).take 15
     let link := (recs.take (hbMiss s)).any (fun r => r.1)
     let bcn := (recs.take (hbMiss s)).any (fun r => r.2)
     let assumed : Prop := recs.length < hbMiss s ∨ s1.now < s.twn.entryAt + startS s * secU
     let shows (t : State) : Prop := t.cycle = s1.cycle ∧ t.twn.recEp = some k ∧ t.twn.recs = recs ∧ bit t Reg.TWN_STATUS 26 = link ∧ bit t Reg.TWN_STATUS 25 = bcn ∧
       rd t Reg.TWN_HB_MISSED = if hb || bc then rd s Reg.TWN_HB_MISSED else one (rd s Reg.TWN_HB_MISSED)
     (inTwin (mode s) = false → exec .twinContactRecord s = .next s) ∧
     (act → s.twn.due = none → ∃ t, exec .twinContactRecord s = .next t ∧ shows t ∧
       ChangesOnly (itemParts ++ [.cycle, .now, .freeCtr, .out, .det, .msh, .twn]) s t ∧ mode t = mode s ∧
       (∀ a b, wordFor s.twn.ownWords (k - 1) = some a → wordFor s.twn.peerWords k = some b → a.testBit 27 = true → b.testBit 26 = true →
         t.twn.due = some (false, k + 1, 1, 0))) ∧
     (mode s = Mode.standby ∨ mode s = Mode.legacyStandby → s.twn.due = none → s.sys.twinMode ≠ 2 → ∃ t, exec .twinContactRecord s = .next t ∧ shows t ∧
       mode t = mode s ∧ (link = false → bcn = false → ¬assumed → wordFor s.twn.peerWords k = none →
         ∃ x0, t.twn.due = some (true, k + 1, 2, x0)))) ∧
    (s.twn.due = none → exec .roleChange s = .next s) ∧
    (∀ up k rule x0, s.twn.due = some (up, k, rule, x0) → ∃ t, exec .roleChange s = .next t ∧
      t.cycle = (passTo s (epochPlus s k 0)).cycle ∧
      (up = true → mode s = Mode.standby ∨ mode s = Mode.legacyStandby → InMode t (mode s - 1) (mode s) 8 ∧ twinRole t = (if rule = 2 then 3 else 1)) ∧
      (up = false → act → InMode t (mode s + 1) (mode s) 9 ∧ twinRole t = 2) ∧
      (up = true → act → t.twn = { s.twn with due := none } ∧ ChangesOnly [.cycle, .now, .twn] s t)) ∧
    (∀ (v : Word) (c : Instr) (op : Nat), (c, op) ∈ [(Instr.twnRelinquish v, 1), (.twnPartnerDown v, 2), (.twnLinkRestart v, 3)] →
      let was := bit s Reg.TWN_CTRL 31
      let en := v.toNat.testBit 31
      let opened : Prop := ∃ u, s.twn.unlockAt = some u ∧ s.cycle ≤ u + 500000
      (gated s Reg.TWN_CTRL = true → exec c s = .next s) ∧
      (gated s Reg.TWN_CTRL = false → Completes c s (itemParts ++ [.freeCtr, .out, .det, .twn])
          (itemRegs ++ G ++ [Reg.TWN_CTRL, Reg.TWN_STATUS, Reg.SYS_HEALTH, Reg.SYS_STATUS, Reg.TWN_COPY_FAIL, Reg.TWN_LINK_RESTART, Reg.TWN_ROLE_CHANGES]) (fun t =>
        fld t Reg.TWN_CTRL 31 29 = bits v.toNat 31 29 ∧ t.twn.unlockAt = none ∧
        (was = true → en = false → t.twn.sess = none ∧ twF t 17 16 = 0) ∧ (op = 3 → t.twn.sess = none) ∧ (op ≠ 3 → was = en → t.twn.sess = s.twn.sess) ∧
        (op = 1 → (t.twn.hostRelinq = true ↔ act)) ∧ (op ≠ 1 → t.twn.hostRelinq = s.twn.hostRelinq) ∧
        (op = 2 → opened → twinRole s = 3 → act → twinRole t = 1 ∧ bit t Reg.TWN_STATUS 27 = true ∧
          rd t Reg.TWN_ROLE_CHANGES = one (rd s Reg.TWN_ROLE_CHANGES)) ∧
        (op ≠ 2 ∨ ¬opened ∨ twinRole s ≠ 3 ∨ ¬act → twinRole t = twinRole s)))) ∧
    (∀ v : Word, exec (.twnUnlockWrite v) s = .next (if gated s Reg.TWN_UNLOCK = true then s
      else { s with twn := { s.twn with unlockAt := if v = 0x0D0E7A1C then some s.cycle else none } })) ∧
    (let fails (c : Instr) (bad : Nat) : Prop := Completes c s (itemParts ++ [.freeCtr, .sys, .out, .det]) (itemRegs ++ G ++ [Reg.SYS_HEALTH]) (fun t =>
       bit t Reg.SYS_HEALTH Health.selftestFail = true ∧ ownGrade t = 0 ∧ t.sys = { s.sys with laneFail := bad, selfFailAt := some s.cycle })
     (∀ (l : Fin 32) p, (laneOf s l.val).item ≠ none ∨ domOn s (6 + l.val / 4) = false ∨ p = true → exec (.selftestLaneKat l p) s = .next s) ∧
     (∀ l : Fin 32, (laneOf s l.val).item = none → domOn s (6 + l.val / 4) = true → fails (.selftestLaneKat l false) (setBitN s.sys.laneFail l.val)) ∧
     exec (.selftestCryptoKat true) s = .next s ∧ fails (.selftestCryptoKat false) s.sys.laneFail ∧ fails .monitorOutOfLimits s.sys.laneFail) ∧
    (∀ e : EccError,
      let c := Instr.memoryScrubPass [e]
      (e.mem = 7 → exec c s = .next (gooseCheck (keyFault s (e.slot % 512) (e.addr % 2)))) ∧
      (e.mem = 9 → Completes c s (itemParts ++ [.freeCtr, .ssk, .out, .det]) (itemRegs ++ G) (fun t =>
        t.ssk = { s.ssk with ktBad := (e.slot % 128 :: s.ssk.ktBad).eraseDups })) ∧
      (e.mem ≠ 7 → e.mem ≠ 9 → e.corrected = true → Completes c s (itemParts ++ [.freeCtr, .eccCorr, .out, .det]) (itemRegs ++ G) (fun t =>
        ∀ m, Tab.get (fun _ => 0) t.eccCorr m = if m = e.mem then one (Tab.get (fun _ => 0) s.eccCorr m) else Tab.get (fun _ => 0) s.eccCorr m)) ∧
      (e.mem = 8 → e.corrected = false → exec c s = .next (gooseCheck (halt s 0x12))) ∧
      (e.mem < 7 → e.corrected = false → Completes c s (itemParts ++ [.freeCtr, .sys, .aln, .out, .det]) (itemRegs ++ G ++ [Reg.SYS_HEALTH]) (fun t =>
        bit t Reg.SYS_HEALTH Health.eccUe = true ∧ (e.mem ≠ 0 → t.aln = s.aln ∧ (e.mem, e.slot % 32, e.addr) ∈ t.sys.ue))))

/-- For every state and command with a sequence number of 64 bits. A command that ring 14 cannot take changes nothing; one with a bad descriptor halts the ring with code 4. Else the device answers by the first failing check: FORMAT, SIGNER, SIGNATURE (which also counts KEY_SIG_FAIL), TARGET, each leaving CMD_SEQ; a repeat answers the cached status and counts KEY_REPEAT; a stale SEQ answers STALE; else CMD_SEQ is SEQ, and a code that may not run in the mode answers MODE, its result cached. A code outside the table answers FORMAT. ATTEST answers its report. KEY_LOAD answers its status, has no effect on a slot with a flip pending or DRAINING, and never changes the live cell. ENTER_DIAG enters DIAGNOSTIC by cause 0x0A, ZEROIZE clears every secret and enters ZEROIZED by cause 0x0C, LOG_CLEAR begins a log generation; each answers OK. NRG_CLEAR first writes the key-wrap bank with its result pending. A class P code with bad parameters answers their status; else its bank write is requested and it is answered when that is complete, its effect not yet made. KEY_FLIP acts once the blank has opened: the other cell is live and GEN counts one; else nothing changes. KEY_MASK_REFRESH takes its cells one after another: an absent cell changes nothing, a failed one counts in KEY_FAULTS and sets KEY_FAULT; where it was live its slot and the slot's live children drain, else the cell is dropped. -/
def Obligations.KeyCommands : Prop :=
  ∀ (s : State) (c0 : KeyCmd), c0.seq < 2 ^ 64 →
    let one (x : Nat) : Nat := min (x + 1) (2 ^ 32 - 1)
    let h := fld s (Reg.RING_DESC_HEAD 14) 15 0
    let d := Tab.get noDesc (ringOf s 14).q h
    let ready : Prop := s.key.busy = none ∧ gated s Reg.KEY_STATUS = false ∧ ringRuns s 14 = true ∧ busOk s = true ∧ posted s 14 ≠ 0 ∧ cplRoom s 14 ≠ 0
    let K := [Reg.RING_DESC_HEAD 14, Reg.RING_CPL_TAIL 14, Reg.RING_RECORDS 14, Reg.RING_STATUS 14, Reg.KEY_STATUS, Reg.KEY_CMD_OK, Reg.KEY_CMD_REJ,
      Reg.KEY_CMD_SEQ_LO, Reg.KEY_CMD_SEQ_HI]
    let P := modeParts ++ [.key]
    let full := [Reg.KEY_TAMPER_RTC_LO, Reg.KEY_TAMPER_RTC_HI, Reg.KEY_ZCOUNT, Reg.TWN_STATUS, Reg.TWN_COPY_FAIL, Reg.TWN_LINK_RESTART, Reg.SYS_HEALTH] ++ modeRegs ++ K
    let counts (t : State) (st : Nat) : Prop := rd t Reg.KEY_CMD_OK = (if st = 0 then one (rd s Reg.KEY_CMD_OK) else rd s Reg.KEY_CMD_OK) ∧
      rd t Reg.KEY_CMD_REJ = if st = 0 then rd s Reg.KEY_CMD_REJ else one (rd s Reg.KEY_CMD_REJ)
    let entry := rd s (Reg.RING_CPL_BASE_LO 14) + rd s (Reg.RING_CPL_BASE_HI 14) * 2 ^ 32 + 16 * fld s (Reg.RING_CPL_TAIL 14) 15 0
    let ans (t : State) (c : KeyCmd) (code st : Nat) (res : List Nat) : Prop :=
      let bs := [0x4B, 0x52, 0x53, 0x50] ++ leBytes 2 code ++ leBytes 2 st ++ leBytes 8 c.seq ++ leBytes 2 res.length ++ List.replicate 6 0 ++ res
      counts t st ∧ ∀ x, x < entry ∨ entry + 16 ≤ x → Tab.get Memory.zero t.dma.hostMem x =
        if d.addr ≤ x ∧ x < d.addr + bs.length then BitVec.ofNat 8 (bs.getD (x - d.addr) 0) else Tab.get Memory.zero s.dma.hostMem x
    let form (c : KeyCmd) : Prop := c.magicOk = true ∧ c.ver = 1 ∧ c.payload.length ≤ 4064 ∧ 1024 ≤ d.len ∧
      32 + c.payload.length + (if c.kind = 0 then 0 else 96) ≤ d.len
    let reject (x : Instr) (c : KeyCmd) (st : Nat) : Prop := Completes x s [.regs, .dma] K (fun t => ans t c c.code st [] ∧ cmdSeq t = cmdSeq s)
    let cached (c : KeyCmd) : Option KeyRes := if c.kind = 0 then none else s.key.cache.find? (fun e => e.seq == c.seq)
    let put (c : KeyCmd) (st : Nat) (pend : Bool) : List KeyRes := if c.kind = 0 then s.key.cache else
      let l := s.key.cache.filter (fun e => e.seq != c.seq) ++ [⟨c.seq, c.code, st, pend⟩]
      l.drop (l.length - 16)
    let seqd (t : State) (c : KeyCmd) : Prop := cmdSeq t = if c.kind = 0 then cmdSeq s else c.seq
    let done (x : Instr) (c : KeyCmd) (st : Nat) : Prop := Completes x s [.regs, .dma, .key] K (fun t => ans t c c.code st [] ∧ seqd t c ∧
      t.key = { s.key with cache := put c st false })
    let waits (t : State) (c : KeyCmd) (left : Nat) : Prop := seqd t c ∧ t.key.busy = some ⟨c, some (h, d), left⟩ ∧ bit t Reg.KEY_STATUS 7 = true ∧
      bit t (Reg.RING_STATUS 14) 31 = false ∧ rd t Reg.KEY_CMD_OK = rd s Reg.KEY_CMD_OK ∧ rd t Reg.KEY_CMD_REJ = rd s Reg.KEY_CMD_REJ ∧
      t.key.slots = s.key.slots ∧ t.key.owner = s.key.owner ∧ t.key.pair = s.key.pair ∧
      ∃ w : BankWr, t.nvs = { s.nvs with bw := s.nvs.bw ++ [w] } ∧ w.kind = 2 ∧ w.who = 1
    let W := [Comp.freeCtr, .regs, .nvs, .key]
    let cmds : List ((KeyCmd → Instr) × Nat) := [(.attest, 1), (.installOwner, 2), (.provisionDone, 3), (.ownerRotate, 4), (.secRaise, 5), (.keyLoad, 16),
      (.keyCommit, 17), (.keyDerive, 18), (.keyDelete, 19), (.pair, 20), (.enterDiag, 32), (.zeroize, 33), (.nrgClear, 48), (.logClear, 49)]
    (¬ready → exec (.unknownCommandCode c0) s = .next s) ∧
    (ready → descOk d = true → reject (.unknownCommandCode c0) c0 1) ∧
    (∀ mk code, (mk, code) ∈ cmds →
      let c := { c0 with code := code }
      let n := cmdLe c 0 2
      let pass : Prop := ready ∧ descOk d = true ∧ form c ∧ signerOk c = true ∧ sigOk s c = true ∧ c.target = unitId s
      let run : Prop := pass ∧ cached c = none ∧ (c.kind ≠ 0 → cmdSeq s < c.seq) ∧ cmdModeOk s code = true
      (¬ready → exec (mk c) s = .next s) ∧
      (ready → descOk d = false → Completes (mk c) s [.regs, .dma] [Reg.RING_DESC_HEAD 14, Reg.RING_STATUS 14] (fun t =>
        bit t (Reg.RING_STATUS 14) 30 = true ∧ fld t (Reg.RING_STATUS 14) 23 16 = 4)) ∧
      (ready → descOk d = true → ¬form c → reject (mk c) c 1) ∧
      (ready → descOk d = true → form c → signerOk c = false → reject (mk c) c 6) ∧
      (ready → descOk d = true → form c → signerOk c = true → sigOk s c = false →
        Completes (mk c) s [.regs, .dma] (Reg.KEY_SIG_FAIL :: K) (fun t => ans t c code 2 [] ∧ cmdSeq t = cmdSeq s ∧
          rd t Reg.KEY_SIG_FAIL = one (rd s Reg.KEY_SIG_FAIL))) ∧
      (ready → descOk d = true → form c → signerOk c = true → sigOk s c = true → c.target ≠ unitId s → reject (mk c) c 3) ∧
      (∀ e, pass → cached c = some e → Completes (mk c) s [.regs, .dma] (Reg.KEY_REPEAT :: K) (fun t => ans t c e.code e.status [] ∧
        cmdSeq t = cmdSeq s ∧ rd t Reg.KEY_REPEAT = one (rd s Reg.KEY_REPEAT))) ∧
      (pass → cached c = none → c.kind ≠ 0 → c.seq ≤ cmdSeq s → reject (mk c) c 4) ∧
      (pass → cached c = none → (c.kind ≠ 0 → cmdSeq s < c.seq) → cmdModeOk s code = false → done (mk c) c 5) ∧
      (run → code = 1 → (c.payload.length ≠ 32 → done (mk c) c 7) ∧
        (c.payload.length = 32 → Completes (mk c) s [.freeCtr, .regs, .dma, .key] K (fun t => ans t c 1 0 (attestReport s c.payload).2))) ∧
      (run → code = 16 → Completes (mk c) s [.regs, .dma, .key] K (fun t => ans t c 16 (keyLoad s c).2 [] ∧ seqd t c ∧
        t.key = { s.key with slots := (keyLoad s c).1.key.slots, cache := put c (keyLoad s c).2 false } ∧
        (c.payload.length = 172 → n < 512 → (slotOf s n).flip ≠ none ∨ (slotOf s n).st = 2 → (keyLoad s c).2 = 8 ∧ t.key.slots = s.key.slots) ∧
        (∀ m, (slotOf s m).st = 1 → (slotOf s m).live < 2 → (slotOf t m).live = (slotOf s m).live ∧
          (slotOf t m).cell (slotOf s m).live = (slotOf s m).cell (slotOf s m).live))) ∧
      (run → code = 32 → (c.payload ≠ [] → done (mk c) c 7) ∧ (c.payload = [] → Completes (mk c) s P full (fun t =>
        InMode t Mode.diagnostic (mode s) 0x0A ∧ counts t 0 ∧ seqd t c ∧ t.key.cache = put c 0 false))) ∧
      (run → code = 33 → (c.payload ≠ [] → done (mk c) c 7) ∧ (c.payload = [] → Completes (mk c) s P full (fun t =>
        InMode t Mode.zeroized (mode s) 0x0C ∧ counts t 0 ∧ seqd t c ∧ t.key.bbk = none ∧ t.key.root = none ∧ t.twn.sess = none ∧
        bit t Reg.KEY_STATUS 2 = true ∧ rd t Reg.KEY_ZCOUNT = min (rd s Reg.KEY_ZCOUNT + 1) (2 ^ 16 - 1) ∧
        ∀ m, (slotOf t m).st = 0 ∧ (slotOf t m).cell0 = none ∧ (slotOf t m).cell1 = none))) ∧
      (run → code = 49 →
        let okay : Prop := c.payload.length = 8 ∧ cmdLe c 0 4 = rd s Reg.NVS_LOG_GEN ∧ cmdLe c 4 4 = rd s Reg.NVS_LOG_COUNT
        (¬okay → done (mk c) c 7) ∧ (okay → Completes (mk c) s [.regs, .rseq, .dma, .nvs, .key]
          ([Reg.NVS_LOG_GEN, Reg.NVS_LOG_COUNT, Reg.NVS_LOG_DROPPED, Reg.NVS_STATUS] ++ K) (fun t => ans t c 49 0 [] ∧ seqd t c ∧
            rd t Reg.NVS_LOG_GEN = (rd s Reg.NVS_LOG_GEN + 1) % 2 ^ 32 ∧ rd t Reg.NVS_LOG_COUNT = 0 ∧ rd t Reg.NVS_LOG_DROPPED = 0 ∧
            (∃ r, r.code = 0x00F0 ∧ t.nvs.queue = r :: s.nvs.queue) ∧ logState t = if logState s = 1 then 0 else logState s))) ∧
      (run → code = 48 → (c.payload.length ≠ 1 → done (mk c) c 7) ∧ (c.payload.length = 1 → Completes (mk c) s W K (fun t =>
        waits t c 1 ∧ t.key.cache = put c 0 true ∧ t.key.pendArg = c.payload))) ∧
      (run → code ∉ [1, 16, 32, 33, 48, 49] → (keyParam s c ≠ 0 → done (mk c) c (keyParam s c)) ∧
        (keyParam s c = 0 → Completes (mk c) s W K (fun t => waits t c (if code = 3 then 2 else 1) ∧ t.key.cache = s.key.cache)))) ∧
    (∀ n : Fin 512,
      let k := slotOf s n.val
      (k.flip = none → exec (.keyFlip n) s = .next s) ∧
      (∀ a, k.flip = some a → newestOr s < a ∨ k.st ≠ 1 → exec (.keyFlip n) s = .next s) ∧
      (∀ a, k.flip = some a → a ≤ newestOr s → k.st = 1 → Completes (.keyFlip n) s [.key] [] (fun t => ∀ m, slotOf t m =
        if m = n.val then { k with live := 1 - k.live, gen := min (k.gen + 1) (2 ^ 32 - 1), staged := false, flip := none } else slotOf s m))) ∧
    exec (.keyMaskRefresh []) s = .next s ∧
    (∀ l p t, exec (.keyMaskRefresh l) s = .next t → exec (.keyMaskRefresh (l ++ [p])) s = exec (.keyMaskRefresh [p]) t) ∧
    (∀ (n : Fin 512) (i : Fin 2),
      let k := slotOf s n.val
      (k.cell i.val = none → exec (.keyMaskRefresh [(n, i)]) s = .next s) ∧
      (k.cell i.val ≠ none → ∃ t, exec (.keyMaskRefresh [(n, i)]) s = .next t ∧ rd t Reg.KEY_FAULTS = one (rd s Reg.KEY_FAULTS) ∧
        bit t Reg.SYS_HEALTH Health.keyFault = true ∧
        (k.st = 1 ∧ k.live = i.val → (slotOf t n.val).st = 2 ∧ (slotOf t n.val).fault = true ∧
          ∀ m, (slotOf s m).parent = some n.val → (slotOf s m).st = 1 → (slotOf t m).st = 2) ∧
        (¬(k.st = 1 ∧ k.live = i.val) → ∀ m, slotOf t m = if m = n.val then { k.setCell i.val none with staged := false, flip := none } else slotOf s m)))

/-- For every state. NV_LINE_WRITE_COMPLETE in HALT, or with no bank write requested, changes nothing. Else it is a line of the first bank write of the highest priority, or of the one begun; a write that begins takes the bank not in use and the next sequence number, and its bank is shown invalid. A good line before the header holds its bytes, and the write goes on with the next line. The good header line commits: the bank is valid with its SEQ, is the bank in use, and NVS_BANK_WRITES counts. A line that fails once is to be written again; no byte of the store but the line's changes. A second failure ends the write and counts NVS_BANK_FAIL; the bank in use stays, and a signed command that waited for it is answered and counted rejected. A commit that a signed command waited for last answers it as accepted, and then: INSTALL_OWNER and OWNER_ROTATE have set the owner key, SEC_RAISE SEC_MIN; KEY_COMMIT of a LIVE slot has made the other cell live with GEN + 1 where AT is 0 or its blank has opened, and else the flip waits; KEY_DERIVE has put the derived key into cell 0 of the child, live with GEN + 1; KEY_DELETE has made a LIVE slot DRAINING with its live children; PAIR has put the pair key into its slot and set PAIRED; PROVISION_DONE, whose first commit only requests its second write, leaves PROVISION for the mode that the configuration selects, by cause 7; NRG_CLEAR in a mode without shadow metering leaves a bank write of the energy kind requested. -/
def Obligations.BankWrites : Prop :=
  ∀ (s : State),
    let one (x : Nat) : Nat := min (x + 1) (2 ^ 32 - 1)
    let zero := Memory.zero
    (∀ ok, mode s = Mode.halt ∨ s.nvs.bw = [] → exec (.nvLineWriteComplete ok) s = .next s) ∧
    (s.nvs.bw ≠ [] → ∃ w, bankHead s = some w ∧ w ∈ s.nvs.bw ∧
      (w.line = 0 → w.fails = 0 → ∀ x, x ∈ s.nvs.bw → w.cls ≤ x.cls)) ∧
    (∀ w0, mode s ≠ Mode.halt → bankHead s = some w0 →
      let w := w0.begun s
      let shown (t : State) : Prop := w.line = 0 → bit t Reg.NVS_STATUS (2 * w.kind + w.bank) = false ∧ rd t (Reg.NVS_SEQ (2 * w.kind + w.bank)) = 0
      let V := [Reg.NVS_STATUS, Reg.NVS_SEQ (2 * w.kind + w.bank)]
      let put (t : State) (r : List BankWr) (more : Bool) : Prop := ∃ l1 l2 l3, s.nvs.bw = l1 ++ w0 :: l2 ∧ w0 ∉ l1 ∧ t.nvs.bw = l1 ++ r ++ l2 ++ l3 ∧
        (more = false → l3 = [])
      let commits : Prop := w.kind < 3 ∧ w.bank < 2 ∧ w.lines < w.line ∧ s.nvs.inUse.length = 3
      let done (t : State) : Prop := bit t Reg.NVS_STATUS (2 * w.kind + w.bank) = true ∧ rd t (Reg.NVS_SEQ (2 * w.kind + w.bank)) = w.seq % 2 ^ 32 ∧
        t.nvs.inUse = s.nvs.inUse.set w.kind w.bank ∧ rd t Reg.NVS_BANK_WRITES = one (rd s Reg.NVS_BANK_WRITES) ∧
        HoldsBytes zero s.nvs.store t.nvs.store w.lineAt w.lineBytes
      let N := [Comp.freeCtr, .regs, .dma, .ntab, .nvs, .key, .nrg]
      let NR := V ++ [Reg.NVS_BANK_WRITES, Reg.RING_CPL_TAIL 14, Reg.RING_RECORDS 14, Reg.RING_STATUS 14, Reg.KEY_STATUS, Reg.KEY_CMD_OK, Reg.SYS_STATUS,
        Reg.KEY_SEC_MIN, Reg.KEY_DRAINS, Reg.NRG_STATUS]
      (w0.line = 0 → w0.fails = 0 → w.bank = 1 - s.nvs.inUse.getD w0.kind 1 ∧
        w.seq = ((if bit s Reg.NVS_STATUS (2 * w0.kind + s.nvs.inUse.getD w0.kind 1) = true then
          rd s (Reg.NVS_SEQ (2 * w0.kind + s.nvs.inUse.getD w0.kind 1)) else 0) + 1) % 2 ^ 32) ∧
      (w.kind < 3 → w.bank < 2 → w.line ≤ w.lines → Completes (.nvLineWriteComplete true) s [.regs, .nvs] V (fun t => shown t ∧
        HoldsBytes zero s.nvs.store t.nvs.store w.lineAt w.lineBytes ∧ t.nvs.inUse = s.nvs.inUse ∧ put t [{ w with line := w.line + 1, fails := 0 }] false)) ∧
      (w.kind < 3 → w.bank < 2 → w.fails = 0 → Completes (.nvLineWriteComplete false) s [.freeCtr, .regs, .nvs] V (fun t => shown t ∧
        BytesBut w.lineAt 64 s.nvs.store t.nvs.store ∧ t.nvs.inUse = s.nvs.inUse ∧ put t [{ w with fails := 1 }] false)) ∧
      (w.kind < 3 → w.bank < 2 → w.fails ≠ 0 → ∃ t, exec (.nvLineWriteComplete false) s = .next t ∧ put t [] false ∧ t.nvs.inUse = s.nvs.inUse ∧
        BytesBut w.lineAt 64 s.nvs.store t.nvs.store ∧ rd t Reg.NVS_BANK_FAIL = one (rd s Reg.NVS_BANK_FAIL) ∧
        (∀ b, w.who = 1 → s.key.busy = some b → t.key.busy = none ∧ t.key.slots = s.key.slots ∧ t.key.owner = s.key.owner ∧
          rd t Reg.KEY_CMD_REJ = one (rd s Reg.KEY_CMD_REJ))) ∧
      (commits → w.who ∉ [1, 7, 8] → Completes (.nvLineWriteComplete true) s [.regs, .nvs, .pwr]
        (V ++ [Reg.NVS_BANK_WRITES, Reg.SYS_STATUS, Reg.NRG_SAVES, Reg.NRG_SAVE_SEQ, Reg.NRG_STATUS, Reg.TXN_STATUS]) (fun t => done t ∧ put t [] false ∧
          (w.kind = 0 → w.who ≠ 9 → bit t Reg.SYS_STATUS 8 = decide (w.bank = 1)) ∧
          (w.kind = 1 → rd t Reg.NRG_SAVES = one (rd s Reg.NRG_SAVES) ∧ rd t Reg.NRG_SAVE_SEQ = w.seq % 2 ^ 32) ∧
          (w.who = 2 → bit t Reg.TXN_STATUS 11 = true) ∧ (w.who = 4 → t.pwr.saveDone = some s.cycle))) ∧
      (∀ b : KeyBusy, commits → w.who = 1 → w.kind = 2 → s.key.busy = some b →
        let c := b.cmd
        let n := cmdLe c 0 2
        let k := slotOf s n
        (2 ≤ b.left → Completes (.nvLineWriteComplete true) s N NR (fun t => done t ∧ put t [] true ∧
          t.key = { s.key with busy := some { b with left := b.left - 1 } } ∧ t.nvs.bw.length = s.nvs.bw.length)) ∧
        (b.left ≤ 1 →
          let P (f : State → Prop) : Prop := Completes (.nvLineWriteComplete true) s N NR (fun t => done t ∧ t.key.busy = none ∧
            rd t Reg.KEY_CMD_OK = one (rd s Reg.KEY_CMD_OK) ∧ f t)
          (c.code = KC.installOwner ∨ c.code = KC.ownerRotate → P (fun t => t.key.owner = some (ofBe c.payload % 2 ^ 768) ∧
            t.key.slots = s.key.slots ∧ bit t Reg.SYS_STATUS 11 = true)) ∧
          (c.code = KC.secRaise → P (fun t => rd t Reg.KEY_SEC_MIN = cmdLe c 0 4 % 2 ^ 32 ∧ t.key.slots = s.key.slots ∧ t.key.owner = s.key.owner)) ∧
          (c.code = KC.keyCommit → k.st = 1 → P (fun t => t.key.owner = s.key.owner ∧ ∀ m, slotOf t m = if m ≠ n then slotOf s m
            else if cmdLe c 8 8 = 0 ∨ cmdLe c 8 8 ≤ newestOr s then { k with live := 1 - k.live, gen := min (k.gen + 1) (2 ^ 32 - 1), staged := false, flip := none }
            else { k with flip := some (cmdLe c 8 8) })) ∧
          (∀ key, c.code = KC.keyDerive → childKey s c = some key → P (fun t => t.key.owner = s.key.owner ∧
            ∀ m, slotOf t m = if m = cmdLe c 2 2 then writeLive (slotOf s m) ⟨cmdLe c 8 4, kcvOf key, key⟩ (cmdLe c 4 1 % 16) (some n) else slotOf s m)) ∧
          (c.code = KC.keyDelete → k.st = 1 → P (fun t => t.key.owner = s.key.owner ∧ (slotOf t n).st = 2 ∧
            ∀ m, m ≠ n → (slotOf s m).st = 1 → (slotOf s m).parent = some n → (slotOf t m).st = 2)) ∧
          (∀ key, c.code = KC.pair → pairKey s (cmdLe c 8 8) (ofBe ((c.payload.drop 16).take 96)) = some key → P (fun t =>
            t.key.pair = some ⟨n, cmdLe c 8 8, ofBe ((c.payload.drop 16).take 96)⟩ ∧ bit t Reg.KEY_STATUS 6 = true ∧ t.key.owner = s.key.owner ∧
            ∀ m, slotOf t m = if m = n then writeLive k ⟨Config.pairKeyId (cmdLe c 8 8) % 2 ^ 32, kcvOf key, key⟩ (2 ^ Usage.twin) none else slotOf s m)) ∧
          (c.code = KC.nrgClear → runsShadow (mode s) = false → P (fun t => t.key.slots = s.key.slots ∧ ∃ x, x ∈ t.nvs.bw ∧ x.kind = 1 ∧ x.who = 7)) ∧
          (c.code = KC.provisionDone → mode s = Mode.provision → ∃ t, exec (.nvLineWriteComplete true) s = .next t ∧
            InMode t (operatingMode s).1 Mode.provision 7 ∧ t.key.busy = none ∧ t.key.slots = s.key.slots ∧ t.key.rootDone = s.key.root.isSome))))

/-- For every state with two NOR devices. LOG_RECORD_WRITE with nothing queued, or while the log is not in RUN (but for a LOG_CLEARED record outside SCAN), changes nothing. Into a free slot below 32,767 a good line writes the record, which leaves the queue, and COUNT counts one; a bad line counts too, leaves the record queued, and is a retry counted in RETRY up to three times, the fourth making LOG_STATE FAULT with LOG_FAULT set and the queue empty. With slots 0 to 32,766 used a good line is LOG_FULL in slot 32,767: LOG_STATE is FULL and nothing is queued. LOG_SCAN_COMPLETE outside SCAN or in BOOT changes nothing; with no good line in slots 0 to 3 a LOG_CLEARED record goes ahead of the queue and COUNT is 0; else the generation is that of the first good line of them and COUNT the first slot with no valid record in four; LOG_STATE is FAULT where the health block says so, else FULL where slot 32,767 holds a valid record, else RUN. LOG_SLOT_LOAD shows the 64 bytes of its slot with their CRC and generation verdict; LOG_AUTO_ADVANCE answers RD15 and, on a full read with AUTO, shows the next slot but past 32,767. NOR_READ, PROGRAM, ERASE and VERIFY start their operation on an idle device, and a PROGRAM or ERASE of the running image's region ends with PROTECT. NOR_OP_COMPLETE of an idle device changes nothing; else the operation has its effect, and a failure or a timeout ends with FAIL and sets NOR_ERR. Only the bytes of the operation change. -/
def Obligations.DrillLogAndNor : Prop :=
  ∀ (s : State), s.nvs.nor.length = 2 →
    let one (x : Nat) : Nat := min (x + 1) (2 ^ 32 - 1)
    let G := [Reg.DET_GS_STNUM, Reg.DET_GS_SQNUM, Reg.DET_GS_SENT]
    (∀ ok, s.nvs.queue = [] → exec (.logRecordWrite ok) s = .next s) ∧
    (∀ r q, s.nvs.queue = r :: q →
      let n := rd s Reg.NVS_LOG_COUNT
      let a := 0xC0000 + 64 * n
      let held : Prop := logState s = 3 ∨ (logState s ≠ 0 ∧ r.code ≠ 0x00F0) ∨ gated s Reg.NVS_STATUS = true
      let Q := [Reg.NVS_LOG_COUNT, Reg.NVS_STATUS]
      (∀ ok, held → exec (.logRecordWrite ok) s = .next s) ∧
      (¬held → n < 32767 → r.code ≠ 0x00F0 → Completes (.logRecordWrite true) s [.regs, .dma, .nvs] Q (fun t =>
        HoldsBytes Memory.zero s.nvs.store t.nvs.store a (logBytes r (rd s Reg.NVS_LOG_GEN)) ∧ rd t Reg.NVS_LOG_COUNT = n + 1 ∧ t.nvs.queue = q ∧
        t.nvs.fails = 0 ∧ logState t = logState s ∧ fld t Reg.NVS_STATUS 22 16 = min q.length 64)) ∧
      (¬held → n < 32767 → r.code = 0x00F0 → ∃ t, exec (.logRecordWrite true) s = .next t ∧
        HoldsBytes Memory.zero s.nvs.store t.nvs.store a (logBytes r (rd s Reg.NVS_LOG_GEN)) ∧ rd t Reg.NVS_LOG_COUNT = n + 1 ∧ logState t = 0) ∧
      (¬held → n < 32767 → s.nvs.fails < 3 → Completes (.logRecordWrite false) s [.freeCtr, .regs, .nvs] [Reg.NVS_LOG_COUNT, Reg.NVS_LOG_RETRY] (fun t =>
        BytesBut a 64 s.nvs.store t.nvs.store ∧ rd t Reg.NVS_LOG_COUNT = n + 1 ∧ rd t Reg.NVS_LOG_RETRY = one (rd s Reg.NVS_LOG_RETRY) ∧
        t.nvs.queue = s.nvs.queue ∧ t.nvs.fails = s.nvs.fails + 1)) ∧
      (¬held → n < 32767 → 3 ≤ s.nvs.fails → Completes (.logRecordWrite false) s (itemParts ++ [.freeCtr, .out, .det])
          (itemRegs ++ G ++ [Reg.SYS_HEALTH, Reg.NVS_LOG_COUNT]) (fun t =>
        BytesBut a 64 s.nvs.store t.nvs.store ∧ logState t = 2 ∧ bit t Reg.SYS_HEALTH Health.logFault = true ∧ t.nvs.queue = [] ∧ t.nvs.faultSlot = n ∧
        (bit s Reg.SYS_STATUS 13 = true → t.nvs.bw = s.nvs.bw) ∧
        (bit s Reg.SYS_STATUS 13 = false → ∃ w, t.nvs.bw = s.nvs.bw ++ [w] ∧ w.kind = 0))) ∧
      (¬held → 32767 ≤ n → Completes (.logRecordWrite true) s [.regs, .rseq, .dma, .nvs] [Reg.NVS_STATUS, Reg.NVS_LOG_DROPPED] (fun t =>
        logState t = 1 ∧ t.nvs.queue = [] ∧ ∃ f : LogRec, f.code = 0x00FF ∧ f.payload = leBytes 2 r.code ++ leBytes 8 r.rseq ∧
          HoldsBytes Memory.zero s.nvs.store t.nvs.store (0xC0000 + 64 * 32767) (logBytes f (rd s Reg.NVS_LOG_GEN)) ∧
          rd t Reg.NVS_LOG_DROPPED = min (rd s Reg.NVS_LOG_DROPPED + q.length) (2 ^ 32 - 1)))) ∧
    (logState s ≠ 3 ∨ mode s = Mode.boot → exec .logScanComplete s = .next s) ∧
    (logState s = 3 → mode s ≠ Mode.boot →
      let fault := bankLe s 0 (s.nvs.inUse.getD 0 1) 64 1 == 2 && !bit s Reg.SYS_STATUS 13
      let S := [Reg.NVS_LOG_GEN, Reg.NVS_LOG_COUNT, Reg.NVS_LOG_DROPPED, Reg.NVS_STATUS]
      (([0, 1, 2, 3].find? (fun i => slotCrcOk (slotBytes s i))) = none → Completes .logScanComplete s [.regs, .rseq, .dma, .nvs] S (fun t =>
        rd t Reg.NVS_LOG_COUNT = 0 ∧ t.nvs.store = s.nvs.store ∧ logState t = (if fault = true then 2 else 0) ∧
        (bit s Reg.SYS_STATUS 13 = true → rd t Reg.NVS_LOG_GEN = 1) ∧
        (fault = false → ∃ r, r.code = 0x00F0 ∧ t.nvs.queue = r :: s.nvs.queue))) ∧
      (∀ i, [0, 1, 2, 3].find? (fun i => slotCrcOk (slotBytes s i)) = some i → Completes .logScanComplete s [.regs, .dma, .nvs] S (fun t =>
        let g := slotGen (slotBytes s i)
        let c := rd t Reg.NVS_LOG_COUNT
        rd t Reg.NVS_LOG_GEN = g % 2 ^ 32 ∧ t.nvs.store = s.nvs.store ∧ c ≤ 32767 ∧
        (∀ j, c ≤ j → j < c + 4 → j < 32767 → slotValid s j g = false) ∧
        (∀ m, m < c → ∃ j, m ≤ j ∧ j < m + 4 ∧ j < 32767 ∧ slotValid s j g = true) ∧
        logState t = (if fault = true then 2 else if slotValid s 32767 g = true then 1 else 0) ∧
        (t.nvs.queue = if fault = true ∨ slotValid s 32767 g = true then [] else s.nvs.queue)))) ∧
    (let shows (n : Nat) (t : State) : Prop := (∀ i, i < 16 → rd t (Reg.NVS_LOG_RD i) = ofLe (nvBytes s (0xC0000 + 64 * n + 4 * i) 4)) ∧
       fld t Reg.NVS_LOG_RDSTAT 14 0 = n ∧ bit t Reg.NVS_LOG_RDSTAT 30 = slotCrcOk (slotBytes s n) ∧
       bit t Reg.NVS_LOG_RDSTAT 29 = decide (slotGen (slotBytes s n) = rd s Reg.NVS_LOG_GEN) ∧ bit t Reg.NVS_LOG_RDSTAT 31 = slotValid s n (rd s Reg.NVS_LOG_GEN)
     let L := [Reg.NVS_LOG_CUR, Reg.NVS_LOG_RDSTAT] ++ (List.range 16).map Reg.NVS_LOG_RD
     (∀ v : Word, (gated s Reg.NVS_LOG_CUR = true → exec (.logSlotLoad v) s = .next s) ∧
       (gated s Reg.NVS_LOG_CUR = false → Completes (.logSlotLoad v) s [.regs] L (fun t => shows (bits v.toNat 14 0) t ∧
         fld t Reg.NVS_LOG_CUR 14 0 = bits v.toNat 14 0 ∧ bit t Reg.NVS_LOG_CUR 31 = v.toNat.testBit 31))) ∧
     (∀ be : BitVec 4,
       let n := fld s Reg.NVS_LOG_CUR 14 0
       let goes : Prop := be = 15 ∧ bit s Reg.NVS_LOG_CUR 31 = true ∧ n < 32767
       (gated s (Reg.NVS_LOG_RD 15) = true → exec (.logAutoAdvance be) s = .next { s with hostData := 0 }) ∧
       (gated s (Reg.NVS_LOG_RD 15) = false → Completes (.logAutoAdvance be) s [.hostData, .regs] L (fun t =>
         t.hostData.toNat = rd s (Reg.NVS_LOG_RD 15) ∧ (goes → shows (n + 1) t ∧ fld t Reg.NVS_LOG_CUR 14 0 = n + 1) ∧ (¬goes → t.regs = s.regs))))) ∧
    (∀ (v : Word) (c : Instr) (op : Nat), (c, op) ∈ [(Instr.norRead v, 1), (.norProgram v, 2), (.norErase v, 3), (.norVerify v, 4)] →
      let d := bits v.toNat 8 8
      let addr := rd s Reg.NVS_NOR_ADDR
      let len := min (rd s Reg.NVS_NOR_LEN) 0x1000000
      let guarded : Prop := (op = 2 ∨ op = 3) ∧ norProtected s d (norSpan addr len).1 (norSpan addr len).2 = true
      (gated s Reg.NVS_NOR_OP = true → exec c s = .next s) ∧
      (gated s Reg.NVS_NOR_OP = false → (norOf s d).run ≠ none → Completes c s [.regs] [Reg.NVS_NOR_OP] (fun t => bit t Reg.NVS_NOR_OP 31 = bit s Reg.NVS_NOR_OP 31)) ∧
      (gated s Reg.NVS_NOR_OP = false → (norOf s d).run = none → guarded → Completes c s [.regs] [Reg.NVS_NOR_OP] (fun t => fld t Reg.NVS_NOR_OP 30 28 = 2)) ∧
      (gated s Reg.NVS_NOR_OP = false → (norOf s d).run = none → ¬guarded → Completes c s [.regs, .nvs] [Reg.NVS_NOR_OP] (fun t =>
        bit t Reg.NVS_NOR_OP 31 = true ∧ fld t Reg.NVS_NOR_OP 30 28 = 0 ∧
        t.nvs = (setNor s d { norOf s d with run := some (op, addr, len, rd s Reg.NVS_NOR_BUF_LO + rd s Reg.NVS_NOR_BUF_HI * 2 ^ 32, s.cycle) }).nvs))) ∧
    (∀ d : Fin 2, (norOf s d.val).run = none → (∀ ok, exec (.norOpComplete d ok) s = .next s) ∧ exec (.norOpTimeout d) s = .next s) ∧
    (∀ (d : Fin 2) (op addr len buf c : Nat), (norOf s d.val).run = some (op, addr, len, buf, c) → op ∈ [1, 2, 3, 4] →
      let m := (norOf s d.val).mem
      let byte (x : Nat) : Nat := (Tab.get norDef m x).toNat
      let src (i : Nat) : Nat := (Tab.get Memory.zero s.hist (buf + i)).toNat
      let other (t : State) : Prop := norOf t (1 - d.val) = norOf s (1 - d.val) ∧ t.nvs.store = s.nvs.store
      let ends (t : State) (st : Nat) : Prop := fld t Reg.NVS_NOR_OP 30 28 = st ∧ bit t Reg.NVS_NOR_OP 31 = (norOf s (1 - d.val)).run.isSome ∧
        (norOf t d.val).run = none ∧ other t
      let fails (t : State) : Prop := ends t 1 ∧ bit t Reg.SYS_HEALTH Health.norErr = true
      let F := itemRegs ++ [Reg.SYS_HEALTH, Reg.NVS_NOR_OP]
      let good : Prop := op = 1 ∨ op = 3 ∨ (op = 2 ∧ ∀ i, i < len → byte (addr + i) &&& src i = src i) ∨ (op = 4 ∧ ∀ i, i < len → byte (addr + i) = src i)
      (good → Completes (.norOpComplete d true) s [.regs, .hist, .nvs] [Reg.NVS_NOR_OP] (fun t => ends t 0 ∧
        (op = 1 → (norOf t d.val).mem = m ∧ ∀ x, (Tab.get Memory.zero t.hist x).toNat = if buf ≤ x ∧ x < buf + len then byte (addr + (x - buf))
          else (Tab.get Memory.zero s.hist x).toNat) ∧
        (op ≠ 1 → t.hist = s.hist) ∧
        (op = 2 → ∀ x, (Tab.get norDef (norOf t d.val).mem x).toNat = if addr ≤ x ∧ x < addr + len then src (x - addr) else byte x) ∧
        (op = 3 → ∀ x, (Tab.get norDef (norOf t d.val).mem x).toNat =
          if addr / 65536 ≤ x / 65536 ∧ x / 65536 ≤ (addr + max 1 len - 1) / 65536 then 255 else byte x) ∧
        (op = 4 → (norOf t d.val).mem = m))) ∧
      (¬good → Completes (.norOpComplete d true) s itemParts F fails) ∧
      Completes (.norOpComplete d false) s (itemParts ++ [.freeCtr]) F (fun t => fails t ∧
        (op = 1 ∨ op = 4 → (norOf t d.val).mem = m) ∧
        (op = 2 → ∀ x, x < addr ∨ addr + len ≤ x → Tab.get norDef (norOf t d.val).mem x = Tab.get norDef m x)) ∧
      Completes (.norOpTimeout d) s (itemParts ++ [.cycle, .now, .freeCtr]) F (fun t => fails t ∧
        t.cycle = max s.cycle (c + rd s Reg.NVS_NOR_TMO * 500000) ∧ (op = 1 ∨ op = 4 → (norOf t d.val).mem = m)))

/-- For every state. The domain at the head of the governor's queue is a queued one: a queued power-down goes before every queued power-up, and within a kind a higher PRIO, then a lower number. GOV_RAMP_START changes nothing while a ramp is under way, with nothing queued, or in LAST-GASP; else it is at the earliest 20 cycles after its domain reached the head, the domain is in RAMP_UP or RAMP_DOWN, and the ramp will last COST / SLEW. GOV_RAMP_END with no ramp changes nothing; else it is at the earliest the ramp's end, counts in RAMPS and in the domain's own counter, and the domain is in SETTLE, its end 1,000 cycles on, or OFF. GOV_SETTLE_END of a domain that does not settle changes nothing; else the domain is ON. After each, outside LAST-GASP, every domain is judged: one that is OFF and wanted is queued up, one that is ON and not wanted is queued down, a queued one whose request was withdrawn goes back, and QUEUE counts the queued ones; wanted is REQ or what its block holds (the holding blocks as the model reads R528, log 12). While TRST_N is low no JTAG instruction loads. Else BYPASS, CLAMP and HIGHZ capture 0, IDCODE the identification 0x181924EF, SAMPLE a value that nothing constrains, the boundary taking the preloaded one; EXTEST captures such a value in DIAGNOSTIC and HALT and else acts as BYPASS. TRST_N low selects IDCODE. -/
def Obligations.GovernorAndJtag : Prop :=
  ∀ (s : State),
    let want (t : State) (e : Nat) : Prop := mode s ≠ Mode.halt ∧ (bitOf (getN s Win.PWR_DOM e 0) 31 = true ∨ hwReq t e = true)
    let queued (t : State) (e : Nat) : Prop := domState t e = 1 ∨ domState t e = 5
    let prio (e : Nat) : Nat := bits (getN s Win.PWR_DOM e 0) 26 25
    let judged (t : State) (e was : Nat) : Prop := if mode s = Mode.lastGasp then domState t e = was else
      (want t e → domState t e = if was = 0 then 1 else if was = 5 then 4 else was) ∧
      (¬want t e → domState t e = if was = 1 then 0 else if was = 4 then 5 else was)
    let others (t : State) (d : Nat) : Prop := (∀ e, e < 40 → e ≠ d → judged t e (domState s e)) ∧
      (mode s ≠ Mode.lastGasp → fld t Reg.PWR_STATUS 5 0 = ((List.range 40).filter (fun e => domState t e == 1 || domState t e == 5)).length) ∧
      (d ≠ 27 → d ≠ 28 → t.msh = s.msh) ∧ ∀ w, w ≠ Win.PWR_DOM → ∀ i j, i < 2 ^ 18 → j < 8 → w < 2 ^ 32 → getN t w i j = getN s w i j
    let B := [Comp.cycle, .now, .regs, .ntab, .msh, .pwr]
    (∀ d, govHead s = some d → d < 40 ∧ queued s d ∧ ∀ e, e < 40 → queued s e → e ≠ d →
      (domState s e = 5 → domState s d = 5) ∧
      (domState s e = domState s d → prio e < prio d ∨ (prio e = prio d ∧ d < e))) ∧
    (govHead s = none → ∀ e, e < 40 → ¬queued s e) ∧
    (s.pwr.ramp ≠ none ∨ govHead s = none ∨ mode s = Mode.lastGasp → exec .govRampStart s = .next s) ∧
    (∀ d, s.pwr.ramp = none → govHead s = some d → mode s ≠ Mode.lastGasp → Completes .govRampStart s B [Reg.PWR_STATUS] (fun t =>
      t.cycle = max s.cycle (s.pwr.headAt + 20) ∧ domState t d = (if domState s d = 1 then 2 else 6) ∧ bit t Reg.PWR_STATUS 7 = true ∧
      (∃ n, t.pwr.ramp = some (d, t.cycle + n) ∧
        let slew := max 5 (min 40 (fld s Reg.PWR_GOV_CFG 5 0))
        let cost := bits (getN s Win.PWR_DOM d 0) 15 0 * 10
        cost ≤ n * slew ∧ n * slew < cost + slew) ∧ others t d)) ∧
    (s.pwr.ramp = none → exec .govRampEnd s = .next s) ∧
    (∀ d c, s.pwr.ramp = some (d, c) → d < 40 → Completes .govRampEnd s B [Reg.PWR_STATUS, Reg.PWR_RAMPS] (fun t =>
      t.cycle = max s.cycle c ∧ t.pwr.ramp = none ∧ bit t Reg.PWR_STATUS 7 = false ∧ rd t Reg.PWR_RAMPS = min (rd s Reg.PWR_RAMPS + 1) (2 ^ 32 - 1) ∧
      getN t Win.PWR_DOM d 1 = (getN s Win.PWR_DOM d 1 + 1) % 2 ^ 32 ∧
      (domState s d = 2 → domState t d = 3 ∧ Tab.get (fun _ => 0) t.pwr.settle d = t.cycle + 1000) ∧
      (domState s d ≠ 2 → judged t d 0) ∧ others t d)) ∧
    (∀ d : Fin 40, domState s d.val ≠ 3 → exec (.govSettleEnd d) s = .next s) ∧
    (∀ d : Fin 40, domState s d.val = 3 → Completes (.govSettleEnd d) s B [Reg.PWR_STATUS] (fun t =>
      t.cycle = max s.cycle (Tab.get (fun _ => 0) s.pwr.settle d.val) ∧ judged t d.val 4 ∧ t.pwr.ramp = s.pwr.ramp ∧ others t d.val)) ∧
    (∀ b, s.pins.trstLow = true → ∀ c ∈ [Instr.jtagBypass, .jtagIdcode, .jtagSamplePreload b, .jtagExtest, .jtagClamp, .jtagHighz], exec c s = .next s) ∧
    (s.pins.trstLow = false →
      let shows (c : Instr) (ir dr : Nat) : Prop := exec c s = .next { s with jtag := { s.jtag with ir := ir, dr := dr } }
      let samples (c : Instr) (ir b : Nat) : Prop := Completes c s [.freeCtr, .jtag] [] (fun t => t.jtag.ir = ir ∧ t.jtag.boundary = b ∧
        t.freeCtr = s.freeCtr + 1)
      shows .jtagBypass 1 0 ∧ shows .jtagIdcode 2 0x181924EF ∧ shows .jtagClamp 5 0 ∧ shows .jtagHighz 6 0 ∧
      (∀ b, samples (.jtagSamplePreload b) 3 b) ∧
      (mode s = Mode.diagnostic ∨ mode s = Mode.halt → samples .jtagExtest 4 s.jtag.boundary) ∧
      (mode s ≠ Mode.diagnostic → mode s ≠ Mode.halt → shows .jtagExtest 4 0)) ∧
    exec (.jtagTrst true) s = .next { s with pins := { s.pins with trstLow := true }, jtag := { s.jtag with ir := 0, dr := 0x181924EF } } ∧
    exec (.jtagTrst false) s = .next { s with pins := { s.pins with trstLow := false } }

/-- For every command c and state s, the step of s with c at the front of its queue is exec of c on s with the queue's rest. On an empty queue the step answers a next state in which one fabric cycle has passed: the cycle counter counts one, device time gains the addend in use at the cycle's start, and nothing else changes where no management core runs; where one runs, the firmware's receive queue is emptied, and each port's transmit queue is as it was or, on one port, one Sync, Pdelay_Req or Announce of firmware's own longer, a Sync or an Announce never on the time receiver's port and none within 2^-4 s of the last of its kind there. That a step with no command waiting lets one cycle pass, and when firmware sends, are the model's choices (log 1, 132). -/
def Obligations.StepTakesTheFrontCommand : Prop :=
  (∀ (c : Instr) (cs : List Instr) (s : State), s.pending = c :: cs → step s = exec c { s with pending := cs }) ∧
  (∀ s : State, s.pending = [] → ∃ t, step s = .next t ∧ t.cycle = s.cycle + 1 ∧ t.now = s.now + s.cyc.addend.getD s.time.addend ∧
    ((∀ c, c < 4 → coreRuns s c = false) → ChangesOnly [.cycle, .now] s t) ∧
    ((∃ c, c < 4 ∧ coreRuns s c = true) → ChangesOnly [.cycle, .now, .freeCtr, .ing, .out, .time] s t ∧ t.ing = { s.ing with fwq := [] } ∧
      t.time = { s.time with ptpSent := t.time.ptpSent } ∧ t.out = { s.out with tx := t.out.tx } ∧
      (t.out = s.out ∧ t.time = s.time ∨ ∃ p ty n, p < 4 ∧ (ty = 0 ∨ ty = 2 ∨ ty = 11) ∧ (ty ≠ 2 → s.time.ptpPort ≠ some p) ∧
        (∀ x, Tab.has s.time.ptpSent (16 * p + ty) = true → (Tab.get (fun _ => x) s.time.ptpSent (16 * p + ty)).1 + 31250000 ≤ t.cycle) ∧
        t.out.tx = s.out.tx.set p (s.out.tx.getD p [] ++ [ptpFrame ty n]) ∧ txEn s p = true)))

/-- A command that ends in a next state leaves the queue of waiting commands as it was. If the invariant holds of a state, it holds of every next state of every command and of every step: each sparse store of registers, tables and memory is in canonical form (addresses strictly rising, no entry equal to what an unlisted address reads as), the part has its 4 chutes, 16 rings, 32 lanes, 4 management cores, 2 chucks and 32 blank places, and no chute has taken more than its 32 words. A step removes the front of the queue and nothing else of it. -/
def Obligations.InvariantKept : Prop :=
  (∀ (c : Instr) (s t : State), exec c s = .next t → t.pending = s.pending) ∧
  (∀ (c : Instr) (s t : State), Invariant s → exec c s = .next t → Invariant t) ∧
  (∀ s t : State, Invariant s → step s = .next t → Invariant t) ∧
  (∀ s t : State, step s = .next t → t.pending = s.pending.tail)

/-- The state after reset satisfies the invariant and no command waits. The mode is BOOT with cause 1. SYS_ID, SYS_STEP, SYS_MODE, TIME_ADDEND_HI, ALN_RATE, ALN_WAIT, ALN_AMEND_MAX, SPC_CTRL, SPC_DEADLINE, SPC_GAIN, SSK_CHUCK_SEL, SSK_LOAD_CFG, DET_ISL_N, DET_GS_TIMING, OUT_TBASE, CMP_CTRL, AFE_CTRL, NRG_CTRL, TWN_CFG, TWN_CFG2, TWN_BCN_CFG, NVS_STATUS and PWR_GOV_CFG hold the reset values that the register descriptions give. The Drill Log is in SCAN. Every power domain is OFF, every ring is off, every chute is empty, no blank is open, every key slot is EMPTY, no lane has a work item, and the transmit queues are empty. -/
def Obligations.ResetState : Prop :=
  let s := State.reset
  Invariant s ∧ s.pending = [] ∧ mode s = Mode.boot ∧ fld s Reg.SYS_MODE 15 8 = 1 ∧ logState s = 3 ∧
  (∀ p ∈ ([(0x0, 0x7A192001), (0x4, 1), (0x8, 0x100), (0x20024, 0x20000), (0x60004, 6), (0x60008, 0x61A80), (0x60010, 15), (0x70000, 0x3C00), (0x70004, 0xEA60), (0x7000C, 0x400), (0x80004, 2), (0x8001C, 0x132), (0xA020C, 3), (0xA0404, 0x03E80002), (0xB0004, 0xF4240), (0x140000, 3), (0xD0000, 10), (0xE0000, 0x38400400), (0x110008, 0x0305003C), (0x11000C, 0x32), (0x110020, 0x03000000), (0x130000, 0xC000), (0x10004, 0x28)] : List (Nat × Nat)), rd s p.1 = p.2) ∧
  (∀ d, d < 40 → domState s d = 0) ∧ (∀ r, r < 16 → ringRuns s r = false ∧ (ringOf s r).waiting = []) ∧
  (∀ c ∈ s.chutes, c.items = [] ∧ c.taken = 0) ∧ (∀ k, blankOf s k = none) ∧ (∀ n, slotOf s n = KeySlot.empty) ∧
  (∀ l, l < 32 → (laneOf s l).item = none) ∧ (∀ p, p < 4 → s.out.tx.getD p [] = [])
end

