-- ==== Sys2Proof/Laws/State.lean ====
section
/-! SUPPORT. What each named update of the state leaves as it was: every field but those that it writes. Each is true by unfolding the update. -/

namespace Sys2Proof.Machine

@[simp] theorem wr_keeps (s : State) (off v : Nat) :
    (wr s off v).pending = s.pending ∧ (wr s off v).cycle = s.cycle ∧ (wr s off v).now = s.now ∧ (wr s off v).rtcBase = s.rtcBase ∧
    (wr s off v).freeCtr = s.freeCtr ∧ (wr s off v).hostData = s.hostData ∧ (wr s off v).shadow = s.shadow ∧
    (wr s off v).winOps = s.winOps ∧ (wr s off v).cfg = s.cfg ∧ (wr s off v).cfgPend = s.cfgPend ∧ (wr s off v).cfgRet = s.cfgRet ∧
    (wr s off v).ntab = s.ntab ∧ (wr s off v).rseq = s.rseq ∧ (wr s off v).hist = s.hist ∧ (wr s off v).histPart = s.histPart ∧
    (wr s off v).eccCorr = s.eccCorr ∧ (wr s off v).sys = s.sys ∧ (wr s off v).time = s.time ∧ (wr s off v).chutes = s.chutes ∧
    (wr s off v).dma = s.dma ∧ (wr s off v).cmp = s.cmp ∧ (wr s off v).nvs = s.nvs ∧ (wr s off v).cap = s.cap ∧ (wr s off v).ing = s.ing ∧
    (wr s off v).aln = s.aln ∧ (wr s off v).spc = s.spc ∧ (wr s off v).ssk = s.ssk ∧ (wr s off v).pins = s.pins ∧
    (wr s off v).key = s.key ∧ (wr s off v).out = s.out ∧ (wr s off v).det = s.det ∧ (wr s off v).afe = s.afe ∧ (wr s off v).nrg = s.nrg ∧
    (wr s off v).msh = s.msh ∧ (wr s off v).twn = s.twn ∧ (wr s off v).pwr = s.pwr ∧ (wr s off v).jtag = s.jtag ∧ (wr s off v).fw = s.fw ∧
    (wr s off v).cyc = s.cyc := by
  unfold wr
  and_intros <;> rfl

@[simp] theorem setF_keeps (s : State) (off hi lo v : Nat) :
    (setF s off hi lo v).pending = s.pending ∧ (setF s off hi lo v).cycle = s.cycle ∧ (setF s off hi lo v).now = s.now ∧
    (setF s off hi lo v).rtcBase = s.rtcBase ∧ (setF s off hi lo v).freeCtr = s.freeCtr ∧ (setF s off hi lo v).hostData = s.hostData ∧
    (setF s off hi lo v).shadow = s.shadow ∧ (setF s off hi lo v).winOps = s.winOps ∧ (setF s off hi lo v).cfg = s.cfg ∧
    (setF s off hi lo v).cfgPend = s.cfgPend ∧ (setF s off hi lo v).cfgRet = s.cfgRet ∧ (setF s off hi lo v).ntab = s.ntab ∧
    (setF s off hi lo v).rseq = s.rseq ∧ (setF s off hi lo v).hist = s.hist ∧ (setF s off hi lo v).histPart = s.histPart ∧
    (setF s off hi lo v).eccCorr = s.eccCorr ∧ (setF s off hi lo v).sys = s.sys ∧ (setF s off hi lo v).time = s.time ∧
    (setF s off hi lo v).chutes = s.chutes ∧ (setF s off hi lo v).dma = s.dma ∧ (setF s off hi lo v).cmp = s.cmp ∧
    (setF s off hi lo v).nvs = s.nvs ∧ (setF s off hi lo v).cap = s.cap ∧ (setF s off hi lo v).ing = s.ing ∧
    (setF s off hi lo v).aln = s.aln ∧ (setF s off hi lo v).spc = s.spc ∧ (setF s off hi lo v).ssk = s.ssk ∧
    (setF s off hi lo v).pins = s.pins ∧ (setF s off hi lo v).key = s.key ∧ (setF s off hi lo v).out = s.out ∧
    (setF s off hi lo v).det = s.det ∧ (setF s off hi lo v).afe = s.afe ∧ (setF s off hi lo v).nrg = s.nrg ∧
    (setF s off hi lo v).msh = s.msh ∧ (setF s off hi lo v).twn = s.twn ∧ (setF s off hi lo v).pwr = s.pwr ∧
    (setF s off hi lo v).jtag = s.jtag ∧ (setF s off hi lo v).fw = s.fw ∧
    (setF s off hi lo v).cyc = s.cyc := by
  unfold setF wr
  and_intros <;> rfl

@[simp] theorem noteReg_keeps (s : State) (off v n : Nat) :
    (noteReg s off v n).pending = s.pending ∧ (noteReg s off v n).cycle = s.cycle ∧ (noteReg s off v n).now = s.now ∧
    (noteReg s off v n).rtcBase = s.rtcBase ∧ (noteReg s off v n).freeCtr = s.freeCtr ∧ (noteReg s off v n).hostData = s.hostData ∧
    (noteReg s off v n).regs = s.regs ∧ (noteReg s off v n).shadow = s.shadow ∧ (noteReg s off v n).winOps = s.winOps ∧
    (noteReg s off v n).cfg = s.cfg ∧ (noteReg s off v n).cfgPend = s.cfgPend ∧ (noteReg s off v n).cfgRet = s.cfgRet ∧
    (noteReg s off v n).ntab = s.ntab ∧ (noteReg s off v n).rseq = s.rseq ∧ (noteReg s off v n).hist = s.hist ∧
    (noteReg s off v n).histPart = s.histPart ∧ (noteReg s off v n).eccCorr = s.eccCorr ∧ (noteReg s off v n).sys = s.sys ∧
    (noteReg s off v n).time = s.time ∧ (noteReg s off v n).chutes = s.chutes ∧ (noteReg s off v n).dma = s.dma ∧ (noteReg s off v n).cmp = s.cmp ∧
    (noteReg s off v n).nvs = s.nvs ∧ (noteReg s off v n).cap = s.cap ∧ (noteReg s off v n).ing = s.ing ∧ (noteReg s off v n).aln = s.aln ∧
    (noteReg s off v n).spc = s.spc ∧ (noteReg s off v n).ssk = s.ssk ∧ (noteReg s off v n).pins = s.pins ∧ (noteReg s off v n).key = s.key ∧
    (noteReg s off v n).out = s.out ∧ (noteReg s off v n).det = s.det ∧ (noteReg s off v n).afe = s.afe ∧ (noteReg s off v n).nrg = s.nrg ∧
    (noteReg s off v n).msh = s.msh ∧ (noteReg s off v n).twn = s.twn ∧ (noteReg s off v n).pwr = s.pwr ∧ (noteReg s off v n).jtag = s.jtag ∧
    (noteReg s off v n).fw = s.fw := by
  unfold noteReg
  and_intros <;> rfl

@[simp] theorem noteSlot_keeps (s : State) (i : Nat) :
    (noteSlot s i).pending = s.pending ∧ (noteSlot s i).cycle = s.cycle ∧ (noteSlot s i).now = s.now ∧ (noteSlot s i).rtcBase = s.rtcBase ∧
    (noteSlot s i).freeCtr = s.freeCtr ∧ (noteSlot s i).hostData = s.hostData ∧ (noteSlot s i).regs = s.regs ∧ (noteSlot s i).shadow = s.shadow ∧
    (noteSlot s i).winOps = s.winOps ∧ (noteSlot s i).cfg = s.cfg ∧ (noteSlot s i).cfgPend = s.cfgPend ∧ (noteSlot s i).cfgRet = s.cfgRet ∧
    (noteSlot s i).ntab = s.ntab ∧ (noteSlot s i).rseq = s.rseq ∧ (noteSlot s i).hist = s.hist ∧ (noteSlot s i).histPart = s.histPart ∧
    (noteSlot s i).eccCorr = s.eccCorr ∧ (noteSlot s i).sys = s.sys ∧ (noteSlot s i).time = s.time ∧ (noteSlot s i).chutes = s.chutes ∧
    (noteSlot s i).dma = s.dma ∧ (noteSlot s i).cmp = s.cmp ∧ (noteSlot s i).nvs = s.nvs ∧ (noteSlot s i).cap = s.cap ∧ (noteSlot s i).ing = s.ing ∧
    (noteSlot s i).aln = s.aln ∧ (noteSlot s i).spc = s.spc ∧ (noteSlot s i).ssk = s.ssk ∧ (noteSlot s i).pins = s.pins ∧
    (noteSlot s i).key = s.key ∧ (noteSlot s i).out = s.out ∧ (noteSlot s i).det = s.det ∧ (noteSlot s i).afe = s.afe ∧ (noteSlot s i).nrg = s.nrg ∧
    (noteSlot s i).msh = s.msh ∧ (noteSlot s i).twn = s.twn ∧ (noteSlot s i).pwr = s.pwr ∧ (noteSlot s i).jtag = s.jtag ∧
    (noteSlot s i).fw = s.fw := by
  unfold noteSlot
  split <;> (and_intros <;> rfl)

@[simp] theorem noteAccs_keeps (s : State) :
    (noteAccs s).pending = s.pending ∧ (noteAccs s).cycle = s.cycle ∧ (noteAccs s).now = s.now ∧ (noteAccs s).rtcBase = s.rtcBase ∧
    (noteAccs s).freeCtr = s.freeCtr ∧ (noteAccs s).hostData = s.hostData ∧ (noteAccs s).regs = s.regs ∧ (noteAccs s).shadow = s.shadow ∧
    (noteAccs s).winOps = s.winOps ∧ (noteAccs s).cfg = s.cfg ∧ (noteAccs s).cfgPend = s.cfgPend ∧ (noteAccs s).cfgRet = s.cfgRet ∧
    (noteAccs s).ntab = s.ntab ∧ (noteAccs s).rseq = s.rseq ∧ (noteAccs s).hist = s.hist ∧ (noteAccs s).histPart = s.histPart ∧
    (noteAccs s).eccCorr = s.eccCorr ∧ (noteAccs s).sys = s.sys ∧ (noteAccs s).time = s.time ∧ (noteAccs s).chutes = s.chutes ∧
    (noteAccs s).dma = s.dma ∧ (noteAccs s).cmp = s.cmp ∧ (noteAccs s).nvs = s.nvs ∧ (noteAccs s).cap = s.cap ∧ (noteAccs s).ing = s.ing ∧
    (noteAccs s).aln = s.aln ∧ (noteAccs s).spc = s.spc ∧ (noteAccs s).ssk = s.ssk ∧ (noteAccs s).pins = s.pins ∧ (noteAccs s).key = s.key ∧
    (noteAccs s).out = s.out ∧ (noteAccs s).det = s.det ∧ (noteAccs s).afe = s.afe ∧ (noteAccs s).nrg = s.nrg ∧ (noteAccs s).msh = s.msh ∧
    (noteAccs s).twn = s.twn ∧ (noteAccs s).pwr = s.pwr ∧ (noteAccs s).jtag = s.jtag ∧ (noteAccs s).fw = s.fw := by
  unfold noteAccs
  and_intros <;> rfl

@[simp] theorem setB_keeps (s : State) (off b : Nat) (v : Bool) :
    (setB s off b v).pending = s.pending ∧ (setB s off b v).cycle = s.cycle ∧ (setB s off b v).now = s.now ∧
    (setB s off b v).rtcBase = s.rtcBase ∧ (setB s off b v).freeCtr = s.freeCtr ∧ (setB s off b v).hostData = s.hostData ∧
    (setB s off b v).shadow = s.shadow ∧ (setB s off b v).winOps = s.winOps ∧ (setB s off b v).cfg = s.cfg ∧
    (setB s off b v).cfgPend = s.cfgPend ∧ (setB s off b v).cfgRet = s.cfgRet ∧ (setB s off b v).ntab = s.ntab ∧
    (setB s off b v).rseq = s.rseq ∧ (setB s off b v).hist = s.hist ∧ (setB s off b v).histPart = s.histPart ∧
    (setB s off b v).eccCorr = s.eccCorr ∧ (setB s off b v).sys = s.sys ∧ (setB s off b v).time = s.time ∧
    (setB s off b v).chutes = s.chutes ∧ (setB s off b v).dma = s.dma ∧ (setB s off b v).cmp = s.cmp ∧ (setB s off b v).nvs = s.nvs ∧
    (setB s off b v).cap = s.cap ∧ (setB s off b v).ing = s.ing ∧ (setB s off b v).aln = s.aln ∧ (setB s off b v).spc = s.spc ∧
    (setB s off b v).ssk = s.ssk ∧ (setB s off b v).pins = s.pins ∧ (setB s off b v).key = s.key ∧ (setB s off b v).out = s.out ∧
    (setB s off b v).det = s.det ∧ (setB s off b v).afe = s.afe ∧ (setB s off b v).nrg = s.nrg ∧ (setB s off b v).msh = s.msh ∧
    (setB s off b v).twn = s.twn ∧ (setB s off b v).pwr = s.pwr ∧ (setB s off b v).jtag = s.jtag ∧ (setB s off b v).fw = s.fw := by
  unfold setB setF wr noteReg
  cases v <;> (and_intros <;> rfl)

@[simp] theorem addC_keeps (s : State) (off n : Nat) :
    (addC s off n).pending = s.pending ∧ (addC s off n).cycle = s.cycle ∧ (addC s off n).now = s.now ∧ (addC s off n).rtcBase = s.rtcBase ∧
    (addC s off n).freeCtr = s.freeCtr ∧ (addC s off n).hostData = s.hostData ∧ (addC s off n).shadow = s.shadow ∧
    (addC s off n).winOps = s.winOps ∧ (addC s off n).cfg = s.cfg ∧ (addC s off n).cfgPend = s.cfgPend ∧ (addC s off n).cfgRet = s.cfgRet ∧
    (addC s off n).ntab = s.ntab ∧ (addC s off n).rseq = s.rseq ∧ (addC s off n).hist = s.hist ∧ (addC s off n).histPart = s.histPart ∧
    (addC s off n).eccCorr = s.eccCorr ∧ (addC s off n).sys = s.sys ∧ (addC s off n).time = s.time ∧ (addC s off n).chutes = s.chutes ∧
    (addC s off n).dma = s.dma ∧ (addC s off n).cmp = s.cmp ∧ (addC s off n).nvs = s.nvs ∧ (addC s off n).cap = s.cap ∧
    (addC s off n).ing = s.ing ∧ (addC s off n).aln = s.aln ∧ (addC s off n).spc = s.spc ∧ (addC s off n).ssk = s.ssk ∧
    (addC s off n).pins = s.pins ∧ (addC s off n).key = s.key ∧ (addC s off n).out = s.out ∧ (addC s off n).det = s.det ∧
    (addC s off n).afe = s.afe ∧ (addC s off n).nrg = s.nrg ∧ (addC s off n).msh = s.msh ∧ (addC s off n).twn = s.twn ∧
    (addC s off n).pwr = s.pwr ∧ (addC s off n).jtag = s.jtag ∧ (addC s off n).fw = s.fw := by
  unfold addC wr
  and_intros <;> rfl

@[simp] theorem inc_keeps (s : State) (off : Nat) :
    (inc s off).pending = s.pending ∧ (inc s off).cycle = s.cycle ∧ (inc s off).now = s.now ∧ (inc s off).rtcBase = s.rtcBase ∧
    (inc s off).freeCtr = s.freeCtr ∧ (inc s off).hostData = s.hostData ∧ (inc s off).shadow = s.shadow ∧ (inc s off).winOps = s.winOps ∧
    (inc s off).cfg = s.cfg ∧ (inc s off).cfgPend = s.cfgPend ∧ (inc s off).cfgRet = s.cfgRet ∧ (inc s off).ntab = s.ntab ∧
    (inc s off).rseq = s.rseq ∧ (inc s off).hist = s.hist ∧ (inc s off).histPart = s.histPart ∧ (inc s off).eccCorr = s.eccCorr ∧
    (inc s off).sys = s.sys ∧ (inc s off).time = s.time ∧ (inc s off).chutes = s.chutes ∧ (inc s off).dma = s.dma ∧
    (inc s off).cmp = s.cmp ∧ (inc s off).nvs = s.nvs ∧ (inc s off).cap = s.cap ∧ (inc s off).ing = s.ing ∧ (inc s off).aln = s.aln ∧
    (inc s off).spc = s.spc ∧ (inc s off).ssk = s.ssk ∧ (inc s off).pins = s.pins ∧ (inc s off).key = s.key ∧ (inc s off).out = s.out ∧
    (inc s off).det = s.det ∧ (inc s off).afe = s.afe ∧ (inc s off).nrg = s.nrg ∧ (inc s off).msh = s.msh ∧ (inc s off).twn = s.twn ∧
    (inc s off).pwr = s.pwr ∧ (inc s off).jtag = s.jtag ∧ (inc s off).fw = s.fw := by
  unfold inc addC wr
  and_intros <;> rfl

@[simp] theorem addW_keeps (s : State) (off n : Nat) :
    (addW s off n).pending = s.pending ∧ (addW s off n).cycle = s.cycle ∧ (addW s off n).now = s.now ∧ (addW s off n).rtcBase = s.rtcBase ∧
    (addW s off n).freeCtr = s.freeCtr ∧ (addW s off n).hostData = s.hostData ∧ (addW s off n).shadow = s.shadow ∧
    (addW s off n).winOps = s.winOps ∧ (addW s off n).cfg = s.cfg ∧ (addW s off n).cfgPend = s.cfgPend ∧ (addW s off n).cfgRet = s.cfgRet ∧
    (addW s off n).ntab = s.ntab ∧ (addW s off n).rseq = s.rseq ∧ (addW s off n).hist = s.hist ∧ (addW s off n).histPart = s.histPart ∧
    (addW s off n).eccCorr = s.eccCorr ∧ (addW s off n).sys = s.sys ∧ (addW s off n).time = s.time ∧ (addW s off n).chutes = s.chutes ∧
    (addW s off n).dma = s.dma ∧ (addW s off n).cmp = s.cmp ∧ (addW s off n).nvs = s.nvs ∧ (addW s off n).cap = s.cap ∧
    (addW s off n).ing = s.ing ∧ (addW s off n).aln = s.aln ∧ (addW s off n).spc = s.spc ∧ (addW s off n).ssk = s.ssk ∧
    (addW s off n).pins = s.pins ∧ (addW s off n).key = s.key ∧ (addW s off n).out = s.out ∧ (addW s off n).det = s.det ∧
    (addW s off n).afe = s.afe ∧ (addW s off n).nrg = s.nrg ∧ (addW s off n).msh = s.msh ∧ (addW s off n).twn = s.twn ∧
    (addW s off n).pwr = s.pwr ∧ (addW s off n).jtag = s.jtag ∧ (addW s off n).fw = s.fw ∧
    (addW s off n).cyc = s.cyc := by
  unfold addW wr
  and_intros <;> rfl

@[simp] theorem putN_keeps (s : State) (w i j v : Nat) :
    (putN s w i j v).pending = s.pending ∧ (putN s w i j v).cycle = s.cycle ∧ (putN s w i j v).now = s.now ∧
    (putN s w i j v).rtcBase = s.rtcBase ∧ (putN s w i j v).freeCtr = s.freeCtr ∧ (putN s w i j v).hostData = s.hostData ∧
    (putN s w i j v).regs = s.regs ∧ (putN s w i j v).shadow = s.shadow ∧ (putN s w i j v).winOps = s.winOps ∧
    (putN s w i j v).cfg = s.cfg ∧ (putN s w i j v).cfgPend = s.cfgPend ∧ (putN s w i j v).cfgRet = s.cfgRet ∧
    (putN s w i j v).rseq = s.rseq ∧ (putN s w i j v).hist = s.hist ∧ (putN s w i j v).histPart = s.histPart ∧
    (putN s w i j v).eccCorr = s.eccCorr ∧ (putN s w i j v).sys = s.sys ∧ (putN s w i j v).time = s.time ∧
    (putN s w i j v).chutes = s.chutes ∧ (putN s w i j v).dma = s.dma ∧ (putN s w i j v).cmp = s.cmp ∧ (putN s w i j v).nvs = s.nvs ∧
    (putN s w i j v).cap = s.cap ∧ (putN s w i j v).ing = s.ing ∧ (putN s w i j v).aln = s.aln ∧ (putN s w i j v).spc = s.spc ∧
    (putN s w i j v).ssk = s.ssk ∧ (putN s w i j v).pins = s.pins ∧ (putN s w i j v).key = s.key ∧ (putN s w i j v).out = s.out ∧
    (putN s w i j v).det = s.det ∧ (putN s w i j v).afe = s.afe ∧ (putN s w i j v).nrg = s.nrg ∧ (putN s w i j v).msh = s.msh ∧
    (putN s w i j v).twn = s.twn ∧ (putN s w i j v).pwr = s.pwr ∧ (putN s w i j v).jtag = s.jtag ∧ (putN s w i j v).fw = s.fw ∧
    (putN s w i j v).cyc = s.cyc := by
  unfold putN
  and_intros <;> rfl

@[simp] theorem pass_keeps (s : State) (n : Nat) :
    (pass s n).pending = s.pending ∧ (pass s n).rtcBase = s.rtcBase ∧ (pass s n).freeCtr = s.freeCtr ∧ (pass s n).hostData = s.hostData ∧
    (pass s n).regs = s.regs ∧ (pass s n).shadow = s.shadow ∧ (pass s n).winOps = s.winOps ∧ (pass s n).cfg = s.cfg ∧
    (pass s n).cfgPend = s.cfgPend ∧ (pass s n).cfgRet = s.cfgRet ∧ (pass s n).ntab = s.ntab ∧ (pass s n).rseq = s.rseq ∧
    (pass s n).hist = s.hist ∧ (pass s n).histPart = s.histPart ∧ (pass s n).eccCorr = s.eccCorr ∧ (pass s n).sys = s.sys ∧
    (pass s n).time = s.time ∧ (pass s n).chutes = s.chutes ∧ (pass s n).dma = s.dma ∧ (pass s n).cmp = s.cmp ∧ (pass s n).nvs = s.nvs ∧
    (pass s n).cap = s.cap ∧ (pass s n).ing = s.ing ∧ (pass s n).aln = s.aln ∧ (pass s n).spc = s.spc ∧ (pass s n).ssk = s.ssk ∧
    (pass s n).pins = s.pins ∧ (pass s n).key = s.key ∧ (pass s n).out = s.out ∧ (pass s n).det = s.det ∧ (pass s n).afe = s.afe ∧
    (pass s n).nrg = s.nrg ∧ (pass s n).msh = s.msh ∧ (pass s n).twn = s.twn ∧ (pass s n).pwr = s.pwr ∧ (pass s n).jtag = s.jtag ∧
    (pass s n).fw = s.fw := by
  unfold pass
  split <;> (and_intros <;> rfl)

@[simp] theorem passTo_keeps (s : State) (t : Nat) :
    (passTo s t).pending = s.pending ∧ (passTo s t).rtcBase = s.rtcBase ∧ (passTo s t).freeCtr = s.freeCtr ∧
    (passTo s t).hostData = s.hostData ∧ (passTo s t).regs = s.regs ∧ (passTo s t).shadow = s.shadow ∧ (passTo s t).winOps = s.winOps ∧
    (passTo s t).cfg = s.cfg ∧ (passTo s t).cfgPend = s.cfgPend ∧ (passTo s t).cfgRet = s.cfgRet ∧ (passTo s t).ntab = s.ntab ∧
    (passTo s t).rseq = s.rseq ∧ (passTo s t).hist = s.hist ∧ (passTo s t).histPart = s.histPart ∧ (passTo s t).eccCorr = s.eccCorr ∧
    (passTo s t).sys = s.sys ∧ (passTo s t).time = s.time ∧ (passTo s t).chutes = s.chutes ∧ (passTo s t).dma = s.dma ∧
    (passTo s t).cmp = s.cmp ∧ (passTo s t).nvs = s.nvs ∧ (passTo s t).cap = s.cap ∧ (passTo s t).ing = s.ing ∧ (passTo s t).aln = s.aln ∧
    (passTo s t).spc = s.spc ∧ (passTo s t).ssk = s.ssk ∧ (passTo s t).pins = s.pins ∧ (passTo s t).key = s.key ∧
    (passTo s t).out = s.out ∧ (passTo s t).det = s.det ∧ (passTo s t).afe = s.afe ∧ (passTo s t).nrg = s.nrg ∧ (passTo s t).msh = s.msh ∧
    (passTo s t).twn = s.twn ∧ (passTo s t).pwr = s.pwr ∧ (passTo s t).jtag = s.jtag ∧ (passTo s t).fw = s.fw := by
  exact pass_keeps s _

@[simp] theorem passCyc_keeps (s : State) (c : Nat) :
    (passCyc s c).pending = s.pending ∧ (passCyc s c).rtcBase = s.rtcBase ∧ (passCyc s c).freeCtr = s.freeCtr ∧
    (passCyc s c).hostData = s.hostData ∧ (passCyc s c).regs = s.regs ∧ (passCyc s c).shadow = s.shadow ∧ (passCyc s c).winOps = s.winOps ∧
    (passCyc s c).cfg = s.cfg ∧ (passCyc s c).cfgPend = s.cfgPend ∧ (passCyc s c).cfgRet = s.cfgRet ∧ (passCyc s c).ntab = s.ntab ∧
    (passCyc s c).rseq = s.rseq ∧ (passCyc s c).hist = s.hist ∧ (passCyc s c).histPart = s.histPart ∧ (passCyc s c).eccCorr = s.eccCorr ∧
    (passCyc s c).sys = s.sys ∧ (passCyc s c).time = s.time ∧ (passCyc s c).chutes = s.chutes ∧ (passCyc s c).dma = s.dma ∧
    (passCyc s c).cmp = s.cmp ∧ (passCyc s c).nvs = s.nvs ∧ (passCyc s c).cap = s.cap ∧ (passCyc s c).ing = s.ing ∧
    (passCyc s c).aln = s.aln ∧ (passCyc s c).spc = s.spc ∧ (passCyc s c).ssk = s.ssk ∧ (passCyc s c).pins = s.pins ∧
    (passCyc s c).key = s.key ∧ (passCyc s c).out = s.out ∧ (passCyc s c).det = s.det ∧ (passCyc s c).afe = s.afe ∧
    (passCyc s c).nrg = s.nrg ∧ (passCyc s c).msh = s.msh ∧ (passCyc s c).twn = s.twn ∧ (passCyc s c).pwr = s.pwr ∧
    (passCyc s c).jtag = s.jtag ∧ (passCyc s c).fw = s.fw := by
  exact pass_keeps s _

@[simp] theorem fresh_keeps (s : State) (n : Nat) :
    (fresh s n).1.pending = s.pending ∧ (fresh s n).1.cycle = s.cycle ∧ (fresh s n).1.now = s.now ∧ (fresh s n).1.rtcBase = s.rtcBase ∧
    (fresh s n).1.hostData = s.hostData ∧ (fresh s n).1.regs = s.regs ∧ (fresh s n).1.shadow = s.shadow ∧ (fresh s n).1.winOps = s.winOps ∧
    (fresh s n).1.cfg = s.cfg ∧ (fresh s n).1.cfgPend = s.cfgPend ∧ (fresh s n).1.cfgRet = s.cfgRet ∧ (fresh s n).1.ntab = s.ntab ∧
    (fresh s n).1.rseq = s.rseq ∧ (fresh s n).1.hist = s.hist ∧ (fresh s n).1.histPart = s.histPart ∧ (fresh s n).1.eccCorr = s.eccCorr ∧
    (fresh s n).1.sys = s.sys ∧ (fresh s n).1.time = s.time ∧ (fresh s n).1.chutes = s.chutes ∧ (fresh s n).1.dma = s.dma ∧
    (fresh s n).1.cmp = s.cmp ∧ (fresh s n).1.nvs = s.nvs ∧ (fresh s n).1.cap = s.cap ∧ (fresh s n).1.ing = s.ing ∧
    (fresh s n).1.aln = s.aln ∧ (fresh s n).1.spc = s.spc ∧ (fresh s n).1.ssk = s.ssk ∧ (fresh s n).1.pins = s.pins ∧
    (fresh s n).1.key = s.key ∧ (fresh s n).1.out = s.out ∧ (fresh s n).1.det = s.det ∧ (fresh s n).1.afe = s.afe ∧
    (fresh s n).1.nrg = s.nrg ∧ (fresh s n).1.msh = s.msh ∧ (fresh s n).1.twn = s.twn ∧ (fresh s n).1.pwr = s.pwr ∧
    (fresh s n).1.jtag = s.jtag ∧ (fresh s n).1.fw = s.fw ∧
    (fresh s n).1.cyc = s.cyc := by
  unfold fresh
  and_intros <;> rfl

@[simp] theorem nextRseq_keeps (s : State) :
    (nextRseq s).1.pending = s.pending ∧ (nextRseq s).1.cycle = s.cycle ∧ (nextRseq s).1.now = s.now ∧ (nextRseq s).1.rtcBase = s.rtcBase ∧
    (nextRseq s).1.freeCtr = s.freeCtr ∧ (nextRseq s).1.hostData = s.hostData ∧ (nextRseq s).1.regs = s.regs ∧
    (nextRseq s).1.shadow = s.shadow ∧ (nextRseq s).1.winOps = s.winOps ∧ (nextRseq s).1.cfg = s.cfg ∧ (nextRseq s).1.cfgPend = s.cfgPend ∧
    (nextRseq s).1.cfgRet = s.cfgRet ∧ (nextRseq s).1.ntab = s.ntab ∧ (nextRseq s).1.hist = s.hist ∧ (nextRseq s).1.histPart = s.histPart ∧
    (nextRseq s).1.eccCorr = s.eccCorr ∧ (nextRseq s).1.sys = s.sys ∧ (nextRseq s).1.time = s.time ∧ (nextRseq s).1.chutes = s.chutes ∧
    (nextRseq s).1.dma = s.dma ∧ (nextRseq s).1.cmp = s.cmp ∧ (nextRseq s).1.nvs = s.nvs ∧ (nextRseq s).1.cap = s.cap ∧
    (nextRseq s).1.ing = s.ing ∧ (nextRseq s).1.aln = s.aln ∧ (nextRseq s).1.spc = s.spc ∧ (nextRseq s).1.ssk = s.ssk ∧
    (nextRseq s).1.pins = s.pins ∧ (nextRseq s).1.key = s.key ∧ (nextRseq s).1.out = s.out ∧ (nextRseq s).1.det = s.det ∧
    (nextRseq s).1.afe = s.afe ∧ (nextRseq s).1.nrg = s.nrg ∧ (nextRseq s).1.msh = s.msh ∧ (nextRseq s).1.twn = s.twn ∧
    (nextRseq s).1.pwr = s.pwr ∧ (nextRseq s).1.jtag = s.jtag ∧ (nextRseq s).1.fw = s.fw ∧
    (nextRseq s).1.cyc = s.cyc := by
  unfold nextRseq
  and_intros <;> rfl

@[simp] theorem notePop_keeps (s : State) (off v : Nat) :
    (notePop s off v).pending = s.pending ∧ (notePop s off v).cycle = s.cycle ∧ (notePop s off v).now = s.now ∧
    (notePop s off v).rtcBase = s.rtcBase ∧ (notePop s off v).freeCtr = s.freeCtr ∧ (notePop s off v).hostData = s.hostData ∧
    (notePop s off v).regs = s.regs ∧ (notePop s off v).winOps = s.winOps ∧ (notePop s off v).cfg = s.cfg ∧
    (notePop s off v).cfgPend = s.cfgPend ∧ (notePop s off v).cfgRet = s.cfgRet ∧ (notePop s off v).ntab = s.ntab ∧
    (notePop s off v).rseq = s.rseq ∧ (notePop s off v).hist = s.hist ∧ (notePop s off v).histPart = s.histPart ∧
    (notePop s off v).eccCorr = s.eccCorr ∧ (notePop s off v).sys = s.sys ∧ (notePop s off v).time = s.time ∧
    (notePop s off v).chutes = s.chutes ∧ (notePop s off v).dma = s.dma ∧ (notePop s off v).cmp = s.cmp ∧ (notePop s off v).nvs = s.nvs ∧
    (notePop s off v).cap = s.cap ∧ (notePop s off v).ing = s.ing ∧ (notePop s off v).aln = s.aln ∧ (notePop s off v).spc = s.spc ∧
    (notePop s off v).ssk = s.ssk ∧ (notePop s off v).pins = s.pins ∧ (notePop s off v).key = s.key ∧ (notePop s off v).out = s.out ∧
    (notePop s off v).det = s.det ∧ (notePop s off v).afe = s.afe ∧ (notePop s off v).nrg = s.nrg ∧ (notePop s off v).msh = s.msh ∧
    (notePop s off v).twn = s.twn ∧ (notePop s off v).pwr = s.pwr ∧ (notePop s off v).jtag = s.jtag ∧ (notePop s off v).fw = s.fw ∧
    (notePop s off v).cyc = s.cyc := by
  unfold notePop
  and_intros <;> rfl

@[simp] theorem setRing_keeps (s : State) (r : Nat) (g : RingS) :
    (setRing s r g).pending = s.pending ∧ (setRing s r g).cycle = s.cycle ∧ (setRing s r g).now = s.now ∧
    (setRing s r g).rtcBase = s.rtcBase ∧ (setRing s r g).freeCtr = s.freeCtr ∧ (setRing s r g).hostData = s.hostData ∧
    (setRing s r g).regs = s.regs ∧ (setRing s r g).shadow = s.shadow ∧ (setRing s r g).winOps = s.winOps ∧ (setRing s r g).cfg = s.cfg ∧
    (setRing s r g).cfgPend = s.cfgPend ∧ (setRing s r g).cfgRet = s.cfgRet ∧ (setRing s r g).ntab = s.ntab ∧
    (setRing s r g).rseq = s.rseq ∧ (setRing s r g).hist = s.hist ∧ (setRing s r g).histPart = s.histPart ∧
    (setRing s r g).eccCorr = s.eccCorr ∧ (setRing s r g).sys = s.sys ∧ (setRing s r g).time = s.time ∧ (setRing s r g).chutes = s.chutes ∧
    (setRing s r g).cmp = s.cmp ∧ (setRing s r g).nvs = s.nvs ∧ (setRing s r g).cap = s.cap ∧ (setRing s r g).ing = s.ing ∧
    (setRing s r g).aln = s.aln ∧ (setRing s r g).spc = s.spc ∧ (setRing s r g).ssk = s.ssk ∧ (setRing s r g).pins = s.pins ∧
    (setRing s r g).key = s.key ∧ (setRing s r g).out = s.out ∧ (setRing s r g).det = s.det ∧ (setRing s r g).afe = s.afe ∧
    (setRing s r g).nrg = s.nrg ∧ (setRing s r g).msh = s.msh ∧ (setRing s r g).twn = s.twn ∧ (setRing s r g).pwr = s.pwr ∧
    (setRing s r g).jtag = s.jtag ∧ (setRing s r g).fw = s.fw ∧
    (setRing s r g).cyc = s.cyc := by
  unfold setRing
  and_intros <;> rfl

@[simp] theorem setBlank_keeps (s : State) (b : Blank) :
    (setBlank s b).pending = s.pending ∧ (setBlank s b).cycle = s.cycle ∧ (setBlank s b).now = s.now ∧ (setBlank s b).rtcBase = s.rtcBase ∧
    (setBlank s b).freeCtr = s.freeCtr ∧ (setBlank s b).hostData = s.hostData ∧ (setBlank s b).regs = s.regs ∧
    (setBlank s b).shadow = s.shadow ∧ (setBlank s b).winOps = s.winOps ∧ (setBlank s b).cfg = s.cfg ∧ (setBlank s b).cfgPend = s.cfgPend ∧
    (setBlank s b).cfgRet = s.cfgRet ∧ (setBlank s b).ntab = s.ntab ∧ (setBlank s b).rseq = s.rseq ∧ (setBlank s b).hist = s.hist ∧
    (setBlank s b).histPart = s.histPart ∧ (setBlank s b).eccCorr = s.eccCorr ∧ (setBlank s b).sys = s.sys ∧ (setBlank s b).time = s.time ∧
    (setBlank s b).chutes = s.chutes ∧ (setBlank s b).dma = s.dma ∧ (setBlank s b).cmp = s.cmp ∧ (setBlank s b).nvs = s.nvs ∧
    (setBlank s b).cap = s.cap ∧ (setBlank s b).ing = s.ing ∧ (setBlank s b).spc = s.spc ∧ (setBlank s b).ssk = s.ssk ∧
    (setBlank s b).pins = s.pins ∧ (setBlank s b).key = s.key ∧ (setBlank s b).out = s.out ∧ (setBlank s b).det = s.det ∧
    (setBlank s b).afe = s.afe ∧ (setBlank s b).nrg = s.nrg ∧ (setBlank s b).msh = s.msh ∧ (setBlank s b).twn = s.twn ∧
    (setBlank s b).pwr = s.pwr ∧ (setBlank s b).jtag = s.jtag ∧ (setBlank s b).fw = s.fw := by
  unfold setBlank noteSlot
  dsimp only
  split <;> (and_intros <;> rfl)

@[simp] theorem setLane_keeps (s : State) (l : Nat) (x : ProcS) :
    (setLane s l x).pending = s.pending ∧ (setLane s l x).cycle = s.cycle ∧ (setLane s l x).now = s.now ∧
    (setLane s l x).rtcBase = s.rtcBase ∧ (setLane s l x).freeCtr = s.freeCtr ∧ (setLane s l x).hostData = s.hostData ∧
    (setLane s l x).regs = s.regs ∧ (setLane s l x).shadow = s.shadow ∧ (setLane s l x).winOps = s.winOps ∧ (setLane s l x).cfg = s.cfg ∧
    (setLane s l x).cfgPend = s.cfgPend ∧ (setLane s l x).cfgRet = s.cfgRet ∧ (setLane s l x).ntab = s.ntab ∧
    (setLane s l x).rseq = s.rseq ∧ (setLane s l x).hist = s.hist ∧ (setLane s l x).histPart = s.histPart ∧
    (setLane s l x).eccCorr = s.eccCorr ∧ (setLane s l x).sys = s.sys ∧ (setLane s l x).time = s.time ∧ (setLane s l x).chutes = s.chutes ∧
    (setLane s l x).dma = s.dma ∧ (setLane s l x).cmp = s.cmp ∧ (setLane s l x).nvs = s.nvs ∧ (setLane s l x).cap = s.cap ∧
    (setLane s l x).ing = s.ing ∧ (setLane s l x).aln = s.aln ∧ (setLane s l x).spc = s.spc ∧ (setLane s l x).pins = s.pins ∧
    (setLane s l x).key = s.key ∧ (setLane s l x).out = s.out ∧ (setLane s l x).det = s.det ∧ (setLane s l x).afe = s.afe ∧
    (setLane s l x).nrg = s.nrg ∧ (setLane s l x).msh = s.msh ∧ (setLane s l x).twn = s.twn ∧ (setLane s l x).pwr = s.pwr ∧
    (setLane s l x).jtag = s.jtag ∧ (setLane s l x).fw = s.fw ∧
    (setLane s l x).cyc = s.cyc := by
  unfold setLane
  and_intros <;> rfl

@[simp] theorem setOsc_keeps (s : State) (u : Nat) (o : OscU) :
    (setOsc s u o).pending = s.pending ∧ (setOsc s u o).cycle = s.cycle ∧ (setOsc s u o).now = s.now ∧ (setOsc s u o).rtcBase = s.rtcBase ∧
    (setOsc s u o).freeCtr = s.freeCtr ∧ (setOsc s u o).hostData = s.hostData ∧ (setOsc s u o).regs = s.regs ∧
    (setOsc s u o).shadow = s.shadow ∧ (setOsc s u o).winOps = s.winOps ∧ (setOsc s u o).cfg = s.cfg ∧ (setOsc s u o).cfgPend = s.cfgPend ∧
    (setOsc s u o).cfgRet = s.cfgRet ∧ (setOsc s u o).ntab = s.ntab ∧ (setOsc s u o).rseq = s.rseq ∧ (setOsc s u o).hist = s.hist ∧
    (setOsc s u o).histPart = s.histPart ∧ (setOsc s u o).eccCorr = s.eccCorr ∧ (setOsc s u o).sys = s.sys ∧ (setOsc s u o).time = s.time ∧
    (setOsc s u o).chutes = s.chutes ∧ (setOsc s u o).dma = s.dma ∧ (setOsc s u o).cmp = s.cmp ∧ (setOsc s u o).nvs = s.nvs ∧
    (setOsc s u o).cap = s.cap ∧ (setOsc s u o).ing = s.ing ∧ (setOsc s u o).aln = s.aln ∧ (setOsc s u o).spc = s.spc ∧
    (setOsc s u o).ssk = s.ssk ∧ (setOsc s u o).pins = s.pins ∧ (setOsc s u o).key = s.key ∧ (setOsc s u o).out = s.out ∧
    (setOsc s u o).afe = s.afe ∧ (setOsc s u o).nrg = s.nrg ∧ (setOsc s u o).msh = s.msh ∧ (setOsc s u o).twn = s.twn ∧
    (setOsc s u o).pwr = s.pwr ∧ (setOsc s u o).jtag = s.jtag ∧ (setOsc s u o).fw = s.fw ∧
    (setOsc s u o).cyc = s.cyc := by
  unfold setOsc
  and_intros <;> rfl

@[simp] theorem setSess_keeps (s : State) (i : Nat) (v : SessS) :
    (setSess s i v).pending = s.pending ∧ (setSess s i v).cycle = s.cycle ∧ (setSess s i v).now = s.now ∧
    (setSess s i v).rtcBase = s.rtcBase ∧ (setSess s i v).freeCtr = s.freeCtr ∧ (setSess s i v).hostData = s.hostData ∧
    (setSess s i v).regs = s.regs ∧ (setSess s i v).shadow = s.shadow ∧ (setSess s i v).winOps = s.winOps ∧ (setSess s i v).cfg = s.cfg ∧
    (setSess s i v).cfgPend = s.cfgPend ∧ (setSess s i v).cfgRet = s.cfgRet ∧ (setSess s i v).ntab = s.ntab ∧
    (setSess s i v).rseq = s.rseq ∧ (setSess s i v).hist = s.hist ∧ (setSess s i v).histPart = s.histPart ∧
    (setSess s i v).eccCorr = s.eccCorr ∧ (setSess s i v).sys = s.sys ∧ (setSess s i v).time = s.time ∧ (setSess s i v).chutes = s.chutes ∧
    (setSess s i v).dma = s.dma ∧ (setSess s i v).cmp = s.cmp ∧ (setSess s i v).nvs = s.nvs ∧ (setSess s i v).cap = s.cap ∧
    (setSess s i v).ing = s.ing ∧ (setSess s i v).aln = s.aln ∧ (setSess s i v).spc = s.spc ∧ (setSess s i v).ssk = s.ssk ∧
    (setSess s i v).pins = s.pins ∧ (setSess s i v).key = s.key ∧ (setSess s i v).det = s.det ∧ (setSess s i v).afe = s.afe ∧
    (setSess s i v).nrg = s.nrg ∧ (setSess s i v).msh = s.msh ∧ (setSess s i v).twn = s.twn ∧ (setSess s i v).pwr = s.pwr ∧
    (setSess s i v).jtag = s.jtag ∧ (setSess s i v).fw = s.fw ∧
    (setSess s i v).cyc = s.cyc := by
  unfold setSess
  and_intros <;> rfl

@[simp] theorem setSlot_keeps (s : State) (n : Nat) (k : KeySlot) :
    (setSlot s n k).pending = s.pending ∧ (setSlot s n k).cycle = s.cycle ∧ (setSlot s n k).now = s.now ∧
    (setSlot s n k).rtcBase = s.rtcBase ∧ (setSlot s n k).freeCtr = s.freeCtr ∧ (setSlot s n k).hostData = s.hostData ∧
    (setSlot s n k).regs = s.regs ∧ (setSlot s n k).shadow = s.shadow ∧ (setSlot s n k).winOps = s.winOps ∧ (setSlot s n k).cfg = s.cfg ∧
    (setSlot s n k).cfgPend = s.cfgPend ∧ (setSlot s n k).cfgRet = s.cfgRet ∧ (setSlot s n k).ntab = s.ntab ∧
    (setSlot s n k).rseq = s.rseq ∧ (setSlot s n k).hist = s.hist ∧ (setSlot s n k).histPart = s.histPart ∧
    (setSlot s n k).eccCorr = s.eccCorr ∧ (setSlot s n k).sys = s.sys ∧ (setSlot s n k).time = s.time ∧ (setSlot s n k).chutes = s.chutes ∧
    (setSlot s n k).dma = s.dma ∧ (setSlot s n k).cmp = s.cmp ∧ (setSlot s n k).nvs = s.nvs ∧ (setSlot s n k).cap = s.cap ∧
    (setSlot s n k).ing = s.ing ∧ (setSlot s n k).aln = s.aln ∧ (setSlot s n k).spc = s.spc ∧ (setSlot s n k).ssk = s.ssk ∧
    (setSlot s n k).pins = s.pins ∧ (setSlot s n k).out = s.out ∧ (setSlot s n k).det = s.det ∧ (setSlot s n k).afe = s.afe ∧
    (setSlot s n k).nrg = s.nrg ∧ (setSlot s n k).msh = s.msh ∧ (setSlot s n k).twn = s.twn ∧ (setSlot s n k).pwr = s.pwr ∧
    (setSlot s n k).jtag = s.jtag ∧ (setSlot s n k).fw = s.fw := by
  unfold setSlot
  and_intros <;> rfl

@[simp] theorem nvPut_keeps (s : State) (a : Nat) (bs : List Nat) :
    (nvPut s a bs).pending = s.pending ∧ (nvPut s a bs).cycle = s.cycle ∧ (nvPut s a bs).now = s.now ∧ (nvPut s a bs).rtcBase = s.rtcBase ∧
    (nvPut s a bs).freeCtr = s.freeCtr ∧ (nvPut s a bs).hostData = s.hostData ∧ (nvPut s a bs).regs = s.regs ∧
    (nvPut s a bs).shadow = s.shadow ∧ (nvPut s a bs).winOps = s.winOps ∧ (nvPut s a bs).cfg = s.cfg ∧ (nvPut s a bs).cfgPend = s.cfgPend ∧
    (nvPut s a bs).cfgRet = s.cfgRet ∧ (nvPut s a bs).ntab = s.ntab ∧ (nvPut s a bs).rseq = s.rseq ∧ (nvPut s a bs).hist = s.hist ∧
    (nvPut s a bs).histPart = s.histPart ∧ (nvPut s a bs).eccCorr = s.eccCorr ∧ (nvPut s a bs).sys = s.sys ∧ (nvPut s a bs).time = s.time ∧
    (nvPut s a bs).chutes = s.chutes ∧ (nvPut s a bs).dma = s.dma ∧ (nvPut s a bs).cmp = s.cmp ∧ (nvPut s a bs).cap = s.cap ∧
    (nvPut s a bs).ing = s.ing ∧ (nvPut s a bs).aln = s.aln ∧ (nvPut s a bs).spc = s.spc ∧ (nvPut s a bs).ssk = s.ssk ∧
    (nvPut s a bs).pins = s.pins ∧ (nvPut s a bs).key = s.key ∧ (nvPut s a bs).out = s.out ∧ (nvPut s a bs).det = s.det ∧
    (nvPut s a bs).afe = s.afe ∧ (nvPut s a bs).nrg = s.nrg ∧ (nvPut s a bs).msh = s.msh ∧ (nvPut s a bs).twn = s.twn ∧
    (nvPut s a bs).pwr = s.pwr ∧ (nvPut s a bs).jtag = s.jtag ∧ (nvPut s a bs).fw = s.fw ∧
    (nvPut s a bs).cyc = s.cyc := by
  unfold nvPut
  and_intros <;> rfl

@[simp] theorem setNor_keeps (s : State) (d : Nat) (n : NorS) :
    (setNor s d n).pending = s.pending ∧ (setNor s d n).cycle = s.cycle ∧ (setNor s d n).now = s.now ∧ (setNor s d n).rtcBase = s.rtcBase ∧
    (setNor s d n).freeCtr = s.freeCtr ∧ (setNor s d n).hostData = s.hostData ∧ (setNor s d n).regs = s.regs ∧
    (setNor s d n).shadow = s.shadow ∧ (setNor s d n).winOps = s.winOps ∧ (setNor s d n).cfg = s.cfg ∧ (setNor s d n).cfgPend = s.cfgPend ∧
    (setNor s d n).cfgRet = s.cfgRet ∧ (setNor s d n).ntab = s.ntab ∧ (setNor s d n).rseq = s.rseq ∧ (setNor s d n).hist = s.hist ∧
    (setNor s d n).histPart = s.histPart ∧ (setNor s d n).eccCorr = s.eccCorr ∧ (setNor s d n).sys = s.sys ∧ (setNor s d n).time = s.time ∧
    (setNor s d n).chutes = s.chutes ∧ (setNor s d n).dma = s.dma ∧ (setNor s d n).cmp = s.cmp ∧ (setNor s d n).cap = s.cap ∧
    (setNor s d n).ing = s.ing ∧ (setNor s d n).aln = s.aln ∧ (setNor s d n).spc = s.spc ∧ (setNor s d n).ssk = s.ssk ∧
    (setNor s d n).pins = s.pins ∧ (setNor s d n).key = s.key ∧ (setNor s d n).out = s.out ∧ (setNor s d n).det = s.det ∧
    (setNor s d n).afe = s.afe ∧ (setNor s d n).nrg = s.nrg ∧ (setNor s d n).msh = s.msh ∧ (setNor s d n).twn = s.twn ∧
    (setNor s d n).pwr = s.pwr ∧ (setNor s d n).jtag = s.jtag ∧ (setNor s d n).fw = s.fw ∧
    (setNor s d n).cyc = s.cyc := by
  unfold setNor
  and_intros <;> rfl

@[simp] theorem setHealthOf_keeps (s : State) (i : Nat) (h : Health) :
    (setHealthOf s i h).pending = s.pending ∧ (setHealthOf s i h).cycle = s.cycle ∧ (setHealthOf s i h).now = s.now ∧
    (setHealthOf s i h).rtcBase = s.rtcBase ∧ (setHealthOf s i h).freeCtr = s.freeCtr ∧ (setHealthOf s i h).hostData = s.hostData ∧
    (setHealthOf s i h).regs = s.regs ∧ (setHealthOf s i h).shadow = s.shadow ∧ (setHealthOf s i h).winOps = s.winOps ∧
    (setHealthOf s i h).cfg = s.cfg ∧ (setHealthOf s i h).cfgPend = s.cfgPend ∧ (setHealthOf s i h).cfgRet = s.cfgRet ∧
    (setHealthOf s i h).ntab = s.ntab ∧ (setHealthOf s i h).rseq = s.rseq ∧ (setHealthOf s i h).hist = s.hist ∧
    (setHealthOf s i h).histPart = s.histPart ∧ (setHealthOf s i h).eccCorr = s.eccCorr ∧ (setHealthOf s i h).sys = s.sys ∧
    (setHealthOf s i h).time = s.time ∧ (setHealthOf s i h).chutes = s.chutes ∧ (setHealthOf s i h).dma = s.dma ∧
    (setHealthOf s i h).cmp = s.cmp ∧ (setHealthOf s i h).nvs = s.nvs ∧ (setHealthOf s i h).cap = s.cap ∧ (setHealthOf s i h).aln = s.aln ∧
    (setHealthOf s i h).spc = s.spc ∧ (setHealthOf s i h).ssk = s.ssk ∧ (setHealthOf s i h).pins = s.pins ∧
    (setHealthOf s i h).key = s.key ∧ (setHealthOf s i h).out = s.out ∧ (setHealthOf s i h).det = s.det ∧ (setHealthOf s i h).afe = s.afe ∧
    (setHealthOf s i h).nrg = s.nrg ∧ (setHealthOf s i h).msh = s.msh ∧ (setHealthOf s i h).twn = s.twn ∧ (setHealthOf s i h).pwr = s.pwr ∧
    (setHealthOf s i h).jtag = s.jtag ∧ (setHealthOf s i h).fw = s.fw := by
  unfold setHealthOf
  and_intros <;> rfl

@[simp] theorem requestBank_keeps (s : State) (kind cls who : Nat) (p : List Nat) :
    (requestBank s kind cls who p).pending = s.pending ∧ (requestBank s kind cls who p).cycle = s.cycle ∧
    (requestBank s kind cls who p).now = s.now ∧ (requestBank s kind cls who p).rtcBase = s.rtcBase ∧
    (requestBank s kind cls who p).freeCtr = s.freeCtr ∧ (requestBank s kind cls who p).hostData = s.hostData ∧
    (requestBank s kind cls who p).regs = s.regs ∧ (requestBank s kind cls who p).shadow = s.shadow ∧
    (requestBank s kind cls who p).winOps = s.winOps ∧ (requestBank s kind cls who p).cfg = s.cfg ∧
    (requestBank s kind cls who p).cfgPend = s.cfgPend ∧ (requestBank s kind cls who p).cfgRet = s.cfgRet ∧
    (requestBank s kind cls who p).ntab = s.ntab ∧ (requestBank s kind cls who p).rseq = s.rseq ∧
    (requestBank s kind cls who p).hist = s.hist ∧ (requestBank s kind cls who p).histPart = s.histPart ∧
    (requestBank s kind cls who p).eccCorr = s.eccCorr ∧ (requestBank s kind cls who p).sys = s.sys ∧
    (requestBank s kind cls who p).time = s.time ∧ (requestBank s kind cls who p).chutes = s.chutes ∧
    (requestBank s kind cls who p).dma = s.dma ∧ (requestBank s kind cls who p).cmp = s.cmp ∧ (requestBank s kind cls who p).cap = s.cap ∧
    (requestBank s kind cls who p).ing = s.ing ∧ (requestBank s kind cls who p).aln = s.aln ∧ (requestBank s kind cls who p).spc = s.spc ∧
    (requestBank s kind cls who p).ssk = s.ssk ∧ (requestBank s kind cls who p).pins = s.pins ∧
    (requestBank s kind cls who p).key = s.key ∧ (requestBank s kind cls who p).out = s.out ∧ (requestBank s kind cls who p).det = s.det ∧
    (requestBank s kind cls who p).afe = s.afe ∧ (requestBank s kind cls who p).nrg = s.nrg ∧ (requestBank s kind cls who p).msh = s.msh ∧
    (requestBank s kind cls who p).twn = s.twn ∧ (requestBank s kind cls who p).pwr = s.pwr ∧
    (requestBank s kind cls who p).jtag = s.jtag ∧ (requestBank s kind cls who p).fw = s.fw ∧
    (requestBank s kind cls who p).cyc = s.cyc := by
  unfold requestBank
  and_intros <;> rfl

@[simp] theorem setDom_keeps (s : State) (d st : Nat) :
    (setDom s d st).pending = s.pending ∧ (setDom s d st).cycle = s.cycle ∧ (setDom s d st).now = s.now ∧
    (setDom s d st).rtcBase = s.rtcBase ∧ (setDom s d st).freeCtr = s.freeCtr ∧ (setDom s d st).hostData = s.hostData ∧
    (setDom s d st).regs = s.regs ∧ (setDom s d st).shadow = s.shadow ∧ (setDom s d st).winOps = s.winOps ∧ (setDom s d st).cfg = s.cfg ∧
    (setDom s d st).cfgPend = s.cfgPend ∧ (setDom s d st).cfgRet = s.cfgRet ∧ (setDom s d st).rseq = s.rseq ∧
    (setDom s d st).hist = s.hist ∧ (setDom s d st).histPart = s.histPart ∧ (setDom s d st).eccCorr = s.eccCorr ∧
    (setDom s d st).sys = s.sys ∧ (setDom s d st).time = s.time ∧ (setDom s d st).chutes = s.chutes ∧ (setDom s d st).dma = s.dma ∧
    (setDom s d st).cmp = s.cmp ∧ (setDom s d st).nvs = s.nvs ∧ (setDom s d st).cap = s.cap ∧ (setDom s d st).ing = s.ing ∧
    (setDom s d st).aln = s.aln ∧ (setDom s d st).spc = s.spc ∧ (setDom s d st).ssk = s.ssk ∧ (setDom s d st).pins = s.pins ∧
    (setDom s d st).key = s.key ∧ (setDom s d st).out = s.out ∧ (setDom s d st).det = s.det ∧ (setDom s d st).afe = s.afe ∧
    (setDom s d st).nrg = s.nrg ∧ (setDom s d st).msh = s.msh ∧ (setDom s d st).twn = s.twn ∧ (setDom s d st).pwr = s.pwr ∧
    (setDom s d st).jtag = s.jtag ∧ (setDom s d st).fw = s.fw ∧
    (setDom s d st).cyc = s.cyc := by
  unfold setDom putN
  and_intros <;> rfl

end Sys2Proof.Machine
end

