-- ==== Sys2Proof/Laws/Tab.lean ====
section
/-! SUPPORT. Sparse tables and memories: what a read gives after a write, and that every write keeps the canonical form. -/

namespace Sys2Proof

theorem Tab.get_put {α : Type} (d : Nat → α) (t : Tab α) (k j : Nat) (v : α) :
    Tab.get d (Tab.put t k v) j = if k = j then v else Tab.get d t j := by
  induction t with
  | nil => by_cases h : k = j <;> simp [Tab.put, Tab.get, h]
  | cons p t ih =>
    obtain ⟨i, w⟩ := p
    by_cases h1 : k < i
    · simp [Tab.put, Tab.get, h1]
    · by_cases h2 : k = i
      · subst h2
        by_cases h : k = j <;> simp [Tab.put, Tab.get, h]
      · simp only [Tab.put, Tab.get, h1, h2, if_false, ih]
        by_cases hi : i = j
        · subst hi; simp [h2]
        · simp [hi]

theorem Tab.get_del {α : Type} (d : Nat → α) (t : Tab α) (k j : Nat) :
    Tab.get d (Tab.del t k) j = if k = j then d j else Tab.get d t j := by
  induction t with
  | nil => by_cases h : k = j <;> simp [Tab.del, Tab.get, h]
  | cons p t ih =>
    obtain ⟨i, w⟩ := p
    by_cases h1 : i = k
    · subst h1
      simp only [Tab.del, if_true, ih, Tab.get]
      by_cases h : i = j <;> simp [h]
    · by_cases hi : i = j
      · subst hi; simp [Tab.del, Tab.get, h1, Ne.symm h1]
      · simp [Tab.del, Tab.get, h1, hi, ih]

/-- A read after a write. -/
@[simp] theorem Tab.get_set {α : Type} [DecidableEq α] (d : Nat → α) (t : Tab α) (k j : Nat) (v : α) :
    Tab.get d (Tab.set d t k v) j = if k = j then v else Tab.get d t j := by
  unfold Tab.set
  split
  · rename_i h
    rw [Tab.get_del]
    split
    · rename_i hk; rw [h, hk]
    · rfl
  · exact Tab.get_put d t k j v

theorem Tab.wfFrom_le {α : Type} [DecidableEq α] {d : Nat → α} {a b : Nat} {t : Tab α} (h : a ≤ b) (w : Tab.wfFrom d b t = true) :
    Tab.wfFrom d a t = true := by
  cases t with
  | nil => rfl
  | cons p t => simp only [Tab.wfFrom, Bool.and_eq_true, decide_eq_true_eq] at w ⊢; exact ⟨⟨by omega, w.1.2⟩, w.2⟩

theorem Tab.wfFrom_del {α : Type} [DecidableEq α] {d : Nat → α} {t : Tab α} {b : Nat} (k : Nat) (w : Tab.wfFrom d b t = true) :
    Tab.wfFrom d b (Tab.del t k) = true := by
  induction t generalizing b with
  | nil => rfl
  | cons p t ih =>
    simp only [Tab.wfFrom, Bool.and_eq_true, decide_eq_true_eq] at w
    simp only [Tab.del]
    split
    · exact Tab.wfFrom_le (by omega) (ih w.2)
    · simp only [Tab.wfFrom, Bool.and_eq_true, decide_eq_true_eq]; exact ⟨w.1, ih w.2⟩

theorem Tab.wfFrom_put {α : Type} [DecidableEq α] {d : Nat → α} {t : Tab α} {b k : Nat} {v : α} (hb : b ≤ k) (hv : v ≠ d k)
    (w : Tab.wfFrom d b t = true) : Tab.wfFrom d b (Tab.put t k v) = true := by
  induction t generalizing b with
  | nil => simp [Tab.put, Tab.wfFrom, hb, hv]
  | cons p t ih =>
    simp only [Tab.wfFrom, Bool.and_eq_true, decide_eq_true_eq] at w
    simp only [Tab.put]
    split
    · rename_i hk
      simp only [Tab.wfFrom, Bool.and_eq_true, decide_eq_true_eq]
      exact ⟨⟨hb, hv⟩, ⟨⟨by omega, w.1.2⟩, w.2⟩⟩
    · split
      · rename_i hk; subst hk
        simp only [Tab.wfFrom, Bool.and_eq_true, decide_eq_true_eq]
        exact ⟨⟨hb, hv⟩, w.2⟩
      · simp only [Tab.wfFrom, Bool.and_eq_true, decide_eq_true_eq]
        exact ⟨w.1, ih (by omega) w.2⟩

/-- A write keeps the canonical form. -/
theorem Tab.wf_set {α : Type} [DecidableEq α] {d : Nat → α} {t : Tab α} (k : Nat) (v : α) (w : Tab.wf d t = true) :
    Tab.wf d (Tab.set d t k v) = true := by
  unfold Tab.set
  split
  · exact Tab.wfFrom_del k w
  · rename_i h; exact Tab.wfFrom_put (Nat.zero_le k) h w

theorem Tab.wf_del {α : Type} [DecidableEq α] {d : Nat → α} {t : Tab α} (k : Nat) (w : Tab.wf d t = true) :
    Tab.wf d (Tab.del t k) = true := Tab.wfFrom_del k w

@[simp] theorem Tab.wf_nil {α : Type} [DecidableEq α] (d : Nat → α) : Tab.wf d [] = true := rfl

/-- A range written keeps the canonical form. -/
theorem Memory.wf_put {d : Nat → Byte} {m : Memory} (a : Nat) (bs : List Nat) (w : Tab.wf d m = true) :
    Tab.wf d (Memory.put d m a bs) = true := by
  induction bs generalizing m a with
  | nil => exact w
  | cons b bs ih => exact ih (a + 1) (Tab.wf_set a _ w)

/-- A byte after a range is written: the bytes of the range, and every other byte as before. -/
theorem Memory.get_put (d : Nat → Byte) (m : Memory) (a : Nat) (bs : List Nat) (x : Nat) :
    Tab.get d (Memory.put d m a bs) x =
      if a ≤ x ∧ x < a + bs.length then BitVec.ofNat 8 (bs.getD (x - a) 0) else Tab.get d m x := by
  induction bs generalizing m a with
  | nil => simp only [Memory.put, List.length_nil]; rw [if_neg (by omega)]
  | cons b bs ih =>
    simp only [Memory.put, ih, Tab.get_set, List.length_cons]
    by_cases h : a = x
    · subst h
      rw [if_neg (by omega), if_pos rfl, if_pos (by omega)]
      simp
    · by_cases h2 : a + 1 ≤ x ∧ x < a + 1 + bs.length
      · have h3 : a ≤ x ∧ x < a + (bs.length + 1) := by omega
        have h4 : x - a = (x - (a + 1)) + 1 := by omega
        simp [h2, h3, h4]
      · have h3 : ¬ (a ≤ x ∧ x < a + (bs.length + 1)) := by omega
        rw [if_neg h2, if_neg h3, if_neg h]

end Sys2Proof
end

