-- ==== Sys2Proof/Laws/Regs.lean ====
section
/-! SUPPORT. Registers: the bits of a number with a field put into it, and what reading gives after each write of hardware's own. -/

namespace Sys2Proof.Machine

/-! Bits of numbers. -/

/-- A bit as core Lean tests it. -/
theorem bitOf_eq_testBit (w b : Nat) : bitOf w b = w.testBit b := by
  simp [bitOf, Nat.testBit_eq_decide_div_mod_eq]
  rfl

/-- A bit of a field. -/
theorem testBit_bits (w hi lo i : Nat) : (bits w hi lo).testBit i = (decide (i < hi + 1 - lo) && w.testBit (lo + i)) := by
  simp [bits, Nat.testBit_mod_two_pow, Nat.testBit_div_two_pow, Nat.add_comm]

/-- A field fits its width. -/
theorem bits_lt (w hi lo : Nat) : bits w hi lo < 2 ^ (hi + 1 - lo) := Nat.mod_lt _ (Nat.two_pow_pos _)

/-- A number by its bits below, in and above a field. -/
theorem split_bits (w hi lo : Nat) (h : lo ≤ hi) :
    w = w % 2 ^ lo + 2 ^ lo * (bits w hi lo + 2 ^ (hi + 1 - lo) * (w / 2 ^ (hi + 1))) := by
  have e : 2 ^ (hi + 1) = 2 ^ lo * 2 ^ (hi + 1 - lo) := by rw [← Nat.pow_add]; congr 1; omega
  unfold bits
  rw [e, ← Nat.div_div_eq_div_mul, Nat.mod_add_div, Nat.mod_add_div]

/-- A number with a field put into it, by the same parts. -/
theorem putBits_split (w hi lo v : Nat) (h : lo ≤ hi) :
    putBits w hi lo v = w % 2 ^ lo + 2 ^ lo * (v % 2 ^ (hi + 1 - lo) + 2 ^ (hi + 1 - lo) * (w / 2 ^ (hi + 1))) := by
  have e := split_bits w hi lo h
  unfold putBits
  rw [Nat.mul_add] at e ⊢
  rw [Nat.mul_comm (bits w hi lo), Nat.mul_comm (v % _)]
  omega

/-- The bits of a number with a field put into it. -/
theorem testBit_putBits (w hi lo v i : Nat) (h : lo ≤ hi) :
    (putBits w hi lo v).testBit i = if lo ≤ i ∧ i ≤ hi then v.testBit (i - lo) else w.testBit i := by
  rw [putBits_split w hi lo v h, Nat.add_comm, Nat.testBit_two_pow_mul_add _ (Nat.mod_lt _ (Nat.two_pow_pos _)), Nat.add_comm,
    Nat.testBit_two_pow_mul_add _ (Nat.mod_lt _ (Nat.two_pow_pos _))]
  by_cases a : i < lo
  · simp [a, Nat.not_le.mpr a]
  · by_cases b : i ≤ hi
    · have c : i - lo < hi + 1 - lo := by omega
      simp [a, b, c, Nat.le_of_not_lt a]
    · have c : ¬ i - lo < hi + 1 - lo := by omega
      have d : i - lo - (hi + 1 - lo) + (hi + 1) = i := by omega
      simp [a, b, c, Nat.testBit_div_two_pow, d]

/-- A field put into a word leaves a word. -/
theorem putBits_lt (w hi lo v : Nat) (h : lo ≤ hi) (hh : hi < 32) (hw : w < 2 ^ 32) : putBits w hi lo v < 2 ^ 32 := by
  refine Nat.lt_pow_two_of_testBit _ (fun i hi' => ?_)
  rw [testBit_putBits _ _ _ _ _ h]
  split
  · omega
  · exact Nat.testBit_lt_two_pow (Nat.lt_of_lt_of_le hw (Nat.pow_le_pow_right (by decide) hi'))

/-! Reading after writing. -/

/-- A register holds a word. -/
theorem rd_lt (s : State) (off : Nat) : rd s off < 2 ^ 32 := BitVec.isLt _

/-- A register after a write. -/
theorem rd_wr (s : State) (off v p : Nat) : rd (wr s off v) p = if off = p then v % 2 ^ 32 else rd s p := by
  unfold rd wr
  simp only [Tab.get_set]
  split <;> simp

/-- A bit after a field is put. -/
theorem bit_setF (s : State) (off hi lo v p b : Nat) (h : lo ≤ hi) (hh : hi < 32) :
    bit (setF s off hi lo v) p b = if off = p ∧ lo ≤ b ∧ b ≤ hi then v.testBit (b - lo) else bit s p b := by
  unfold bit setF
  rw [rd_wr]
  by_cases e : off = p
  · subst e
    rw [if_pos rfl, Nat.mod_eq_of_lt (putBits_lt _ _ _ _ h hh (rd_lt _ _)), bitOf_eq_testBit, testBit_putBits _ _ _ _ _ h, bitOf_eq_testBit]
    by_cases c : lo ≤ b ∧ b ≤ hi <;> simp [c]
  · simp [e]

/-- Noting an event of the cycle leaves every register's word. -/
@[simp] theorem rd_noteReg (s : State) (off set n p : Nat) : rd (noteReg s off set n) p = rd s p := rfl

/-- Noting an event of the cycle leaves every register's bits. -/
@[simp] theorem bit_noteReg (s : State) (off set n p b : Nat) : bit (noteReg s off set n) p b = bit s p b := rfl

/-- A bit after a bit is put. -/
theorem bit_setB (s : State) (off c : Nat) (v : Bool) (p b : Nat) (h : c < 32) :
    bit (setB s off c v) p b = if off = p ∧ b = c then v else bit s p b := by
  unfold setB
  rw [bit_setF _ _ _ _ _ _ _ (Nat.le_refl _) h]
  by_cases e : off = p ∧ b = c
  · obtain ⟨e1, e2⟩ := e
    subst e1 e2
    cases v <;> simp [b2n]
  · rw [if_neg e, if_neg (fun x => e ⟨x.1, Nat.le_antisymm x.2.2 x.2.1⟩)]
    cases v <;> rfl

/-- The field that was put. -/
theorem fld_setF (s : State) (off hi lo v : Nat) (h : lo ≤ hi) (hh : hi < 32) : fld (setF s off hi lo v) off hi lo = v % 2 ^ (hi + 1 - lo) := by
  unfold fld setF
  rw [rd_wr, if_pos rfl, Nat.mod_eq_of_lt (putBits_lt _ _ _ _ h hh (rd_lt _ _))]
  refine Nat.eq_of_testBit_eq (fun i => ?_)
  rw [testBit_bits, testBit_putBits _ _ _ _ _ h, Nat.testBit_mod_two_pow]
  by_cases c : i < hi + 1 - lo
  · rw [if_pos (by omega)]; simp
  · simp [c]

/-- A field of another register, or apart from the one put. -/
theorem fld_setF_other (s : State) (off hi lo v p a b : Nat) (h : lo ≤ hi) (hh : hi < 32) (o : off ≠ p ∨ a < lo ∨ hi < b) :
    fld (setF s off hi lo v) p a b = fld s p a b := by
  unfold fld setF
  rw [rd_wr]
  by_cases e : off = p
  · subst e
    rw [if_pos rfl, Nat.mod_eq_of_lt (putBits_lt _ _ _ _ h hh (rd_lt _ _))]
    refine Nat.eq_of_testBit_eq (fun i => ?_)
    rw [testBit_bits, testBit_bits, testBit_putBits _ _ _ _ _ h]
    by_cases c : i < a + 1 - b
    · rw [if_neg (by omega)]
    · simp [c]
  · rw [if_neg e]

/-- A saturating counter that counts one. -/
theorem rd_inc (s : State) (off p : Nat) : rd (inc s off) p = if off = p then min (rd s off + 1) (2 ^ 32 - 1) else rd s p := by
  unfold inc addC
  rw [rd_wr]
  split
  · exact Nat.mod_eq_of_lt (by unfold satAdd; omega)
  · rfl

end Sys2Proof.Machine
end

