-- ==== Sys2Proof/Laws/Frame.lean ====
section
/-! SUPPORT. The algebra of frames, what the shared updates change, and what an idle step does. -/

namespace Sys2Proof.Machine

theorem Comp.same_refl (s : State) (c : Comp) : c.same s s := by cases c <;> rfl

theorem Comp.same_trans {s t u : State} {c : Comp} (a : c.same s t) (b : c.same t u) : c.same s u := by
  cases c <;> simp only [Comp.same] at * <;> rw [b, a]

/-- Nothing changed. -/
theorem changesOnly_refl (l : List Comp) (s : State) : ChangesOnly l s s := ⟨rfl, fun c _ => c.same_refl s⟩

/-- One change after another. -/
theorem changesOnly_trans {l : List Comp} {s t u : State} (a : ChangesOnly l s t) (b : ChangesOnly l t u) : ChangesOnly l s u :=
  ⟨b.1.trans a.1, fun c h => Comp.same_trans (a.2 c h) (b.2 c h)⟩

/-- A wider frame. -/
theorem changesOnly_mono {l m : List Comp} {s t : State} (h : ∀ c, c ∈ l → c ∈ m) (a : ChangesOnly l s t) : ChangesOnly m s t :=
  ⟨a.1, fun c hc => a.2 c (fun x => hc (h c x))⟩

/-- A frame that lets the registers change lets anything be written into them. -/
theorem changesOnly_regs {l : List Comp} {s : State} (h : Comp.regs ∈ l) (r : Tab Word) : ChangesOnly l s { s with regs := r } :=
  ⟨rfl, fun c hc => by cases c <;> first | rfl | exact absurd h hc⟩

theorem regsBut_refl (l : List Nat) (s : State) : RegsBut l s s := fun _ _ => rfl

theorem regsBut_trans {l : List Nat} {s t u : State} (a : RegsBut l s t) (b : RegsBut l t u) : RegsBut l s u :=
  fun o h => (b o h).trans (a o h)

theorem regsBut_mono {l m : List Nat} {s t : State} (h : ∀ o, o ∈ l → o ∈ m) (a : RegsBut l s t) : RegsBut m s t :=
  fun o ho => a o (fun x => ho (h o x))

/-- States with the same registers read alike. -/
theorem regsBut_of_regs {l : List Nat} {s t : State} (h : t.regs = s.regs) : RegsBut l s t := fun o _ => by unfold rd; rw [h]

/-- A write changes its register alone. -/
theorem regsBut_wr {l : List Nat} {s : State} {off : Nat} (v : Nat) (h : off ∈ l) : RegsBut l s (wr s off v) := fun o ho => by
  rw [rd_wr, if_neg (by rintro rfl; exact ho h)]

theorem changesOnly_wr {l : List Comp} {s : State} (off v : Nat) (h : Comp.regs ∈ l) : ChangesOnly l s (wr s off v) := changesOnly_regs h _

/-- A command that ends in a state within its frame completes. -/
theorem completes_of {c : Instr} {s t : State} {l : List Comp} {r : List Nat} {f : State → Prop} (e : exec c s = .next t) (a : ChangesOnly l s t)
    (b : RegsBut r s t) (h : f t) : Completes c s l r f := ⟨t, e, a, b, h⟩

/-- What an idle step does. -/
theorem idle_eq (s : State) :
    idle s = if firmwareRuns (pass s 1) then ptpOwn { pass s 1 with ing := { s.ing with fwq := [] } } else pass s 1 := rfl

/-- What firmware's own PTP message changes: a queue, its record, and the counter of the free values. -/
theorem ptpOwn_changes (s : State) : ChangesOnly [.freeCtr, .out, .time] s (ptpOwn s) := by
  refine ⟨rfl, fun c hc => ?_⟩
  cases c <;> first | rfl | exact absurd (by decide) hc

end Sys2Proof.Machine
end

