-- ==== Sys2Proof/Laws/Keeps.lean ====
section
/-! SUPPORT. The kit for proofs that an operation keeps the queue and the invariant (NOTES.md, For the provers): one lemma for a record update of any
fields, and one for each way that the meanings are put together. -/

namespace Sys2Proof.Machine

/-- The queue is `q` and the invariant holds. -/
structure Good (q : List Instr) (s : State) : Prop where
  pend : s.pending = q
  inv : Invariant s

/-- Any update of fields keeps both where what it puts into the fields that the invariant names keeps their clause. -/
theorem good_mk {q : List Instr} {s : State} {a1 a2 a3 a4 a5 a6 a7 a8 a9 a10 a11 a12 a13 a14 a15 a16 a17 a18 a19 a20 a21 a22 a23 a24 a25 a26 a27 a28 a29 a30 a31 a32 a33 a34 a35 a36 a37 a38 a39}
   (h : Good q s)
   (e1 : Tab.wf resetWord s.regs = true → Tab.wf resetWord a6 = true) (e2 : Tab.wf cfgDef s.cfg = true → Tab.wf cfgDef a9 = true)
   (e3 : Tab.wf cfgDef s.cfgPend = true → Tab.wf cfgDef a10 = true)
   (e4 : (∀ r, s.cfgRet = some r → Tab.wf cfgDef r.tab = true) → (∀ r, a11 = some r → Tab.wf cfgDef r.tab = true))
   (e5 : Tab.wf ntabDef s.ntab = true → Tab.wf ntabDef a12 = true) (e6 : Memory.wf s.hist = true → Memory.wf a14 = true)
   (e7 : Memory.wf s.nvs.store = true → Memory.wf (a22 : NvsS).store = true) (e8 : Memory.wf s.dma.hostMem = true → Memory.wf (a20 : DmaS).hostMem = true)
   (f1 : (a19 : List Chute).length = s.chutes.length) (f2 : a20.rings.length = s.dma.rings.length)
   (f3 : (a27 : SskS).lanes.length = s.ssk.lanes.length) (f4 : a27.cores.length = s.ssk.cores.length) (f5 : a27.chucks.length = s.ssk.chucks.length)
   (f6 : (a25 : AlnS).ring.length = s.aln.ring.length) (f7 : (∀ c ∈ s.chutes, c.taken ≤ 32) → ∀ c ∈ (a19 : List Chute), c.taken ≤ 32) :
   Good q (State.mk s.pending a1 a2 a3 a4 a5 a6 a7 a8 a9 a10 a11 a12 a13 a14 a15 a16 a17 a18 a19 a20 a21 a22 a23 a24 a25 a26 a27 a28 a29 a30 a31 a32 a33 a34 a35 a36 a37 a38 a39) := by
  obtain ⟨hp, ⟨c1, c2, c3, c4, c5, c6, c7, c8⟩, ⟨g1, g2, g3, g4, g5, g6⟩, l⟩ := h
  refine ⟨hp, ⟨?_, ?_, ?_, ?_, ?_, ?_, ?_, ?_⟩, ⟨?_, ?_, ?_, ?_, ?_, ?_⟩, ?_⟩ <;> simp_all [ChutesFit]

/-- A write of a configuration copy keeps its canonical form. -/
theorem putC_wf {t : Tab Word} (w i j v : Nat) : Tab.wf cfgDef t = true → Tab.wf cfgDef (putC t w i j v) = true := Tab.wf_set _ _

/-- A fold keeps what its step keeps. -/
theorem foldl_wf {α β : Type} {P : β → Prop} {f : β → α → β} {l : List α} (hf : ∀ b a, P b → P (f b a)) {b : β} (h : P b) : P (l.foldl f b) := by
  induction l generalizing b with
  | nil => exact h
  | cons a l ih => exact ih (hf b a h)

/-- A write of a memory keeps its canonical form. -/
theorem putMem_wf {m : Memory} (a : Nat) (bs : List Nat) : Memory.wf m = true → Memory.wf (Memory.put Memory.zero m a bs) = true := Memory.wf_put _ _

/-- The state of a named pair. -/
theorem good_pair {α : Type} {q : List Instr} {p : State × α} {s : State} {a : α} (e : p = (s, a)) (h : Good q p.1) : Good q s := by
  rw [e] at h; exact h

/-- A fact that follows from that of an intermediate state. -/
theorem good_then {q : List Instr} {x : State} {P : Prop} (h : Good q x → P) (hx : Good q x) : P := h hx

/-- Every next state of an outcome keeps both. -/
structure GoodO (q : List Instr) (o : Out) : Prop where
  good : ∀ t, o = .next t → Good q t

/-- A next state. -/
theorem good_next {q : List Instr} {s : State} (h : Good q s) : GoodO q (.next s) := by
  constructor; intro t ht; cases ht; exact h

/-- A fault has no next state. -/
theorem good_fault {q : List Instr} {f : Fault} : GoodO q (.fault f) := by
  constructor; intro t ht; cases ht

/-- A fold over states. -/
theorem good_foldl {α : Type} {q : List Instr} {f : State → α → State} {l : List α} {s : State} (hf : ∀ s a, Good q s → Good q (f s a)) (h : Good q s) :
    Good q (l.foldl f s) := by
  induction l generalizing s with
  | nil => exact h
  | cons a l ih => exact ih (hf s a h)

/-- A fold over states with a value beside. -/
theorem good_foldl1 {α β : Type} {q : List Instr} {f : State × β → α → State × β} {l : List α} {p : State × β}
    (hf : ∀ p a, Good q p.1 → Good q (f p a).1) (h : Good q p.1) : Good q (l.foldl f p).1 := by
  induction l generalizing p with
  | nil => exact h
  | cons a l ih => exact ih (hf p a h)

/-- A choice of states. -/
theorem good_ite {q : List Instr} {c : Prop} [Decidable c] {a b : State} (ha : c → Good q a) (hb : ¬c → Good q b) : Good q (if c then a else b) := by
  split
  · exact ha ‹_›
  · exact hb ‹_›

/-- A choice of outcomes. -/
theorem goodO_ite {q : List Instr} {c : Prop} [Decidable c] {a b : Out} (ha : c → GoodO q a) (hb : ¬c → GoodO q b) : GoodO q (if c then a else b) := by
  split
  · exact ha ‹_›
  · exact hb ‹_›
end Sys2Proof.Machine
end

