-- ==== Sys2Proof/Laws/Suesk.lean ====
section
/-! SUPPORT. What the shared operations of Suesk instructions do: registers, the processor put back, an instruction that issues and works on
registers alone, and a governed scalar result. -/

namespace Sys2Proof.Machine

/-- A scalar register holds 64 bits. -/
theorem sGet_lt (x : ProcS) (i : Nat) : x.sGet i < 2 ^ 64 := by
  unfold ProcS.sGet; split
  · decide
  · exact Nat.mod_lt _ (by decide)

/-- A scalar register written reads as written, s0 as 0. -/
theorem sGet_sSet (x : ProcS) (i j v : Nat) : (x.sSet i v).sGet j = if j = i ∧ j ≠ 0 then v % 2 ^ 64 else x.sGet j := by
  unfold ProcS.sSet ProcS.sGet
  by_cases hi : i = 0
  · subst hi; by_cases hj : j = 0 <;> simp [hj]
  · by_cases hj : j = 0
    · simp [hj]
    · by_cases h : i = j
      · subst h; simp [hi]
      · simp [hi, hj, h, Ne.symm h]

/-- A running processor put back is the one put. -/
theorem procOf_setProc (s : State) (p : Proc) (h : procRuns s p = true) (x : ProcS) : procOf (setProc s p x) p = x := by
  cases p with
  | lane l =>
    simp only [procRuns, procOf, setProc, laneOf, setLane] at *
    by_cases hl : l.val < s.ssk.lanes.length
    · simp [List.getD, hl]
    · simp [List.getD, hl, ProcS.reset] at h
  | core c =>
    simp only [procRuns, procOf, setProc] at *
    by_cases hl : c.val < s.ssk.cores.length
    · simp [List.getD, hl]
    · simp [List.getD, hl, ProcS.reset] at h

/-- The processor put last stands. -/
theorem setProc_setProc (s : State) (p : Proc) (x y : ProcS) : setProc (setProc s p x) p y = setProc s p y := by
  cases p <;> simp [setProc, setLane]

/-- An instruction on registers alone that issues has its effect and steps on. -/
theorem regsOnly_issues {p : Proc} {n : Need} {s : State} {f : ProcS → ProcS} (h : Issues s p n.size n.sregs n.vregs) (hp : n.prof.has p = true)
    (hl : n.legal = true) (hd : n.drained = false) :
    regsOnly p n s f = .next (setProc s p { f (procOf s p) with pc := ((f (procOf s p)).pc + n.size) % 2 ^ 64 }) := by
  obtain ⟨h1, h2, ⟨h3, u3⟩, hw, h4, h5⟩ := h
  have hst : stalled (procOf s p) n = false := by
    unfold stalled
    simp only [hd, Bool.false_or, List.any_eq_false]
    intro g hg
    have := h5 g hg
    split <;> simp_all
  have h6 : ¬ ((procOf s p).pc % 4 ≠ 0 ∨ !codeAt s p (procOf s p).pc) := by simp [h2, h3]
  have h7 : ¬ (n.size = 8 ∧ !codeAt s p ((procOf s p).pc + 4)) := fun e => by simpa [(h4 e.1).1] using e.2
  have h8 : ¬ (n.size = 8 ∧ (ueIn s 4 (codeSpace s p ((procOf s p).pc + 4))).isSome) := fun e => by simpa [(h4 e.1).2] using e.2
  unfold regsOnly issue
  simp only [h1, Bool.not_true]
  rw [if_neg (by decide)]
  simp only [if_neg h6, if_neg h7, if_neg h8, u3, hw, hp, hl, hst]
  simp [advance, onProc, setProc_setProc, procOf_setProc s p h1]

/-- A governed scalar instruction that issues has its scalar result. -/
theorem scalarResult_of {c : Instr} {s : State} {p : Proc} {n : Need} {d : BitVec 5} {kg : BitVec 3} {v : W64} {g : ProcS → Nat}
    (hc : exec c s = regsOnly p n s (fun x => if x.kGet kg.toNat 0 = kT then x.sSet d.toNat (g x) else x))
    (h : Issues s p n.size n.sregs n.vregs) (hp : n.prof.has p = true)
    (hl : n.legal = true) (hd : n.drained = false) (hv : g (procOf s p) % 2 ^ 64 = v.toNat) :
    ScalarResult c s p n.size d kg v := by
  rw [regsOnly_issues h hp hl hd] at hc
  constructor
  · intro hg
    have hg : (procOf s p).kGet kg.toNat 0 = kT := hg
    rw [if_pos hg] at hc
    refine ⟨_, hc, ?_, ?_⟩
    · unfold ProcS.sSet; split <;> rfl
    · intro r
      have := sGet_sSet (procOf s p) d.toNat r (g (procOf s p))
      simp only [hv] at this
      exact this
  · intro hg
    have hg : ¬ (procOf s p).kGet kg.toNat 0 = kT := hg
    rw [if_neg hg] at hc
    exact hc

end Sys2Proof.Machine
end

