-- ==== Sys2Proof/WellFormed.lean ====
section
/-! DEFINITION. Which commands the outside world can send: the ranges that the spec gives the operands which the types of Syntax.lean leave open.
The meanings are total, and answer an ill-formed command too. -/

namespace Sys2Proof

/-- A word of BAR0, or of BAR2, which the model numbers from 0x200000 (01 R32, R34; log 153). -/
def wfOff (off : Nat) : Bool := decide (off < 0x210000) && off % 4 == 0

/-- The index register of a window (01, Window convention). -/
def wfWin (win : Nat) : Bool := (Machine.winAt? win).isSome

/-- A stream number (04 R116). -/
def wfStream (i : Nat) : Bool := decide (i < 8192)

/-- A session number (10, Session windows). -/
def wfSession (i : Nat) : Bool := decide (1 ≤ i) && decide (i < 256)

/-- Octets. -/
def wfOctets (l : List Nat) : Bool := l.all (fun b => decide (b < 256))

/-- A descriptor and the buffer it names (11 R340). -/
def wfDesc (d : Desc) : Bool :=
  decide (d.addr < 2 ^ 64) && decide (d.len < 2 ^ 24) && decide (d.tag < 2 ^ 16) && wfOctets d.data && decide (d.data.length ≤ d.len) && wfOctets d.src

/-- A signed command (17, Signed commands). -/
def wfKeyCmd (c : KeyCmd) : Bool :=
  decide (c.ver < 2 ^ 16) && decide (c.code < 2 ^ 16) && decide (c.seq < 2 ^ 64) && decide (c.target < 2 ^ 64) && decide (c.kind < 2 ^ 16)
    && wfOctets c.payload && decide (c.r < 2 ^ 384) && decide (c.s < 2 ^ 384)

/-- A mesh frame (15, Frames). -/
def wfMeshFrame (f : MeshFrame) : Bool :=
  decide (f.ftype < 16) && decide (f.net < 2 ^ 16) && decide (f.addr < 2 ^ 16) && wfOctets f.body && decide (f.body.length ≤ 127)

/-- A link frame (16, The twin link). -/
def wfLinkFrame (f : LinkFrame) : Bool :=
  decide (f.ftype < 256) && decide (f.lseq < 2 ^ 32) && decide (f.epoch < 2 ^ 64) && decide (f.role < 4) && wfOctets f.body

/-- A C37.118 frame (04 R113). -/
def wfC37 (f : C37Frame) : Bool :=
  decide (f.idcode < 2 ^ 16) && decide (f.soc < 2 ^ 32) && decide (f.fracsec < 2 ^ 32) && decide (f.cmd < 2 ^ 16) && decide (f.size < 2 ^ 16)

/-- An Ethernet frame (04 R109). -/
def wfEth (f : EthFrame) : Bool :=
  decide (f.len ≤ 9216) && decide (f.udpSrc < 2 ^ 16) && decide (f.udpDst < 2 ^ 16) && decide (f.srcIp < 2 ^ 128) &&
    (match f.payload with | .c37 g => wfC37 g | _ => true)

/-- Is a command one that the outside world can send? Commands whose operands have no range of their own are. -/
def Instr.wf (i : Instr) : Bool :=
  match i with
  | .registerWrite off _ _ => wfOff off
  | .decodeErrorAccess off _ _ _ => wfOff off
  | .rcCounterRead off _ => wfOff off
  | .wideLowRead off _ => wfOff off
  | .windowRead win _ => wfWin win
  | .windowWrite win _ => wfWin win
  | .windowAincRead win => wfWin win
  | .windowAincWrite win _ => wfWin win
  | .windowOpComplete win => wfWin win
  | .ethFrameReceive _ f => wfEth f
  | .internalFrameDeliver f srcIp _ _ => wfC37 f && decide (srcIp < 2 ^ 128)
  | .resamplerOutput stream _ => wfStream stream
  | .sessionFinalSend session _ => wfSession session
  | .keyCellEpochLimit session => wfSession session
  | .c37DataOff session _ udp => wfSession session && decide (udp < 2 ^ 16)
  | .c37DataOn session _ udp => wfSession session && decide (udp < 2 ^ 16)
  | .c37SendHeader session _ udp => wfSession session && decide (udp < 2 ^ 16)
  | .c37SendCfg1 session _ udp => wfSession session && decide (udp < 2 ^ 16)
  | .c37SendCfg2 session _ udp => wfSession session && decide (udp < 2 ^ 16)
  | .c37SendCfg3 session _ udp => wfSession session && decide (udp < 2 ^ 16)
  | .meterCycleComplete _ _ tTick _ _ => decide (tTick < 65536000000000)
  | .descTailWrite _ _ descs => descs.all wfDesc
  | .meshFrameReceive _ f => wfMeshFrame f
  | .twinHelloReceive f => wfLinkFrame f
  | .twinHealthReceive f => wfLinkFrame f
  | .twinCfgReceive f => wfLinkFrame f
  | .twinCopyBeginReceive f => wfLinkFrame f
  | .twinCopyDataReceive f => wfLinkFrame f
  | .twinCopyEndReceive f => wfLinkFrame f
  | .attest c | .installOwner c | .provisionDone c | .ownerRotate c | .secRaise c | .keyLoad c | .keyCommit c | .keyDerive c | .keyDelete c
  | .pair c | .enterDiag c | .zeroize c | .nrgClear c | .logClear c | .unknownCommandCode c => wfKeyCmd c
  | .resetRelease _ _ | .perstReset _ | .ref25Loss _ | .bootExit _ | .logScanComplete | .entropyHealthFail | .pwrFailFall
  | .lastGaspEntry | .lastGaspDomainOff | .lastGaspReset | .vholdLow _ | .tamperAssert _ | .watchdogExpiry _ | .timeNowRead _
  | .blankStateRead _ | .txnBegin _ | .txnPrepare _ | .txnAbort _ | .txnValidationComplete | .oosLaneWrite _ | .oosUnitWrite _
  | .addendCommit _ | .timeStep _ | .timeForceStep _ | .timeDeclareSync _ | .timeEndHoldover _ | .timeForceUnlockWrite _ | .leapApply
  | .holdoverEntry | .ptpFrameReceive _ _ _ | .txtsPop _ | .irigFrame _ | .ppsInEdge | .ppsOutPulse | .ref10mMeasure _ | .ref10mLoss
  | .cmpFireTime _ | .cmpPhaseArm _ | .cmpFirePhase _ | .ethCfgWrite _ _ | .streamHealthClear _ | .blankOpen | .specFillStart _
  | .specFillComplete _ | .sealAll _ | .sealWait _ | .sealEvaluationEnd _ | .amendmentApply _ | .amendmentEnd _ | .ethFrameTransmit _
  | .spcHistClr _ | .spcChannelMissClear _ | .spcFloorWrite _ _ | .workItemDispatch _ | .cyclesLimit _ | .budgetCut _
  | .gatherComplete _ _ | .sskVerify | .sskVerifyComplete | .sskErase | .add _ _ | .sub _ _ | .mul _ _ | .mulhs _ _ | .divf _ _
  | .divu _ _ | .modf _ _ | .modu _ _ | .andOp _ _ | .orOp _ _ | .xorOp _ _ | .shl _ _ | .shr _ _ | .sra _ _ | .minOp _ _ | .maxOp _ _
  | .exts32 _ _ | .extz32 _ _ | .addi _ _ | .andi _ _ | .ori _ _ | .xori _ _ | .shi _ _ | .scmpEq _ _ | .scmpNe _ _ | .scmpLt _ _
  | .scmpGe _ _ | .scmpLtu _ _ | .scmpGeu _ _ | .feq _ _ | .flt _ _ | .fle _ _ | .fadd _ _ | .fsub _ _ | .fmul _ _ | .fdiv _ _
  | .fsqrt _ _ | .fmin _ _ | .fmax _ _ | .fcvtdl _ _ | .fcvtld _ _ | .fcvtds _ _ | .fcvtsd _ _ | .li _ _ | .lih _ _ | .ldb _ _
  | .ldh _ _ | .ldw _ _ | .ldd _ _ | .stb _ _ | .sth _ _ | .stw _ _ | .std _ _ | .vld _ _ | .vst _ _ | .kld _ _ | .kst _ _ | .br _ _
  | .call _ _ | .jmpr _ _ _ | .kand _ _ | .kor _ _ | .knot _ _ | .kandn _ _ | .kmov _ _ | .kset _ _ | .kall _ _ | .kany _ _
  | .ksplat _ _ | .vadd _ _ | .vsub _ _ | .vmul _ _ | .vmulc _ _ | .vdiv _ _ | .vconj _ _ | .vneg _ _ | .vscl _ _ | .vrot _ _
  | .vabs _ _ | .vsqr _ _ | .varg _ _ | .vargd _ _ | .vpolar _ _ | .vcplx _ _ | .vre _ _ | .vim _ _ | .vhull _ _ | .vwiden _ _
  | .vradd _ _ | .vrsub _ _ | .vrmul _ _ | .vrdiv _ _ | .vrsqrt _ _ | .vrmin _ _ | .vrmax _ _ | .vrsin _ _ | .vrcos _ _ | .vrhull _ _
  | .vrabs _ _ | .vcmpGt _ _ | .vcmpGe _ _ | .vcmpLt _ _ | .vcmpLe _ _ | .vcmpEq _ _ | .vcmpNe _ _ | .vmov _ _ | .vsplat _ _ | .vsel _ _
  | .vsumc _ _ | .vrmaxr _ _ | .vrminr _ _ | .vfromi _ _ | .vfromf _ _ | .vtos _ _ | .vins _ _ | .vsplati _ _ | .gth _ _ | .gfl _ _
  | .res _ _ | .chut _ _ | .alrm _ _ | .endOp _ _ | .trap _ _ | .drain _ _ | .ticks _ _ | .nop _ _ | .srget _ _ | .srput _ _
  | .resume _ _ | .doze _ _ | .dozeWake _ | .oscEvaluation _ _ | .islEvaluation _ | .alarmAck _ | .gooseRetransmit | .functionLevelReset
  | .dmaErrorCompletion _ _ | .ringEnable _ _ | .ringDisable _ _ | .cplHeadWrite _ _ | .recordPlace _ | .irqModTimeout _ | .chutePop _ _
  | .chuteFlush _ _ | .chPushSoi _ _ | .chPushHi _ _ | .cmpJobStart _ | .cmpJobComplete _ _ | .mclkConfigWrite _ | .groupRunWrite _
  | .groupImmStart _ | .groupStart _ | .groupStop _ | .channelStuck _ | .channelUnstuck _ | .controlCycleApply _
  | .trackerCrossing _ _ _ | .trackerTimeout _ | .stream0RecordWrite _ _ | .dinChangeAccept _ | .dinEventPop
  | .energySnapshot _ | .energyPeriodicSave | .pulseEdgeAccept _ _ | .xtrigEdge _ | .xtrigPulseEnd _
  | .captureForce _ | .captureEnable _ | .thresholdCrossingLocal _ _ _ | .sequencerTransition _ | .sequencerTimerExpire _ _
  | .postSpanEnd | .recordClose | .captureRearm | .recordCommit _ | .recordCommitted _ | .captureScanEnd | .meshChannelEnable _
  | .meshChannelStart _ | .meshSpiWrite _ | .meshBeaconSend _ | .meshSuperframeEnd _ | .meshCcaBackoffEnd _ _ | .meshWakeSend _ _
  | .meshCapTransmit _ _ | .meshCommandGo _ | .twinLaneUp _ | .twinLaneDown _ _ | .twinLseqTimeout | .twinHelloSend | .twinHealthSend
  | .twinCfgSend | .twinBeaconSend | .twinBeaconReceive _ | .twinContactRecord | .roleChange | .twinCopySent | .twinCopyTimeout
  | .twnRelinquish _ | .twnPartnerDown _ | .twnLinkRestart _ | .twnUnlockWrite _ | .selftestLaneKat _ _ | .selftestCryptoKat _
  | .memoryScrubPass _ | .monitorOutOfLimits | .keyMaskRefresh _ | .keyFlip _ | .nvLineWriteComplete _ | .logRecordWrite _
  | .logSlotLoad _ | .logAutoAdvance _ | .norRead _ | .norProgram _ | .norErase _ | .norVerify _ | .norOpComplete _ _ | .norOpTimeout _
  | .govRampStart | .govRampEnd | .govSettleEnd _ | .jtagBypass | .jtagIdcode | .jtagSamplePreload _ | .jtagExtest | .jtagClamp
  | .jtagHighz | .jtagTrst _ | .pwrFailRise | .ref25Return | .vholdRestore | .holdUpCollapse | .vbatLowChange _ | .batteryLoss
  | .ethPcsLockChange _ _ | .pcieLinkChange _ | .pcieConfigWrite _ _ | .filterStageClip _ _ _ | .shavingStore _ _ _
  | .thresholdUnitArm _ _ _ | .meshTransmitEnd _ | .meshSpiShiftEnd _ => true

end Sys2Proof
end

