-- ==== Sys2Proof/Tests/Slice0.lean ====
section
/-! SUPPORT. Tests of the model, with what they expect from the spec or reckoned from it by hand, an ill-formed command for each check of WellFormed,
and for the statements witnesses of their hypotheses. -/

namespace Sys2Proof.Tests

open Sys2Proof Sys2Proof.Machine

set_option Elab.async false

/-! Helpers. -/

/-- The state that a command leads to; the state itself where it leads to none. -/
def after (c : Instr) (s : State) : State := match exec c s with | .next t => t | _ => s

/-- Does a command lead to a next state? -/
def runs (c : Instr) (s : State) : Bool := match exec c s with | .next _ => true | _ => false

/-- A state in a mode, with registers as given and every domain ON. -/
def inMode (m : Nat) (regs : List (Nat × Nat)) : State :=
  { (regs.foldl (fun s p => wr s p.1 p.2) (wr State.reset Reg.SYS_MODE m)) with ntab := (List.range 40).map (fun d => (cfgKey Win.PWR_DOM d 0, 0x20000000)) }

/-- A table from a list in rising order. -/
def elemsOf (r : Nat) (l : List VEl) : Tab VEl := l.zipIdx.map (fun p => (4 * r + p.2, p.1))

/-- Management core 0 running, with its scalar registers and predicates as given; the words at its addresses 0 and 4 are of ADDI. -/
def coreSt (sr kr : List (Nat × Nat)) : State :=
  { inMode 3 [] with ssk := { State.reset.ssk with
      cores := { ProcS.reset false with s := sr, k := kr } :: List.replicate 3 (ProcS.reset true)
      coreMem := [[(3, 8), (7, 8)], [], [], []] } }

/-- The invocation that the lane tests run under: entry 0, 2 work items, ring 0, chute 1, ALARM_MASK bit 3, blank 100. -/
def inv1 : Inv := ⟨1, 0, [0xC0400000, 0x001003E8, 0x00080064, 0x00010000], 100, 1, 0, 0, 0, 0, 1, 1, false, false, false⟩

/-- Lane 0 running work item 0 of it, chuck A holding code whose first two words are of ADDI. -/
def laneSt (sr : List (Nat × Nat)) (vr : Tab VEl) (kr : List (Nat × Nat)) : State :=
  { inMode 3 [] with ssk := { State.reset.ssk with
      lanes := { ProcS.reset false with s := sr, v := vr, k := kr, item := some (1, 0), pc := 0x20000000 } :: List.replicate 31 (ProcS.reset false)
      chucks := [[(3, 8), (7, 8), (0x15, 16), (0x18, 1), (0x40, 1), (0x49, 16)], []], chuckSt := [3, 0], invs := [inv1] } }

abbrev C0 : Proc := .core 0
abbrev L0 : Proc := .lane 0
abbrev r312 : FmtR := ⟨3, 1, 2, 0⟩

/-- Scalar register 3 after an instruction of core 0. -/
def s3 (c : Instr) (sr : List (Nat × Nat)) : Nat := (procOf (after c (coreSt sr [])) C0).sGet 3
/-- Element 0 of v3 after an instruction of lane 0. -/
def v3 (c : Instr) (a b : VEl) : VEl := (procOf (after c (laneSt [] (elemsOf 1 [a] ++ elemsOf 2 [b]) [])) L0).vGet 3 0
/-- Element 0 of k1 after an instruction of lane 0. -/
def k1 (c : Instr) (a b : VEl) : Nat := (procOf (after c (laneSt [] (elemsOf 1 [a] ++ elemsOf 2 [b]) [])) L0).kGet 1 0

abbrev one : VEl := ⟨0x3F800000, 0, 0⟩
abbrev two : VEl := ⟨0x40000000, 0, 0⟩

/-! Suesk arithmetic (08 R250 to R254). -/

theorem test_salu_wraps : s3 (.add C0 r312) [(1, 2 ^ 64 - 1), (2, 7)] = 6 ∧ s3 (.sub C0 r312) [(1, 3), (2, 7)] = 2 ^ 64 - 4 ∧
    s3 (.mul C0 r312) [(1, 2 ^ 63), (2, 3)] = 2 ^ 63 ∧ s3 (.mulhs C0 r312) [(1, 2 ^ 64 - 1), (2, 2)] = 2 ^ 64 - 1 := by decide +kernel
theorem test_division : s3 (.divf C0 r312) [(1, 2 ^ 64 - 7), (2, 2)] = 2 ^ 64 - 4 ∧ s3 (.divf C0 r312) [(1, 5)] = 2 ^ 63 - 1 ∧
    s3 (.divf C0 r312) [(1, 2 ^ 63), (2, 2 ^ 64 - 1)] = 2 ^ 63 - 1 ∧ s3 (.divu C0 r312) [(1, 5)] = 2 ^ 64 - 1 ∧ s3 (.divu C0 r312) [(1, 9), (2, 2)] = 4 ∧
    s3 (.modf C0 r312) [(1, 2 ^ 64 - 7), (2, 2)] = 1 ∧ s3 (.modf C0 r312) [(1, 5)] = 0 ∧ s3 (.modu C0 r312) [(1, 9), (2, 4)] = 1 := by decide +kernel
theorem test_logic_and_shifts : s3 (.andOp C0 r312) [(1, 12), (2, 10)] = 8 ∧ s3 (.orOp C0 r312) [(1, 12), (2, 10)] = 14 ∧
    s3 (.xorOp C0 r312) [(1, 12), (2, 10)] = 6 ∧ s3 (.shl C0 r312) [(1, 3), (2, 65)] = 6 ∧ s3 (.shr C0 r312) [(1, 2 ^ 63), (2, 63)] = 1 ∧
    s3 (.sra C0 r312) [(1, 2 ^ 63), (2, 63)] = 2 ^ 64 - 1 ∧ s3 (.minOp C0 r312) [(1, 2 ^ 63), (2, 1)] = 2 ^ 63 ∧
    s3 (.maxOp C0 r312) [(1, 2 ^ 63), (2, 1)] = 1 ∧ s3 (.exts32 C0 ⟨3, 1, 0, 0⟩) [(1, 2 ^ 31)] = 2 ^ 64 - 2 ^ 31 ∧
    s3 (.extz32 C0 ⟨3, 1, 0, 0⟩) [(1, 2 ^ 40 + 2 ^ 31)] = 2 ^ 31 := by decide +kernel
theorem test_immediates : s3 (.addi C0 ⟨3, 1, 0xFFFF⟩) [(1, 5)] = 4 ∧ s3 (.andi C0 ⟨3, 1, 0xFFFF⟩) [(1, 2 ^ 20 + 1)] = 1 ∧
    s3 (.ori C0 ⟨3, 1, 0x8000⟩) [(1, 1)] = 0x8001 ∧ s3 (.xori C0 ⟨3, 1, 3⟩) [(1, 1)] = 2 ∧ s3 (.shi C0 ⟨3, 1, 6⟩) [(1, 1)] = 64 ∧
    s3 (.shi C0 ⟨3, 1, 65⟩) [(1, 4)] = 2 ∧ s3 (.shi C0 ⟨3, 1, 191⟩) [(1, 2 ^ 63)] = 2 ^ 64 - 1 ∧
    s3 (.li C0 ⟨3, 0, 0, 0, 0x80000000⟩) [] = 2 ^ 64 - 2 ^ 31 ∧ s3 (.lih C0 ⟨3, 0, 0, 0, 5⟩) [(3, 2 ^ 40 + 7)] = 5 * 2 ^ 32 + 7 := by decide +kernel
theorem test_shi_reserved_traps : (procOf (after (.shi C0 ⟨3, 1, 192⟩) (coreSt [] [])) C0).fltCode = 1 ∧
    (procOf (after (.shi C0 ⟨3, 1, 192⟩) (coreSt [] [])) C0).fault = true := by decide +kernel
theorem test_floats : s3 (.fadd C0 r312) [(1, 0x3FF0000000000000), (2, 0x4000000000000000)] = 0x4008000000000000 ∧
    s3 (.fsub C0 r312) [(1, 0x3FF0000000000000), (2, 0x4000000000000000)] = 0xBFF0000000000000 ∧
    s3 (.fmul C0 r312) [(1, 0x4000000000000000), (2, 0x4000000000000000)] = 0x4010000000000000 ∧
    s3 (.fdiv C0 r312) [(1, 0x3FF0000000000000), (2, 0x4000000000000000)] = 0x3FE0000000000000 ∧
    s3 (.fsqrt C0 ⟨3, 1, 0, 0⟩) [(1, 0x4010000000000000)] = 0x4000000000000000 ∧
    s3 (.fmin C0 r312) [(1, 0x3FF0000000000000), (2, 0x4000000000000000)] = 0x3FF0000000000000 ∧
    s3 (.fmax C0 r312) [(1, 0x3FF0000000000000), (2, 0x4000000000000000)] = 0x4000000000000000 ∧
    s3 (.fadd C0 r312) [(1, 0x7FF0000000000000), (2, 0xFFF0000000000000)] = 0x7FF8000000000000 := by decide +kernel
theorem test_conversions : s3 (.fcvtdl C0 ⟨3, 1, 0, 0⟩) [(1, 2 ^ 64 - 1)] = 0xBFF0000000000000 ∧
    s3 (.fcvtld C0 ⟨3, 1, 0, 0⟩) [(1, 0xC000000000000000)] = 2 ^ 64 - 2 ∧ s3 (.fcvtld C0 ⟨3, 1, 0, 0⟩) [(1, 0x7FF8000000000000)] = 0 ∧
    s3 (.fcvtds C0 ⟨3, 1, 0, 0⟩) [(1, 0x40000000)] = 0x4000000000000000 ∧ s3 (.fcvtsd C0 ⟨3, 1, 0, 0⟩) [(1, 0x4000000000000000)] = 0x40000000 := by
  decide +kernel
theorem test_s0_reads_zero : (procOf (after (.addi C0 ⟨0, 1, 1⟩) (coreSt [(1, 5)] [])) C0).sGet 0 = 0 ∧
    (procOf (after (.addi C0 ⟨0, 1, 1⟩) (coreSt [(1, 5)] [])) C0).pc = 4 := by decide +kernel

/-! Predicates and control flow (R257, R258, R260, R252). -/

/-- Element 0 of k1 after an instruction of core 0. -/
def ck (c : Instr) (sr kr : List (Nat × Nat)) : Nat := (procOf (after c (coreSt sr kr)) C0).kGet 1 0

theorem test_scmp : ck (.scmpEq C0 ⟨1, 0, 1, 2, 0⟩) [(1, 5), (2, 5)] [] = 1 ∧ ck (.scmpNe C0 ⟨1, 0, 1, 2, 0⟩) [(1, 5), (2, 5)] [] = 0 ∧
    ck (.scmpLt C0 ⟨1, 0, 1, 2, 0⟩) [(1, 2 ^ 63), (2, 5)] [] = 1 ∧ ck (.scmpGe C0 ⟨1, 0, 1, 2, 0⟩) [(1, 2 ^ 63), (2, 5)] [] = 0 ∧
    ck (.scmpLtu C0 ⟨1, 0, 1, 2, 0⟩) [(1, 2 ^ 63), (2, 5)] [] = 0 ∧ ck (.scmpGeu C0 ⟨1, 0, 1, 2, 0⟩) [(1, 2 ^ 63), (2, 5)] [] = 1 := by decide +kernel
theorem test_fcmp_nan : ck (.feq C0 ⟨1, 0, 1, 2, 0⟩) [(1, 0x7FF8000000000000), (2, 0x7FF8000000000000)] [] = 0 ∧
    ck (.flt C0 ⟨1, 0, 1, 2, 0⟩) [(1, 0x3FF0000000000000), (2, 0x4000000000000000)] [] = 1 ∧
    ck (.fle C0 ⟨1, 0, 1, 2, 0⟩) [(1, 0x4000000000000000), (2, 0x4000000000000000)] [] = 1 := by decide +kernel
theorem test_kleene : ck (.kand C0 ⟨1, 2, 3, 0, 0⟩) [] [(8, 0), (12, 2)] = 0 ∧ ck (.kor C0 ⟨1, 2, 3, 0, 0⟩) [] [(8, 0), (12, 2)] = 2 ∧
    ck (.knot C0 ⟨1, 2, 0, 0, 0⟩) [] [(8, 0)] = 1 ∧ ck (.kandn C0 ⟨1, 0, 2, 0, 0⟩) [] [(8, 0)] = 1 ∧ ck (.kmov C0 ⟨1, 2, 0, 0, 0⟩) [] [(8, 0)] = 0 ∧
    ck (.kset C0 ⟨1, 0, 0, 0, 3⟩) [] [] = 2 ∧ ck (.kall C0 ⟨1, 2, 0, 0, 0⟩) [] [(8, 1)] = 1 ∧ ck (.kany C0 ⟨1, 2, 0, 0, 0⟩) [] [(8, 1)] = 1 ∧
    ck (.ksplat C0 ⟨1, 2, 0, 0, 1⟩) [] [(8, 1)] = 1 := by decide +kernel
theorem test_governed_merge : ck (.kmov C0 ⟨1, 0, 0, 2, 0⟩) [] [(4, 1), (8, 2)] = 1 ∧ ck (.kmov C0 ⟨1, 0, 0, 2, 0⟩) [] [(4, 0), (8, 2)] = 2 ∧
    ck (.kmov C0 ⟨1, 0, 0, 2, 0⟩) [] [(4, 0), (8, 0)] = 0 := by decide +kernel
theorem test_branches : (procOf (after (.br C0 ⟨1, 1, 0xFFFFF⟩) { coreSt [] [(4, 1)] with cycle := 1 }) C0).pc = 2 ^ 64 - 4 ∧
    (procOf (after (.br C0 ⟨1, 1, 8⟩) (coreSt [] [(4, 0)])) C0).pc = 4 ∧ (procOf (after (.br C0 ⟨0, 6, 8⟩) (coreSt [] [])) C0).pc = 32 ∧
    (procOf (after (.call C0 2) (coreSt [] [])) C0).pc = 8 ∧ (procOf (after (.call C0 2) (coreSt [] [])) C0).sGet 31 = 4 ∧
    (procOf (after (.jmpr C0 ⟨3, 1, 2, 0⟩ 1) (coreSt [(1, 16), (2, 8)] [])) C0).pc = 24 ∧
    (procOf (after (.jmpr C0 ⟨3, 1, 2, 0⟩ 1) (coreSt [(1, 16), (2, 8)] [])) C0).sGet 3 = 4 := by decide +kernel
theorem test_nop_drain : (procOf (after (.nop C0 ⟨0, 0, 0, 0⟩) (coreSt [] [])) C0).pc = 4 ∧
    (procOf (after (.drain C0 ⟨0, 0, 0, 0⟩) (coreSt [] [])) C0).pc = 4 := by decide +kernel

/-! Vector instructions (R248, R249, R261 to R266): w(c) is 2^-21 times the larger part, and the real domain adds none. -/

theorem test_vector_complex : v3 (.vadd L0 r312) one two = ⟨0x40400000, 0, 0x35C00000⟩ ∧ v3 (.vsub L0 r312) one two = ⟨0xBF800000, 0, 0x35000000⟩ ∧
    v3 (.vmul L0 r312) two two = ⟨0x40800000, 0, 0x36000000⟩ ∧ v3 (.vconj L0 ⟨3, 1, 0, 0⟩) ⟨0x3F800000, 0x40000000, 5⟩ one = ⟨0x3F800000, 0xC0000000, 5⟩ ∧
    v3 (.vneg L0 ⟨3, 1, 0, 0⟩) ⟨0x3F800000, 0x40000000, 5⟩ one = ⟨0xBF800000, 0xC0000000, 5⟩ ∧
    v3 (.vadd L0 r312) VEl.every two = VEl.every := by decide +kernel
theorem test_vector_complex_2 : v3 (.vmulc L0 r312) ⟨0, 0x3F800000, 0⟩ ⟨0, 0x3F800000, 0⟩ = ⟨0x3F800000, 0, 0x35000000⟩ ∧
    v3 (.vdiv L0 r312) two ⟨0, 0, 0⟩ = VEl.every ∧ v3 (.vhull L0 r312) one one = ⟨0x3F800000, 0, 0x35000000⟩ ∧
    v3 (.vcplx L0 r312) one two = ⟨0x3F800000, 0x40000000, 0x35800000⟩ := by decide +kernel
theorem test_vector_real : v3 (.vradd L0 r312) one two = ⟨0x40400000, 0, 0⟩ ∧ v3 (.vrsub L0 r312) one two = ⟨0xBF800000, 0, 0⟩ ∧
    v3 (.vrmul L0 r312) two two = ⟨0x40800000, 0, 0⟩ ∧ v3 (.vrdiv L0 r312) one two = ⟨0x3F000000, 0, 0⟩ ∧
    v3 (.vrmin L0 r312) one two = one ∧ v3 (.vrmax L0 r312) one two = two ∧ v3 (.vrhull L0 r312) one ⟨0x40400000, 0, 0⟩ = ⟨0x40000000, 0, 0x3F800000⟩ ∧
    v3 (.vrabs L0 ⟨3, 1, 0, 0⟩) ⟨0xBF800000, 0, 0⟩ one = one ∧ v3 (.vrsqrt L0 ⟨3, 1, 0, 0⟩) ⟨0x40800000, 0, 0⟩ one = two := by decide +kernel
theorem test_vector_parts : v3 (.vre L0 ⟨3, 1, 0, 0⟩) ⟨0x3F800000, 0x40000000, 0⟩ one = one ∧ v3 (.vim L0 ⟨3, 1, 0, 0⟩) ⟨0x3F800000, 0x40000000, 0⟩ one = two ∧
    v3 (.vsqr L0 ⟨3, 1, 0, 0⟩) two one = ⟨0x40800000, 0, 0⟩ ∧ v3 (.vrdiv L0 r312) one ⟨0, 0, 0⟩ = VEl.every ∧
    v3 (.vscl L0 ⟨3, 1, 0, 0⟩) two one = ⟨0, 0, 0⟩ ∧ v3 (.vwiden L0 ⟨3, 1, 0, 0⟩) two one = ⟨0x40000000, 0, 0x35800000⟩ := by decide +kernel
theorem test_vcmp : k1 (.vcmpGt L0 ⟨1, 0, 1, 2, 0⟩) two one = 1 ∧ k1 (.vcmpGt L0 ⟨1, 0, 1, 2, 0⟩) one two = 0 ∧
    k1 (.vcmpGt L0 ⟨1, 0, 1, 2, 0⟩) ⟨0x40000000, 0, 0x3F800000⟩ ⟨0x3F800000, 0, 0x3F800000⟩ = 2 ∧ k1 (.vcmpGe L0 ⟨1, 0, 1, 2, 0⟩) one one = 1 ∧
    k1 (.vcmpLt L0 ⟨1, 0, 1, 2, 0⟩) one one = 0 ∧ k1 (.vcmpLe L0 ⟨1, 0, 1, 2, 0⟩) one one = 1 ∧ k1 (.vcmpEq L0 ⟨1, 0, 1, 2, 0⟩) one one = 1 ∧
    k1 (.vcmpNe L0 ⟨1, 0, 1, 2, 0⟩) one two = 1 ∧ k1 (.vcmpEq L0 ⟨1, 0, 1, 2, 0⟩) VEl.every one = 2 := by decide +kernel
theorem test_vector_moves : v3 (.vmov L0 ⟨3, 1, 0, 0⟩) two one = two ∧ v3 (.vsplat L0 ⟨3, 1, 0, 0⟩) two one = two ∧ v3 (.vsel L0 r312) one two = one ∧
    v3 (.vins L0 ⟨3, 1, 0, 0⟩) two one = two ∧ v3 (.vsplati L0 ⟨3, 0, 0, 0, 0x3F800000⟩) two two = one ∧
    (procOf (after (.vtos L0 ⟨3, 1, 0, 0⟩) (laneSt [] (elemsOf 1 [two]) [])) L0).sGet 3 = 0x40000000 ∧
    (procOf (after (.vfromi L0 ⟨3, 1, 0, 0⟩) (laneSt [(1, 2)] [] [])) L0).vGet 3 2 = two ∧
    (procOf (after (.vfromf L0 ⟨3, 1, 0, 0⟩) (laneSt [(1, 0x3F800000)] [] [])) L0).vGet 3 1 = one := by decide +kernel
theorem test_vector_reductions : (procOf (after (.vsumc L0 ⟨3, 1, 0, 0⟩) (laneSt [] (elemsOf 1 [one, one, one, one]) [])) L0).vGet 3 0 = ⟨0x40800000, 0, 0x36000000⟩ ∧
    (procOf (after (.vrmaxr L0 ⟨3, 1, 0, 0⟩) (laneSt [] (elemsOf 1 [one, two, one, one]) [])) L0).vGet 3 0 = two ∧
    (procOf (after (.vrminr L0 ⟨3, 1, 0, 0⟩) (laneSt [] (elemsOf 1 [two, two, one, two]) [])) L0).vGet 3 3 = one := by decide +kernel

/-! Memory (R255, R256; 07 R211). -/

theorem test_store_load : (procOf (after (.ldh C0 ⟨3, 2, 0, 1⟩) (after (.stw C0 ⟨1, 2, 0, 0⟩) (coreSt [(1, 0x12345678), (2, 256)] []))) C0).sGet 3 = 0x1234 ∧
    (procOf (after (.ldb C0 ⟨3, 2, 0, 3⟩) (after (.std C0 ⟨1, 2, 0, 0⟩) (coreSt [(1, 0x80000000), (2, 256)] []))) C0).sGet 3 = 128 ∧
    (procOf (after (.ldw C0 ⟨3, 2, 0, 0⟩) (after (.sth C0 ⟨1, 2, 0, 0⟩) (coreSt [(1, 0x1FFFF), (2, 256)] []))) C0).sGet 3 = 0xFFFF ∧
    (procOf (after (.ldd C0 ⟨3, 2, 0, 0⟩) (after (.stb C0 ⟨1, 2, 0, 7⟩) (coreSt [(1, 0x180), (2, 256)] []))) C0).sGet 3 = 2 ^ 63 := by decide +kernel
theorem test_misaligned : (procOf (after (.ldw C0 ⟨3, 1, 0, 0⟩) (coreSt [(1, 2)] [])) C0).fltCode = 3 ∧
    (procOf (after (.ldw C0 ⟨3, 1, 0, 0⟩) (coreSt [(1, 2)] [])) C0).fltAddr = 2 ∧ (procOf (after (.ldw C0 ⟨3, 1, 0, 0⟩) (coreSt [(1, 0x50000)] [])) C0).fltCode = 4 := by
  decide +kernel
theorem test_vector_memory :
    (procOf (after (.vld L0 ⟨3, 0, 0, 1⟩) (after (.vst L0 ⟨1, 0, 0, 1⟩) (laneSt [] (elemsOf 1 [one, two, one, two]) []))) L0).vGet 3 1 = two ∧
    (procOf (after (.kld L0 ⟨2, 0, 0, 0⟩) (after (.kst L0 ⟨1, 0, 0, 0⟩) (laneSt [] [] [(4, 0), (5, 1), (6, 1), (7, 0)]))) L0).kGet 2 1 = 1 := by decide +kernel

/-! Gathers, results, items, alarms and the ends of work items (R267 to R275; 07 R222 to R232). -/

theorem test_gather_waits : (procOf (after (.gth L0 ⟨1, 1, 0, 0, 0, 0⟩) (laneSt [(1, 5)] [] [])) L0).gath = [⟨false, 1, 100, [(1, 5), (1, 6), (1, 7), (1, 8)]⟩] ∧
    (procOf (after (.gfl L0 ⟨3, 1, 0, 0, 2, 0⟩) (laneSt [(1, 5)] [] [])) L0).gath = [⟨true, 3, 98, [(1, 5)]⟩] ∧
    (procOf (after (.gatherComplete 0 0) (after (.gth L0 ⟨1, 1, 0, 0, 0, 0⟩) (laneSt [(1, 5)] [] []))) L0).gath = [] := by decide +kernel
theorem test_gather_range : (laneOf (after (.gth L0 ⟨1, 1, 0, 0, 0, 0⟩) (laneSt [(1, 196608)] [] [])) 0).item = none ∧
    rd (after (.gth L0 ⟨1, 1, 0, 0, 0, 0⟩) (laneSt [(1, 196608)] [] [])) Reg.SSK_EXC = 1 := by decide +kernel
theorem test_alarm_requests : rd (after (.alrm L0 ⟨0, 0, 3, 0⟩) (laneSt [] [] [])) Reg.SSK_ALARM_REQ = 1 ∧
    rd (after (.alrm L0 ⟨0, 0, 4, 0⟩) (laneSt [] [] [])) Reg.SSK_ALARM_DENIED = 1 := by decide +kernel
theorem test_end_trap_limit : (laneOf (after (.endOp L0 ⟨0, 0, 0, 0⟩) (laneSt [] [] [])) 0).item = none ∧
    rd (after (.trap L0 ⟨1, 4, 0, 0⟩) (laneSt [] [] [])) Reg.SSK_EXC = 1 ∧ (laneOf (after (.cyclesLimit 0) (laneSt [] [] [])) 0).item = none ∧
    (after (.budgetCut 1) (laneSt [] [] [])).ssk.invs = [] ∧ rd (after (.budgetCut 1) (laneSt [] [] [])) Reg.SSK_BUDGET_CUT = 1 := by decide +kernel
theorem test_dispatch : (laneOf (after (.workItemDispatch 1) (laneSt [] [] [])) 1).item = some (1, 1) ∧
    (laneOf (after (.workItemDispatch 1) (laneSt [] [] [])) 1).sGet 1 = 1 ∧ (laneOf (after (.workItemDispatch 1) (laneSt [] [] [])) 1).sGet 2 = 2 ∧
    (laneOf (after (.workItemDispatch 1) (laneSt [] [] [])) 1).pc = 0x20000000 := by decide +kernel
theorem test_core_system : (procOf (after (.srget C0 ⟨3, 0, 17, 0⟩) { coreSt [] [] with cycle := 5 }) C0).sGet 3 = 10 ∧
    (procOf (after (.srput C0 ⟨1, 0, 0, 0⟩) (coreSt [(1, 64)] [])) C0).fltEntry = 64 ∧ (procOf (after (.ticks C0 ⟨3, 0, 0, 0⟩) (coreSt [] [])) C0).pc = 4 ∧
    (procOf (after (.doze C0 ⟨0, 0, 0, 0⟩) (coreSt [] [])) C0).dozing = true ∧ (procOf (after (.resume C0 ⟨0, 0, 0, 0⟩) (coreSt [] [])) C0).fault = false ∧
    (procOf (after (.dozeWake 0) (after (.doze C0 ⟨0, 0, 0, 0⟩) (coreSt [] []))) C0).dozing = true := by decide +kernel
theorem test_program_sets : (after .sskErase { laneSt [] [] [] with regs := [(8, 3), (Reg.SSK_CHUCK_SEL, 1)] }).ssk.chuckSt = [0, 0] ∧
    (after .sskVerify { laneSt [] [] [] with regs := [(8, 3), (Reg.SSK_CHUCK_SEL, 1)] }).ssk.chuckSt = [2, 0] ∧
    (after .sskVerifyComplete (after .sskVerify { laneSt [] [] [] with regs := [(8, 3), (Reg.SSK_CHUCK_SEL, 1)] })).ssk.chuckSt.getD 1 9 = 0 := by decide +kernel
theorem test_result_overflow_and_item : rd (after (.res L0 ⟨1, 0, 0, 0⟩) (laneSt [(1, 9)] [] [])) Reg.SSK_RES_OVF = 1 ∧
    runs (.chut L0 ⟨3, 0, 1, 0⟩) (laneSt [(1, 2)] [] []) = true := by decide +kernel

/-! Witnesses for the statements about Suesk. -/

theorem witness_SaluResults : Issues (coreSt [(1, 5)] []) C0 4 [3, 1, 2] [] ∧ Issues (laneSt [] [] []) L0 4 [31, 31, 31] [] := by
  unfold Issues Fetches; decide +kernel
theorem witness_ImmediateResults : Issues (coreSt [] []) C0 8 [3] [] ∧ Issues (laneSt [] [] []) L0 8 [0] [] := by unfold Issues Fetches; decide +kernel
theorem witness_BinaryFloatResults : Issues (coreSt [] []) C0 4 [3, 1, 2] [] ∧ isNaN f64 0x7FF0000000000001 = true := by unfold Issues Fetches; decide +kernel
theorem witness_ScalarComparisons : (0 : BitVec 2) = 0 ∧ Issues (coreSt [] []) C0 4 [1, 2] [] ∧ isNaN f64 0xFFF8000000000000 = true := by
  unfold Issues Fetches; decide +kernel
theorem witness_PredicateLogic : Issues (coreSt [] []) C0 4 [] [] ∧ Issues (laneSt [] [] []) L0 4 [] [] := by unfold Issues Fetches; decide +kernel
theorem witness_ControlFlow : Issues (coreSt [] []) C0 4 [31] [] ∧ Issues (laneSt [] [] []) L0 4 [] [] ∧ (procOf (coreSt [] []) C0).gath = [] := by
  unfold Issues Fetches; decide +kernel
theorem witness_ComplexVectorResults : Issues (laneSt [] [] []) L0 4 [] [3, 1, 2] ∧ Issues (laneSt [] [] []) L0 4 [2] [3, 1] := by
  unfold Issues Fetches; decide +kernel
theorem witness_RealVectorResults : Issues (laneSt [] [] []) L0 4 [] [31, 1, 2] := by unfold Issues Fetches; decide +kernel
theorem witness_VectorMoves : Issues (laneSt [] [] []) L0 4 [3, 1] [3, 1, 2] ∧ Issues (laneSt [] [] []) L0 8 [] [3] := by unfold Issues Fetches; decide +kernel
theorem witness_IntervalComparisons : (0 : BitVec 2) = 0 ∧ Issues (laneSt [] [] []) L0 4 [] [1, 2] := by unfold Issues Fetches; decide +kernel
theorem witness_ScalarMemoryAccess : Issues (coreSt [(1, 0x3FFF8)] []) C0 4 [3, 1] [] ∧ Governed (coreSt [(1, 0x3FFF8)] []) C0 0 ∧
    spaceOf (coreSt [] []) C0 0x3FFF8 8 true false = some (.core 0 0x3FFF8) ∧ spaceOf (coreSt [] []) C0 0x3FFFC 8 true false = none ∧
    spaceOf (coreSt [] []) C0 0x80000008 4 false true = some (.dev 8) ∧ ¬Governed (coreSt [] [(4, 0)]) C0 1 := by
  unfold Issues Fetches Governed; decide +kernel
theorem witness_VectorMemoryAccess : Issues (laneSt [] [] []) L0 4 [1] [3] ∧ spaceOf (laneSt [] [] []) L0 0xFFD0 48 true false = some (.scratch 0 0xFFD0) ∧
    spaceOf (laneSt [] [] []) L0 0xFFE0 48 true false = none := by unfold Issues Fetches; decide +kernel
theorem witness_DataSpaces : (laneOf (laneSt [] [] []) 0).item = some (1, 0) ∧ invOf (laneSt [] [] []) 1 = some inv1 ∧
    (0 < 4 ∧ 0x10000000 + 4 ≤ 0x10020000) := by decide +kernel
theorem witness_GatherResults : (laneOf (laneSt [(1, 196604)] [] []) 0).item = some (1, 0) ∧ invOf (laneSt [] [] []) 1 = some inv1 ∧
    Issues (laneSt [(1, 196604)] [] []) L0 4 [1, 2] [3] ∧ (procOf (laneSt [(1, 196604)] [] []) L0).gath.length < 8 ∧
    (sReg (laneSt [(1, 196604)] [] []) L0 1).toInt = 196604 := by unfold Issues Fetches; decide +kernel
theorem witness_ResultsItemsAndAlarms : (laneOf (laneSt [] [] []) 0).item = some (inv1.id, 0) ∧ invOf (laneSt [] [] []) inv1.id = some inv1 ∧
    (laneOf (laneSt [] [] []) 0).gath = [] ∧ Issues (laneSt [(1, 224)] [] []) L0 4 [3, 0, 1] [] ∧ Governed (laneSt [(1, 224)] [] []) L0 0 ∧
    spaceOf (laneSt [] [] []) L0 0 224 false false = some (.scratch 0 0) ∧ spaceOf (laneSt [] [] []) L0 0 64 false false = some (.scratch 0 0) := by
  unfold Issues Fetches Governed; decide +kernel
theorem witness_WorkItemEnds : (laneSt [] [] []).ssk.lanes.length = 32 ∧ (laneOf (laneSt [] [] []) 0).item = some (inv1.id, 0) ∧
    Issues (laneSt [] [] []) L0 4 [] [] ∧ Governed (laneSt [] [] []) L0 0 ∧ (laneSt [] [] []).sys.oosLane.testBit 0 = false := by
  unfold Issues Fetches Governed; decide +kernel
theorem witness_CoreSystemInstructions : Issues (coreSt [] []) C0 4 [] [] ∧ Governed (coreSt [] []) C0 0 ∧
    (procOf (after (.doze C0 ⟨0, 0, 0, 0⟩) (coreSt [] [])) C0).dozing = true := by unfold Issues Fetches Governed; decide +kernel
theorem witness_WorkItemDispatch : (laneSt [] [] []).ssk.lanes.length = 32 ∧ laneFree (laneSt [] [] []) 1 = true ∧ inv1 ∈ (laneSt [] [] []).ssk.invs ∧
    inv1.cut = false ∧ inv1.sent < ktWork inv1.words ∧ laneFree (laneSt [] [] []) 0 = false := by decide +kernel
theorem witness_WorkItemLimits : (laneSt [] [] []).ssk.lanes.length = 32 ∧ (laneOf (laneSt [] [] []) 0).item = some (inv1.id, 0) ∧
    invOf (laneSt [] [] []) inv1.id = some inv1 ∧ inv1.running = ((List.range 32).filter (fun l => ((laneOf (laneSt [] [] []) l).item.map (·.1)) == some inv1.id)).length ∧
    (laneOf (laneSt [] [] []) 1).item = none ∧ invOf (laneSt [] [] []) 7 = none := by decide +kernel
theorem witness_ProgramSets : gated (laneSt [] [] []) Reg.SSK_CTRL = false ∧ (laneSt [] [] []).ssk.chuckSt.length = 2 ∧
    (laneSt [] [] []).ssk.chucks.length = 2 ∧ { (laneSt [] [] []).ssk with chuckSt := [2, 3] }.chuckSt.getD 0 0 = 2 := by decide +kernel

/-! Registers, windows, modes, resets, transactions, time (00 to 03; 19). -/

/-- A device in SOLO with every domain ON. -/
abbrev solo : State := inMode 3 []

theorem test_no_register : rd (after (.decodeErrorAccess 0x1F0000 false 0 15) solo) Reg.SYS_BADADDR = 0x1F0000 ∧
    rd (after (.registerWrite 0x1F0000 0 15) solo) Reg.SYS_BADADDR = 0x1F0001 ∧ rd (after (.registerWrite 0x10004 0 3) solo) Reg.SYS_BADADDR = 0x10007 ∧
    rd (after (.registerWrite 0x10004 0 3) solo) Reg.PWR_GOV_CFG = 0x28 := by decide +kernel
theorem test_register_write : rd (after (.registerWrite 0x10004 0xFFFFFFC5 15) solo) 0x10004 = 5 ∧ rd (after (.registerWrite 0 5 15) solo) 0 = 0x7A192001 ∧
    runs (.registerWrite 0x300000 0 15) solo = false := by decide +kernel
theorem test_reads : (after (.rcCounterRead 0x10004 15) solo).hostData = 0x28 ∧ (after (.timeNowRead 15) { solo with now := 5 * 10 ^ 9 * 2 ^ 48 }).hostData = 5 ∧
    (after (.blankStateRead 15) solo).hostData = 0 ∧ (after (.wideLowRead Reg.NVS_NOR_BUF_LO 15) solo).hostData = 0 := by decide +kernel
theorem test_window : rd (after (.windowWrite Win.OUT_SESS 7) solo) Reg.TXN_STATUS = 0x200 ∧
    (after (.windowRead Win.TIME_CMP 7) solo).winOps = [⟨Win.TIME_CMP, false, 7, [0, 0, 0, 0, 0, 0], 0⟩] ∧
    bit (after (.windowRead Win.TIME_CMP 64) solo) Win.TIME_CMP 28 = true ∧
    bit (after (.windowOpComplete Win.TIME_CMP) (after (.windowRead Win.TIME_CMP 7) solo)) Win.TIME_CMP 31 = false ∧
    fld (after (.windowAincRead Win.TIME_CMP) (wr solo Win.TIME_CMP 0x01000007)) Win.TIME_CMP 19 0 = 8 ∧
    fld (after (.windowAincWrite Win.TIME_CMP 5) (wr solo Win.TIME_CMP 0x01000007)) Win.TIME_CMP 19 0 = 8 := by decide +kernel
theorem test_modes : rd (after (.tamperAssert 1000) solo) Reg.SYS_MODE = 0x300C0A ∧
    rd (after .lastGaspEntry { solo with pwr := { solo.pwr with fallAt := some 0 } }) Reg.SYS_MODE = 0x300B09 ∧
    rd (after (.bootExit false) { State.reset with pins := { State.reset.pins with ref25 := true } }) Reg.SYS_MODE = 0x120B ∧
    bit (after .entropyHealthFail solo) Reg.KEY_STATUS 1 = true := by decide +kernel
theorem test_resets : rd (after (.resetRelease 10000 true) solo) Reg.SYS_MODE = 0x100 ∧ bit (after (.resetRelease 10000 true) solo) Reg.TWN_STATUS 31 = true ∧
    mode (after (.perstReset 10000) solo) = 0 ∧ mode (after (.perstReset 999) solo) = 3 ∧ (after (.ref25Loss 10001) solo).pins.ref25 = false ∧
    (after .ref25Return (after (.ref25Loss 10001) solo)).pins.ref25 = true := by decide +kernel
theorem test_watchdog : (after (.watchdogExpiry 0) (coreSt [] [])).cycle = 50000000 ∧ (after (.watchdogExpiry 0) (coreSt [] [])).sys.wdog = [50000000] := by
  decide +kernel
theorem test_power : (after .pwrFailFall solo).pwr.fallAt = some 0 ∧ (after .pwrFailRise (after .pwrFailFall solo)).pwr.fallAt = none ∧
    rd (after .pwrFailRise (after .pwrFailFall solo)) Reg.PWR_PF_GLITCH = 1 ∧ bit (after (.vbatLowChange true) solo) Reg.PWR_STATUS 10 = true ∧
    bit (after .vholdRestore solo) Reg.PWR_STATUS 9 = true ∧ rd (after (.vholdLow 4999) (wr solo Reg.PWR_STATUS 0x200)) Reg.PWR_HOLD_LOW = 1 ∧
    (after .batteryLoss solo).key.bbk = none ∧ domState (after .holdUpCollapse solo) 0 = 0 := by decide +kernel
theorem test_last_gasp : domState (after .lastGaspDomainOff (inMode 9 [])) 23 = 0 ∧
    mode (after .lastGaspReset { inMode 9 [] with pwr := { solo.pwr with saveDone := some 5 } }) = 0 := by decide +kernel
theorem test_transaction : fld (after (.txnBegin false) solo) Reg.TXN_STATUS 3 0 = 1 ∧ fld (after (.txnAbort false) (after (.txnBegin false) solo)) Reg.TXN_STATUS 3 0 = 6 ∧
    fld (after (.txnPrepare false) (after (.txnBegin false) solo)) Reg.TXN_STATUS 3 0 = 5 ∧ bit (after (.txnBegin false) (inMode 8 [])) Reg.TXN_STATUS 8 = true ∧
    rd (after (.txnPrepare false) (after (.txnBegin false) solo)) Reg.TXN_REJMASK = 128 := by decide +kernel
theorem test_oos : rd (after (.oosLaneWrite 0xFF00) solo) Reg.SYS_OOS_LANE = 0xFF00 ∧ rd (after (.oosUnitWrite 0xFFFF) solo) Reg.SYS_OOS_UNIT = 0x1FF := by decide +kernel
theorem test_time_steps : (after (.timeStep 0x80000000) (wr solo Reg.TIME_STEP_LO 36000)).now = 36002 * 2 ^ 48 ∧
    bit (after (.timeStep 0x80000000) (wr (wr solo Reg.TIME_STEP_LO 36000) Reg.TIME_STATUS 8)) Reg.TIME_STATUS 2 = true ∧
    bit (after (.timeForceStep 0) (wr solo Reg.TIME_STATUS 8)) Reg.TIME_STATUS 1 = true ∧ bit (after (.timeDeclareSync 0) solo) Reg.TIME_STATUS 3 = true ∧
    (after (.timeForceUnlockWrite 0x7E57F0CE) solo).time.unlockAt = some 0 ∧ bit (after (.timeEndHoldover 0) (wr solo Reg.TIME_STATUS 0x30)) Reg.TIME_STATUS 4 = false ∧
    (after (.addendCommit 0x00020000) solo).time.addend = 2 * 2 ^ 48 ∧ bit (after (.addendCommit 0x00020100) solo) Reg.TIME_STATUS 8 = true := by decide +kernel
theorem test_time_references : fld (after .leapApply (wr solo Reg.TIME_LEAP 0x10025)) Reg.TIME_LEAP 15 0 = 0x26 ∧
    bit (after .ref10mLoss solo) Reg.TIME_STATUS 6 = false ∧ bit (after (.ref10mMeasure 10001000) solo) Reg.TIME_STATUS 6 = true ∧
    bit (after (.ref10mMeasure 10001001) solo) Reg.TIME_STATUS 6 = false ∧ rd (after (.ref10mMeasure 9999999) solo) Reg.TIME_REF10M_ERR = 2 ^ 32 - 10000 ∧
    (after (.irigFrame ⟨false, true, true, true, 7, 7, none, false, 0, 0⟩) (wr solo Reg.TIME_CTRL 0x400)).time.irigPrev = some 7 ∧ runs .ppsInEdge solo = true ∧ runs .ppsOutPulse solo = true ∧
    runs (.ptpFrameReceive 0 ⟨0, 0⟩ true) solo = true ∧ runs (.txtsPop 0) solo = true ∧ runs .holdoverEntry solo = true := by decide +kernel

/-- Compare slot 5 waiting for 10 ns, periodic each 1,000 ns. -/
def cmpSt : State := let s := putN (putN (putN (putN solo Win.TIME_CMP 5 0 0xA0000000) Win.TIME_CMP 5 3 10) Win.TIME_CMP 5 4 1000) Win.TIME_CMP 5 5 0
  { s with ntab := (s.ntab.foldl (fun t p => Tab.set ntabDef t p.1 p.2) []), time := { s.time with cmp := s.time.cmp.set 5 ⟨10 * 2 ^ 48, true, false, 0, false, none⟩ } }

theorem test_compare_slot : (cmpOf (after (.cmpFireTime 5) cmpSt) 5).tgt = 1010 * 2 ^ 48 ∧ (after (.cmpFireTime 5) cmpSt).cycle = 5 ∧
    rd (after (.cmpFireTime 5) cmpSt) Reg.TIME_CMP_FIRED_LO = 32 ∧ (after (.cmpFireTime 6) cmpSt).cycle = 0 ∧ (after (.cmpPhaseArm 5) cmpSt).cycle = 0 ∧
    (after (.cmpFirePhase 5) cmpSt).cycle = 0 := by decide +kernel

theorem witness_AccessesOfNoRegister : occupied 0x14FFFC = false ∧ occupied 0x150000 = false ∧ occupied 0 = true ∧ (3 : BitVec 4) ≠ 15 := by decide +kernel
theorem witness_RegisterWrites : (regRow? 0x10004).isSome = true ∧ winAt? 0x10004 = none ∧ winData? 0x10004 = none ∧ gated solo 0x10004 = false ∧
    Reg.PWR_GOV_CFG ∉ txnRegs ∧ Reg.OUT_TBASE ∈ txnRegs ∧ (regRow? Reg.OUT_TBASE).isSome = true ∧ gated (after (.txnBegin false) solo) Reg.OUT_TBASE = false ∧
    gated (inMode 11 []) Reg.OUT_TBASE = true := by decide +kernel
theorem witness_ReadsAndShadows : (regRow? Reg.PWR_PF_GLITCH).isSome = true ∧ winAt? Reg.PWR_PF_GLITCH = none ∧ winData? Reg.PWR_PF_GLITCH = none ∧
    gated solo Reg.PWR_PF_GLITCH = false ∧ norReg Reg.PWR_PF_GLITCH = false ∧ popRead solo Reg.PWR_PF_GLITCH = none ∧ latched Reg.PWR_PF_GLITCH = [] ∧
    Tab.has solo.shadow Reg.TIME_NOW_SEC_LO = false ∧ gated solo Reg.TIME_NOW_SEC_LO = false ∧ gated solo (Reg.ALN_BLANK_STATE 0) = false ∧
    occupied Reg.OUT_TBASE = true ∧ gated (inMode 11 []) Reg.OUT_TBASE = true ∧
    (∃ h, wideHi? Reg.TIME_LEAP_AT_LO = some h ∨ wideHi? Reg.KEY_CMD_SEQ_LO = some h) := by
  refine ⟨?_, ?_, ?_, ?_, ?_, ?_, ?_, ?_, ?_, ?_, ?_, ?_, ?_⟩
  all_goals first | decide +kernel | exact ⟨Reg.KEY_CMD_SEQ_HI, by decide +kernel⟩
theorem witness_WindowOperations : (winRows.any (fun w => w.idx == Win.TIME_CMP && w.kind == .plain)) = true ∧
    (winRows.any (fun w => w.idx == Win.OUT_SESS && w.kind == .trans)) = true ∧ gated solo Win.TIME_CMP = false ∧
    (rd solo Win.TIME_CMP).testBit 31 = false ∧ (rd (wr solo Win.TIME_CMP 0x01000007) Win.TIME_CMP).testBit 24 = true ∧
    ((after (.windowRead Win.TIME_CMP 63) solo).winOps.find? (fun o => o.win == Win.TIME_CMP)).isSome = true := by decide +kernel
theorem witness_ModeTransitions : mode State.reset = 0 ∧ State.reset.pwr.fallAt = none ∧ coreRuns (coreSt [] []) 0 = true ∧ coreRuns solo 1 = false ∧
    (coreSt [] []).ssk.cores.length = 4 ∧ mode solo = 3 ∧ (after .pwrFailFall solo).pwr.fallAt = some 0 := by decide +kernel
theorem witness_ResetsOfThePart : 10000 ≤ 10000 ∧ 999 < 1000 ∧ mode (inMode 9 []) = 9 ∧
    { inMode 9 [] with pwr := { solo.pwr with saveDone := some 5 } }.pwr.saveDone = some 5 := by decide +kernel
theorem witness_PowerAndBatteryEvents : solo.pwr.fallAt = none ∧ mode solo ≠ 9 ∧ (rd (wr solo Reg.PWR_STATUS 0x200) Reg.PWR_STATUS).testBit 9 = true ∧
    mode (inMode 9 []) = 9 ∧ solo.ssk.cores.length = 4 := by decide +kernel
theorem witness_TransactionOperations : (2 ≤ mode solo ∧ mode solo ≤ 7) ∧ fld solo Reg.TXN_STATUS 3 0 = 0 ∧ fld (after (.txnBegin true) solo) Reg.TXN_STATUS 3 0 = 1 ∧
    txnTarget solo ≤ solo.aln.newest.getD (epochNow solo) ∧ (rd solo Reg.TXN_STATUS).testBit 10 = false := by decide +kernel
/-- A configuration that every check accepts: stream 0 with phasor 0, which is the island pair's reference, and the island parameters. -/
def okCfg : Tab Word :=
  [(Win.ING_ST, 0, 0, 0x80300000), (Win.ING_ST, 0, 5, 0x02020000), (Win.ING_DIR, 0, 1, 0x80000000), (Reg.DET_ISL_N, 0, 0, 1), (Reg.DET_ISL_FTH, 0, 0, 0x3F800000),
    (Reg.DET_ISL_ATH, 0, 0, 0x3F800000)].foldl (fun t x => putC t x.1 x.2.1 x.2.2.1 x.2.2.2) []
/-- A transaction in CONFIG with it, at the check. -/
def prepSt : State := after (.txnPrepare false) (after (.txnBegin false) { inMode 2 [] with cfg := okCfg })

theorem witness_TransactionValidation : fld prepSt Reg.TXN_STATUS 3 0 = 2 ∧ (checkAll prepSt prepSt.cfgPend).all (fun c => c == 0) = true ∧ mode prepSt = 2 ∧
    (checkAll (inMode 2 []) [])[4]? = some 84 ∧ txnTarget { prepSt with now := 10 ^ 12 * 2 ^ 48 } * secU ≤ 10 ^ 12 * 2 ^ 48 * 50 := by decide +kernel
theorem witness_OutOfServiceRequests : (BitVec.allOnes 32 : Word) ≠ 0xFF00 ∧ ktEnabled (putC [] Win.SSK_KT 3 0 0x80000000) ≠ [] := by decide +kernel
theorem witness_TimeSteps : gated solo Reg.TIME_CTRL = false ∧ (rd (wr solo Reg.TIME_STATUS 8) Reg.TIME_STATUS).testBit 3 = true ∧
    ¬(stepNs (wr solo Reg.TIME_STEP_LO 36000)).natAbs ≤ rd solo Reg.TIME_JUMP_LIM ∧ (stepNs solo).natAbs ≤ rd solo Reg.TIME_JUMP_LIM ∧
    (after (.timeForceUnlockWrite 0x7E57F0CE) solo).time.unlockAt = some 0 := by decide +kernel
theorem witness_TimeReferences : 0 < solo.time.addend ∧ fld (wr solo Reg.TIME_LEAP 0x10025) Reg.TIME_LEAP 17 16 = 1 ∧ mode solo ≠ 11 ∧
    gated solo Reg.ETH0_CFG = false ∧ bit (wr solo (ethReg 0 0) 0x80000000) (ethReg 0 0) 31 = true ∧ fld (wr solo Reg.TIME_CTRL 0x400) Reg.TIME_CTRL 11 10 = 1 := by
  decide +kernel
theorem witness_CompareSlots : 0 < cmpSt.time.addend ∧ cmpSt.time.cmp.length = 64 ∧ mode cmpSt ≠ 11 ∧ (getN cmpSt Win.TIME_CMP 5 0).testBit 31 = true ∧
    (getN cmpSt Win.TIME_CMP 5 0).testBit 30 = false ∧ (cmpOf cmpSt 5).wait = true := by decide +kernel

/-! Ports, the Lathe, alarms, output, rings, chutes and compression (04 to 06; 09 to 11). -/

/-- SOLO with the time base synchronised, the engine speculating, stream 5 expected; and blank 0 open, filled, sealed, at rest. -/
def latheSt : State := { inMode 3 [(Reg.TIME_STATUS, 8), (Reg.ALN_CTRL, 1)] with cfg := putC [] Win.ING_ST 5 0 0xC0000000 }
def blankSt : State := after .blankOpen latheSt
def filledSt : State := after (.specFillComplete 0) (after (.specFillStart 0) blankSt)
def sealedSt : State := after (.sealWait 0) filledSt
def restSt : State := after (.sealEvaluationEnd 0) sealedSt

/-- A block of stream 5 for blank 0 in time, and a C37.118 data frame. -/
def block5 : Block := ⟨5, 0, 10, 0, 0, [], 0, 0, [], [], none, 0, false, false, false, false⟩
def c37f : C37Frame := ⟨1, 0, 18, 7, 0, 0, true, 0, []⟩
def eth1 : EthFrame := ⟨64, true, .own, 0, true, false, false, 1, 4713, 4713, none, .c37 c37f⟩

theorem test_ports : bit (after (.ethCfgWrite 0 0x80000000) solo) (ethReg 0 0) 31 = true ∧ rd (after (.ethFrameReceive 0 { eth1 with fcsOk := false }) solo) (Reg.ETH_RX_FCS_ERR 0) = 1 ∧
    rd (after (.ethFrameReceive 0 { eth1 with len := 63 }) solo) (Reg.ETH_RX_FCS_ERR 0) = 1 ∧
    rd (after (.internalFrameDeliver c37f 1 false 0) solo) Reg.ING_INT_FRAMES = 1 ∧ (after (.ethPcsLockChange 2 true) solo).twn.pcs = 4 ∧
    healthOf (after (.streamHealthClear 0x80000000) solo) 5 = Health.zero := by decide +kernel
theorem test_blank_life : (blankOf blankSt 0).map (fun b => (b.state, b.epoch)) = some (1, 0) ∧ (blankOf filledSt 0).map (fun b => b.state) = some 2 ∧
    rd filledSt Reg.SPC_FILLS = 1 ∧ (blankOf sealedSt 0).map (fun b => (b.state, b.cause)) = some (3, 2) ∧ sealedSt.cycle = 200002500 ∧
    (blankOf restSt 0).map (fun b => b.state) = some 4 ∧ runs (.sealAll 0) blankSt = true ∧ (after (.blankOpen) blankSt).aln.newest = some 1 := by decide +kernel
theorem test_blank_instant : (after (.specFillStart 0) blankSt).cycle = 30002500 := by decide +kernel
theorem test_early_arrival : (latheArrive latheSt block5).aln.earlyQ = [block5] ∧ rd (latheArrive latheSt block5) Reg.ALN_EARLY = 1 ∧
    (healthOf (latheArrive blankSt block5) 5).frames = 1 := by decide +kernel
theorem test_amendment : (blankOf (after (.amendmentApply 0) { restSt with aln := { restSt.aln with amendQ := [block5] } }) 0).map (fun b => (b.amendCount, b.amendBusy)) = some (1, true) ∧
    (blankOf (after (.amendmentEnd 0) (after (.amendmentApply 0) { restSt with aln := { restSt.aln with amendQ := [block5] } })) 0).map (fun b => b.amendBusy) = some false ∧
    runs (.resamplerOutput 5 0) restSt = true := by decide +kernel
theorem test_speculation_registers : (after (.spcHistClr 0) solo).spc.histClr = true ∧ runs (.spcChannelMissClear 5) solo = true ∧
    rd (after (.spcFloorWrite 0 0x7FC00000) solo) Reg.SPC_STATUS = 1 := by decide +kernel
theorem test_alarms : rd (assertLine (wr solo Reg.DET_ALM_CFG 8) 3 5 7) Reg.DET_ALM_STATE = 0x80008 ∧ rd (assertLine (wr solo Reg.DET_ALM_CFG 8) 3 5 7) (Reg.DET_ALM_SRC 3) = 5 ∧
    rd (assertLine solo 3 5 7) Reg.DET_ALM_DISABLED = 1 ∧ rd (after (.alarmAck 8) (passCyc (assertLine (wr solo Reg.DET_ALM_CFG 8) 3 5 7) 1)) Reg.DET_ALM_STATE = 0 ∧
    (after .gooseRetransmit solo).cycle = 0 ∧ runs (.oscEvaluation 0 0) blankSt = true ∧ runs (.islEvaluation 0) blankSt = true := by decide +kernel

/-- A frame of 64 bytes waiting on port 1, and a session that a receiver commands: session 2, TYPE 0, CMD_EN, DST 9. -/
def frame64 : TxFrame := ⟨5, 0, 0, 0, none, (0, 0), 64, [], ⟨none, none, none, none, none⟩⟩
def sessSt : State := { solo with out := { solo.out with tx := [[], [frame64], [], []] } }

theorem test_output : (after (.ethFrameTransmit 1) sessSt).out.tx = [[], [], [], []] ∧ (after (.ethFrameTransmit 0) sessSt).out.tx = [[], [frame64], [], []] ∧
    runs (.sessionFinalSend 2 0) restSt = true ∧ runs (.keyCellEpochLimit 2) solo = true ∧
    ((runs (.c37DataOn 2 ⟨9, false⟩ 1) solo && runs (.c37DataOff 2 ⟨9, false⟩ 1) solo && runs (.c37SendHeader 2 ⟨9, false⟩ 1) solo && runs (.c37SendCfg1 2 ⟨9, false⟩ 1) solo &&
      runs (.c37SendCfg2 2 ⟨9, false⟩ 1) solo && runs (.c37SendCfg3 2 ⟨9, false⟩ 1) solo) = true) ∧ prpSeq 85000000012 0 = 0x20C0 := by decide +kernel

/-- Ring 4 enabled with one descriptor of 64 bytes posted and a record of 8 bytes waiting; the bus can be mastered. -/
def ringSt : State :=
  let s := { solo with dma := { solo.dma with linkUp := true, bme := true } }
  let s := after (.descTailWrite 4 1 [⟨0x1000, 64, 7, false, [], []⟩]) (after (.ringEnable 4 0x82000000) s)
  setRing s 4 { ringOf s 4 with waiting := [⟨0, [1, 2, 3, 4, 5, 6, 7, 8]⟩] }

theorem test_rings : fld (after (.recordPlace 4) ringSt) (Reg.RING_CPL_TAIL 4) 15 0 = 1 ∧ Memory.bytes Memory.zero (after (.recordPlace 4) ringSt).dma.hostMem 0x1000 3 = [1, 2, 3] ∧
    fld (after (.recordPlace 4) ringSt) (Reg.RING_DESC_HEAD 4) 15 0 = 1 ∧ rd (after (.recordPlace 4) ringSt) (Reg.RING_RECORDS 4) = 1 ∧
    (ringOf (after (.cplHeadWrite 4 1) (after (.recordPlace 4) ringSt)) 4).armed = true ∧ bit (after (.ringDisable 4 0) ringSt) (Reg.RING_CTRL 4) 31 = false ∧
    fld (after (.dmaErrorCompletion 4 1) ringSt) (Reg.RING_STATUS 4) 30 30 = 1 ∧ (after .functionLevelReset ringSt).dma.msixMask = 2 ^ 32 - 1 ∧
    runs (.irqModTimeout 4) ringSt = true := by decide +kernel
theorem test_pcie : (after (.pcieLinkChange true) solo).dma.linkUp = true ∧ (after (.pcieConfigWrite ⟨true, false, 0, 0⟩ ⟨false, false⟩) solo).dma.bme = true := by decide +kernel

/-- Chute 1 with an item of one payload word on its port, and complete some cycles after. -/
def soiSt : State := after (.chPushSoi 1 0) (wr solo (Reg.CH_PUSH_LO 1) 0x1000)
def itemSt : State := { after (.chPushHi 1 5) soiSt with cycle := 4 }

theorem test_chute_port : (chuteOf soiSt 1).items = [] ∧ (chuteOf itemSt 1).items.map (fun i => i.words.length) = [4] ∧ chuteStatus itemSt 1 = 0x104 ∧
    (chuteOf (after (.chutePop 1 15) itemSt) 1).reading.length = 3 ∧ (chuteOf (after (.chuteFlush 1 2) itemSt) 1).items = [] ∧
    rd (after (.chPushHi 1 5) solo) (Reg.CH_PUSH_REFUSED 1) = 1 ∧ bit (after (.chutePop 1 15) solo) (Reg.CH_STATUS 1) 31 = true := by decide +kernel

/-- Engine 0 at work on a firmware job. -/
def job1 : CmpJob := ⟨1, List.replicate 8 65, 4096, 0, 0x100, true, 3, (0, 0), true, false⟩
def cmpJobSt : State := { solo with cmp := { solo.cmp with queues := [[], [job1], []] } }

theorem test_compression : (after (.cmpJobStart 0) cmpJobSt).cmp.run = [some job1, none] ∧ (after (.cmpJobStart 0) cmpJobSt).cmp.queues = [[], [], []] ∧
    rd (after (.cmpJobComplete 0 1) (after (.cmpJobStart 0) cmpJobSt)) Reg.CMP_ERR_CNT = 1 := by decide +kernel

theorem witness_EthernetPorts : gated solo Reg.ETH0_CFG = false ∧ rxFilter (wr solo (ethReg 0 0) 0x88002400) 0 eth1 = true ∧
    ¬65536 < (((solo.ing.rxFifo.getD 0 []).filter (fun x => decide (solo.cycle < x.1))).map (·.2)).sum + eth1.len ∧ gated solo Reg.ING_CTRL = false ∧ runsLathe (mode solo) = true ∧ gated solo Reg.ING_SHCLR = false ∧
    gated (inMode 11 []) Reg.ETH0_CFG = true := by decide +kernel
theorem witness_ArrivalsAtTheLathe : (blankOf blankSt 0).isSome = true ∧ (blankOf blankSt 0).map (fun b => Tab.has b.dup 5) = some false ∧ blankOf latheSt 0 = none ∧
    anBase (confOf blankSt 0) 5 + anCnt (confOf blankSt 0) 5 ≤ 32768 ∧ (blankOf blankSt 0).map (fun b => inTime blankSt b block5) = some true ∧
    (blankOf sealedSt 0).map (fun b => inTime sealedSt b block5) = some false ∧ tookOver blankSt 0 block5 = none ∧ latheSt.cyc.took = [] := by decide +kernel
theorem witness_BlankLife : 0 < blankSt.time.addend ∧ blankSt.aln.ring.length = 32 ∧ latheGate latheSt = true ∧ latheGate solo = false ∧
    (blankOf blankSt 0).map (fun b => (b.state, b.specEn, b.fillAt, b.fillDone)) = some (1, true, none, false) ∧
    (blankOf blankSt 0).map (fun b => (sealDue (after (.specFillStart 0) blankSt) b, retireDue (after (.specFillStart 0) blankSt) b, retireDue sealedSt b)) = some (false, false, false) ∧ (blankOf sealedSt 0).map (fun b => b.state) = some 3 ∧
    sealedSt.ssk.invs = [] := by decide +kernel
theorem witness_Amendments : (blankOf restSt 0).map (fun b => (b.state, b.amendBusy, retireDue restSt b)) = some (4, false, false) ∧ restSt.aln.ring.length = 32 ∧ gated solo Reg.SPC_CTRL = false ∧
    gated solo Reg.SPC_FLOOR_PH = false ∧ isNaN f32 (floorRange 0).1 = false ∧ isNaN f32 0x7FC00000 = true := by decide +kernel
theorem witness_AlarmLines : (rd (wr solo Reg.DET_ALM_CFG 0x8000) Reg.DET_ALM_CFG).testBit 15 = true ∧ (rd solo Reg.DET_ALM_STATE).testBit 15 = false ∧
    (rd solo Reg.DET_ALM_CFG).testBit 0 = false ∧ gated solo Reg.DET_ALM_ACK = false ∧ mode solo ≠ 0 ∧ mode solo ≠ 9 := by decide +kernel
theorem witness_GooseAndDetectors :
    let s := { wr solo Reg.DET_GS_CFG 0x80000000 with det := { solo.det with gsDs := some 0 } }
    (rd s Reg.DET_GS_CFG).testBit 31 = true ∧ gated s Reg.DET_GS_CFG = false ∧ mode s = 3 ∧ s.det.gsDs ≠ none ∧
    (blankOf { blankSt with aln := { blankSt.aln with ring := blankSt.aln.ring.map (fun o => o.map (fun b => { b with dets := [(0, 0, 7), (8, 1, 7)] })) } } 0).map
      (fun b => (b.dets.contains (0, 0, 7), b.dets.contains (8, 1, 7), b.dets.contains (8, 0, 7))) = some (true, true, false) ∧ groupsOf (confOf blankSt 0) = [] := by decide +kernel
theorem witness_OutputFrames : sessSt.out.tx.length = 4 ∧ sessSt.aln.ring.length = 32 ∧ sessSt.out.tx.getD 1 [] = frame64 :: [] ∧ blankOf sessSt 9 = none ∧
    (let c := putC (putC [] Win.OUT_SESS 2 0 0x80000000) Reg.ALN_WAIT 0 0 400000
     ssEn c 2 = true ∧ ssType c 2 = 0 ∧ ssWait c 2 < getC c Reg.ALN_WAIT 0 0 % 2 ^ 22) ∧ (blankOf blankSt 0).map (fun b => (decide (b.state ≤ 2), b.sent)) = some (true, []) := by
  decide +kernel
theorem witness_RingCommands : ringSt.dma.rings.length = 16 ∧ gated ringSt (Reg.RING_CTRL 4) = false ∧ frontRec ringSt 4 = some ⟨0, [1, 2, 3, 4, 5, 6, 7, 8]⟩ ∧
    busOk ringSt = true ∧ ringRuns ringSt 4 = true ∧ descsFor ringSt 4 (min 64 (posted ringSt 4)) 0 8 = some 1 ∧ 1 ≤ cplRoom ringSt 4 ∧
    descOk (Tab.get noDesc (ringOf ringSt 4).q 0) = true ∧ frontRec solo 4 = none := by decide +kernel
theorem witness_ChuteCommands : itemSt.chutes.length = 4 ∧ gated itemSt (Reg.CH_RD_LO 1) = false ∧ bit itemSt (Reg.CH_CFG 1) 0 = false ∧
    (offered (chuteOf itemSt 1).items).isSome = true ∧ (chuteOf soiSt 1).port.isSome = true ∧ (chuteOf solo 1).portSkip = 0 ∧ (chuteOf solo 1).port = none ∧
    32 < (chuteOf { solo with chutes := List.replicate 4 { Chute.reset with reading := List.replicate 30 0 } } 1).taken + 0 + 3 := by decide +kernel
theorem witness_CompressionJobs : cmpJobSt.cmp.run.length = 2 ∧ cmpJobSt.cmp.queues.length = 3 ∧ bit cmpJobSt Reg.CMP_CTRL 0 = true ∧ domOn cmpJobSt 25 = true ∧
    cmpJobSt.cmp.queues.getD 1 [] = job1 :: [] ∧ (after (.cmpJobStart 0) cmpJobSt).cmp.run.getD 0 none = some job1 := by decide +kernel

/-! Front end, metering, capture, mesh, twin (12 to 16). -/

/-- The next state of a meaning; the state given where there is none. -/
def go (o : State → Out) (s : State) : State := match o s with | .next t => t | _ => s

/-- A state with words of its tables as given. -/
def tabs (s : State) (l : List (Nat × Nat)) : State := { s with ntab := l.foldl (fun t p => Tab.set ntabDef t p.1 (BitVec.ofNat 32 p.2)) s.ntab }

/-- The front end on with the clock running; channels 0 and 1 of groups 0 and 1, channel 0's CC 3, ratio 32 and a decimation of 8; group 0 runs. -/
def afeSt : State :=
  tabs (wr (wr (wr solo Reg.AFE_CTRL 0x8000000A) Reg.AFE_GRP_CTRL 3) Reg.AFE_GRP_STATUS 0x201)
    [(cfgKey Win.AFE_CH 0 0, 0x801F8300), (cfgKey Win.AFE_CH 1 0, 0x901F8000), (cfgKey Win.AFE_DIN 5 0, 0xB0000000)]

theorem test_groups : rd (after (.groupStart 1) (after (.groupImmStart 0x203) afeSt)) Reg.AFE_GRP_STATUS = 3 ∧
    (after (.groupStart 1) (after (.groupImmStart 0x203) afeSt)).cycle = 50 ∧ rd (after (.groupRunWrite 1) afeSt) Reg.AFE_GRP_STATUS = 1 ∧
    rd (after (.groupStop 0) (after (.groupRunWrite 2) afeSt)) Reg.AFE_GRP_STATUS = 0x200 ∧ rd (after (.mclkConfigWrite 0x8000000B) afeSt) Reg.AFE_STATUS = 1 ∧
    rd (after (.mclkConfigWrite 0x8000000B) solo) Reg.AFE_CTRL = 0x8000000B ∧ rd (after (.controlCycleApply 3) afeSt) Reg.AFE_CC_LAST = 0x10003 := by decide +kernel
theorem test_channels : rd (after (.channelStuck 0) afeSt) Reg.AFE_STUCK = 1 ∧ rd (after (.channelStuck 1) afeSt) Reg.AFE_STUCK = 0 ∧
    rd (after (.channelUnstuck 0) (after (.channelStuck 0) afeSt)) Reg.AFE_STUCK = 0 ∧ rd (after (.filterStageClip 0 1 [2 ^ 40]) afeSt) Reg.AFE_CLIP = 1 ∧
    rd (after (.filterStageClip 0 0 [5]) afeSt) Reg.AFE_CLIP = 0 := by decide +kernel
-- The half-band coefficients sum to 4,096, so a shift of 12 has gain 1 (R372); sinc³ of ratio 16 weighs 46 bits with 4,096 in all; FIR set 2, tap 9.
theorem test_filter_chain : stageAcc afeSt 0 1 (List.replicate 15 1000) = 4096000 ∧ stageShift 12 (stageAcc afeSt 0 2 (List.replicate 15 (-1000))) = -1000 ∧
    (sincTaps 16).length = 46 ∧ (sincTaps 16).sum = 4096 ∧ (sincTaps 16).take 3 = [1, 3, 6] ∧ stageAcc afeSt 0 0 [1, 0, 1] = 1 - 3 + 6 ∧
    (firTaps (tabs afeSt [(cfgKey Win.AFE_FIR 33 1, 0xFFF80000)]) 2).getD 9 0 = -524288 := by decide +kernel
-- A 25 MHz modulator clock over 32 and over 4 × 2: divisors of 100 MHz; 50 Hz gives 256 output instants in 20 ms, 128 in 10 ms (R381).
theorem test_grids : chDiv afeSt true 0 = 320 ∧ chDiv afeSt false 0 = 2560 ∧ (cycleInstants afeSt 0 (20000000 * 2 ^ 48)).length = 256 ∧
    (cycleInstants afeSt 0 (10000000 * 2 ^ 48)).length = 128 := by decide +kernel
/-- Group 0 running since 0 with a gain of 1.0 on channel 0, the resampler's phase 0 passing its newest input; samples 1, 1, -1, 1 on the time-locked grid. -/
def trkSt : State :=
  let s := tabs afeSt [(cfgKey Win.AFE_RSC 128 0, 0x3F800000), (cfgKey Win.AFE_CH 0 2, 0x3F800000)]
  { s with afe := { s.afe with runFrom := s.afe.runFrom.set 0 (some (0, 0)) } }
def trkIn : List GridTaps := [1, 1, -1, 1].map (fun y => ⟨1000000, [List.replicate 16 y]⟩)
/-! Samples that do not rest on an opaque constant: the newest input lies after the instant, so that phase 0 applies. -/

/-- Nothing of the front end is in the past: no value replaced, no channel stuck, group 0 running since 0. -/
def Fresh (s : State) : Prop := s.afe.old = [] ∧ s.afe.stuckAt = [] ∧ s.afe.runFrom.getD 0 none = some (0, 0) ∧ grpRunning s 0 = true

theorem sample_eq {s : State} {tl : Bool} {ch t : Nat} {g : GridTaps} {c h : List Nat} (hs : Fresh s) (hch : ch < 24) (hg : afGroup s ch = 0) (he : afEn s ch = true)
    (ht : t ≤ tapInstant s tl ch g.newest) (hc : afeCoef s tl 0 = c)
    (hh : (List.range 16).map (fun i => (((dyOf f32 (getN s Win.AFE_CH ch 2)).mul ((Dy.mk ((g.taps.map (fun l => l.getD i 0)).getD 0 0)
      (if tl then -(afTlSh s ch : Int) else 0)).sub (Dy.ofInt (sext 24 (getN s Win.AFE_CH ch 3))))).pack f32 .near)) = h)
    (hf : isFin f32 (getN s Win.AFE_CH ch 2) = true) : chSample s tl ch t g = macSum c h := by
  have hw : ∀ w i j x, wordAt s w i j x = getN s w i j := by
    intro w i j x; simp [wordAt, hs.1, Tab.get]
  have hm : ∀ (x : Nat) (y : Int), modSample s tl ch x y = ((dyOf f32 (getN s Win.AFE_CH ch 2)).mul ((Dy.mk y
      (if tl then -(afTlSh s ch : Int) else 0)).sub (Dy.ofInt (sext 24 (getN s Win.AFE_CH ch 3))))).pack f32 .near := by
    intro x y
    have hr : grpRanAt s (afGroup s ch) x = true := by simp only [grpRanAt, hg, hs.2.2.1, hs.2.2.2]; simp
    simp [modSample, he, hr, stuckIn, stuckOf, hs.2.1, Tab.get, hw, hf]
  simp only [chSample, if_pos hch, chInput, hm, Nat.sub_eq_zero_of_le ht, hh]
  simp [hc]

theorem le_less {x e k t : Nat} (h : t + k ≤ x) : t ≤ x + e - k := by omega
theorem edge_eq {s : State} {g i c : Nat} (hc : s.afe.runFrom.getD g none = some (0, c)) :
    edgeTime s g i = timeAt s (c + 5 * mclkDiv s * i) + Config.edgeErr (c + 5 * mclkDiv s * i) % (4 * nsU + 1) - 2 * nsU := by
  unfold edgeTime
  rw [hc]
theorem edge_le {s : State} {g i t c : Nat} (hc : s.afe.runFrom.getD g none = some (0, c)) (h : t + 2 * nsU ≤ timeAt s (c + 5 * mclkDiv s * i)) :
    t ≤ edgeTime s g i := by
  rw [edge_eq hc]
  exact le_less h

theorem sinc_le {s : State} {ch n t : Nat} (hs : Fresh s) (hg : afGroup s ch = 0)
    (h : t + 2 * nsU ≤ timeAt s (0 + 5 * mclkDiv s * (sincEdge s ch n - 3 * (afSinc s ch - 1))) ∧ t + 2 * nsU ≤ timeAt s (0 + 5 * mclkDiv s * sincEdge s ch n)) :
    t ≤ sincInstant s ch n := by
  have h1 := edge_le (g := 0) hs.2.2.1 h.1
  have h2 := edge_le (g := 0) hs.2.2.1 h.2
  simp only [sincInstant, hg]
  omega

def lastT : Nat := 10 ^ 9 * nsU


/-- What sample 0 of the time-locked grid needs so that the newest input comes after the instant `t` in state `s`. -/
def SincLate (s : State) (ch n t : Nat) : Prop :=
  t + 2 * nsU ≤ timeAt s (0 + 5 * mclkDiv s * (sincEdge s ch n - 3 * (afSinc s ch - 1))) ∧ t + 2 * nsU ≤ timeAt s (0 + 5 * mclkDiv s * sincEdge s ch n)

theorem macSum_one (y : Int) (hy : y = 1 ∨ y = -1) :
    macSum (0x3F800000 :: List.replicate 15 0) (List.replicate 16 (if y = 1 then 0x3F800000 else 0xBF800000)) = if y = 1 then 0x3F800000 else 0xBF800000 := by
  unfold macSum fmac
  generalize Config.macFused = b
  rcases hy with rfl | rfl <;> cases b <;> decide +kernel

theorem tap_true (s : State) (ch n : Nat) : tapInstant s true ch n = sincInstant s ch n := by simp [tapInstant]
theorem late_last : 960 * secU / 24000 ≤ lastT := by decide +kernel
theorem locked_samples {s : State} {l : List Int} (n : Nat) (hl : ∀ y ∈ l, y = 1 ∨ y = -1) (hn : n ≤ 960) (hs : Fresh s) (hg : afGroup s 0 = 0) (he : afEn s 0 = true)
    (hc : afeCoef s true 0 = 0x3F800000 :: List.replicate 15 0) (hw : getN s Win.AFE_CH 0 2 = 0x3F800000 ∧ getN s Win.AFE_CH 0 3 = 0 ∧ afTlSh s 0 = 0)
    (hi : SincLate s 0 1000000 lastT) :
    lockedSamples s 0 n (l.map (fun y => ⟨1000000, [List.replicate 16 y]⟩)) = l.map (fun y => if y = 1 then 0x3F800000 else 0xBF800000) := by
  apply List.ext_getElem
  · simp [lockedSamples, chSamples]
  · intro k h1 h2
    have hk : k < l.length := by simpa using h2
    have ht : (n + 1 + k - l.length) * secU / 24000 ≤ lastT := by
      refine Nat.le_trans (Nat.div_le_div_right (Nat.mul_le_mul_right _ (show n + 1 + k - l.length ≤ 960 by omega))) ?_
      exact late_last
    have hy := hl _ (List.getElem_mem hk)
    simp only [lockedSamples, chSamples, List.getElem_map, List.getElem_zipIdx, List.getElem_range, List.length_map, Nat.zero_add]
    rw [show (l.map (fun y => (⟨1000000, [List.replicate 16 y]⟩ : GridTaps))).getD k ⟨0, []⟩ = ⟨1000000, [List.replicate 16 l[k]]⟩ by
      simp [List.getD_eq_getElem?_getD, hk], ← macSum_one _ hy]
    refine sample_eq hs (by decide) hg he (by rw [tap_true]; exact Nat.le_trans ht (sinc_le hs hg hi)) hc ?_ (by rw [hw.1]; decide)
    rw [hw.1, hw.2.1, hw.2.2]
    rcases hy with hy | hy <;> (rw [hy]; decide +kernel)

/-- The same with a crossing before. -/
def trk1 : State := setTrk trkSt 0 ⟨some 1, 0, 0, [], []⟩

theorem trk_samples : lockedSamples trkSt 0 480 trkIn = [0x3F800000, 0x3F800000, 0xBF800000, 0x3F800000] :=
  locked_samples (l := [1, 1, -1, 1]) 480 (by decide) (by decide) (by unfold Fresh; decide +kernel) (by decide +kernel) (by decide +kernel)
    (by decide +kernel) (by decide +kernel) (by unfold SincLate; decide +kernel)
theorem trk1_samples : lockedSamples trk1 0 480 trkIn = [0x3F800000, 0x3F800000, 0xBF800000, 0x3F800000] :=
  locked_samples (l := [1, 1, -1, 1]) 480 (by decide) (by decide) (by unfold Fresh; decide +kernel) (by decide +kernel) (by decide +kernel)
    (by decide +kernel) (by decide +kernel) (by unfold SincLate; decide +kernel)

-- The mean less half way: -1 less 1 to 1 less 1/3 crosses zero after 3/4 of the step from sample 479 to sample 480, 20 ms; and a loss is 25 ms after the crossing.
theorem test_tracker : (crossing 480 [0x3F800000, 0x3F800000, 0xBF800000, 0x3F800000]).map (· / 2 ^ 48) = some 19989583 ∧
    (after (.trackerTimeout 0) (wr trk1 Reg.AFE_TRK_LOCK 1)).cycle = 12500001 ∧
    ((after (.stream0RecordWrite 0 []) { afeSt with cfg := putC [] Win.ING_ST 0 0 0x80000000 }).afe.s0).isSome = true := by decide +kernel

/-- Digital input 5 rises at 20 µs: its event carries the time less the debounce of 10 µs. -/
def dinSt : State := after (.dinChangeAccept 5) { afeSt with now := 20000 * 2 ^ 48 }

theorem test_digital_input : rd dinSt Reg.AFE_DIN_LEVEL = 32 ∧ dinSt.afe.dinFifo = [(19990, 5, 1)] ∧ (after .dinEventPop dinSt).hostData = 0x80000105 ∧
    rd (after .dinEventPop dinSt) Reg.AFE_DINEV_NS = 19990 := by decide +kernel

-- The powers of the cycles at +0, +20 and +40 ms of the worked example of 13, for a CREEP_W of 1 MW: 18 MW for 20 ms are 100,000 mWh.
theorem test_reversing_feeder :
    let p (a b : Nat) : CircP := ⟨a, b, a, b, 0⟩
    let c1 := cycleIncs solo 0x412E848000000000 0 (p 0x41712A8800000000 0x414B774000000000) (20000000 * 2 ^ 48)
    let c2 := cycleIncs solo 0x412E848000000000 0 (p 0x412B774000000000 0x414B774000000000) (20000000 * 2 ^ 48)
    let c3 := cycleIncs solo 0x412E848000000000 0 (p 0xC1812A8800000000 0xC15B774000000000) (20000000 * 2 ^ 48)
    c1.2.1.take 8 = [100000 * 2 ^ 32, 0, 100000 * 2 ^ 32, 0, 20000 * 2 ^ 32, 0, 0, 0] ∧ c1.2.2 = 0 ∧
    c2.2.1.take 8 = [0, 0, 0, 0, 20000 * 2 ^ 32, 0, 0, 0] ∧ c2.2.2 = 0 ∧
    c3.2.1.take 8 = [0, 200000 * 2 ^ 32, 0, 200000 * 2 ^ 32, 0, 0, 40000 * 2 ^ 32, 0] ∧ c3.2.2 = 3 := by decide +kernel

/-- Circuit 0 metered with its interval from 0 in progress, circuit 2 with an accumulator of 77, pulse input 3 on both edges with weight 25. -/
def nrgSt : State :=
  let s := tabs solo [(cfgKey Win.NRG_CIR 0 0, 0x80000000), (cfgKey Win.NRG_PLS 3 0, 0xB0000000), (cfgKey Win.NRG_PLS 3 1, 25)]
  { s with nrg := { s.nrg with circ := s.nrg.circ.set 2 { Circ.reset with acc := 77 :: List.replicate 13 0 } } }
def cyc1 : State := after (.meterCycleComplete 0 0 0 [] []) nrgSt

theorem test_metering : rd cyc1 Reg.NRG_CYCLES = 1 ∧ rd cyc1 Reg.NRG_NAN = 1 ∧ cyc1.cycle = 10000000 ∧ (circOf cyc1 0).ival.map (fun v => (v.start, v.len, v.cycles)) = some (0, 900, 1) ∧
    Tab.get (fun _ => 0) (after (.energySnapshot 1) nrgSt).nrg.snap 32 = 77 ∧ (after .energyPeriodicSave nrgSt).nvs.bw.length = 1 ∧
    rd (after .energyPeriodicSave (after .energyPeriodicSave nrgSt)) Reg.NRG_SAVE_SKIP = 1 ∧ plsReg (after (.pulseEdgeAccept 3 true) nrgSt) 3 = 25 ∧
    plsCount (after (.pulseEdgeAccept 3 false) nrgSt) 3 = 1 := by decide +kernel

/-- The record logic ARMED with a history from 0; threshold unit 0 falling at 180,000 V with 5,000 V, its input a record trigger; sequencer 1 in
state 0 with a transition to state 4 always, timer 2 of it started; 30 s of pre-trigger, 10 s of post-trigger. -/
def capSt : State :=
  let c := [(Win.CAP_TH, 0, 0, 0x90000000), (Win.CAP_TH, 0, 1, 0x482FC800), (Win.CAP_TH, 0, 2, 0x459C4000), (Win.CAP_IN, 0x40, 0, 0x80000000),
    (Win.CAP_IN, 4, 0, 0x80000000), (Win.CAP_IN, 2, 0, 0x90000000), (Win.CAP_SQ, 1, 0, 0x80000000), (Win.CAP_TR, 64, 0, 0xC0004000), (Win.CAP_TR, 64, 1, 0x1040),
    (Reg.CAP_WIN, 0, 0, 30000 * 65536 + 10000)]
  let s := tabs (wr (wr (wr (wr afeSt Reg.CAP_CTRL 0x80000000) Reg.CAP_STATUS 1) Reg.CAP_STORE_SIZE 64) Reg.AFE_GRP_STATUS 1) []
  { s with cfg := c.foldl (fun t x => putC t x.1 x.2.1 x.2.2.1 x.2.2.2) s.cfg }
/-- The same with channel 0 recorded, and group 0 running since 0. -/
def shavSt : State := { capSt with cfg := putC (putC capSt.cfg Win.CAP_CH 0 0 0x80000000) Win.CAP_CH 0 2 0x10000, afe := { capSt.afe with runFrom := capSt.afe.runFrom.set 0 (some (0, 0)) } }
def crossSt : State :=
  thrSample (thrSample (thrSample capSt 0 95 0x4835FC00) 0 96 0x4830F400) 0 97 0x482E9C00
def recSt : State := after .recordClose (after .postSpanEnd crossSt)

-- The crossing of the worked example of 14: 181,200 V and 178,800 V one sample apart meet 180,000 V half way.
theorem test_crossing_and_record : crossSt.cap.cur.map (fun r => (r.trig / 2 ^ 48, r.start, r.shortPre, r.spanEnd / 2 ^ 48)) = some (4020833, 0, true, 10004020833) ∧
    capState crossSt = 2 ∧ capState recSt = 3 ∧ recSt.cap.staged.map (fun r => (r.body.length, r.nblk)) = [(0, 0)] ∧ recSt.cmp.queues.map List.length = [0, 0, 0] ∧
    capState (after .captureRearm recSt) = 1 ∧ (after .captureRearm recSt).cycle = recSt.cycle + 500000000 := by decide +kernel
theorem test_capture_control : capState (after (.captureEnable 0x80000000) (wr solo Reg.CAP_STORE_SIZE 16)) = 1 ∧
    bit (after (.captureEnable 0x80000000) (wr solo Reg.CAP_STORE_SIZE 15)) Reg.CAP_STATUS 8 = true ∧ capState (after (.captureForce 0x80000000) capSt) = 2 ∧
    (after (.captureForce 0x80000000) capSt).cap.cur.map (fun r => r.input) = some 4 ∧ capState (after (.xtrigEdge 2) capSt) = 1 ∧
    capState (after (.xtrigEdge 2) (after (.xtrigEdge 2) capSt)) = 2 ∧ runs (.xtrigPulseEnd 2) capSt = true := by decide +kernel
theorem test_sequencer : rd (after (.sequencerTransition 1) capSt) Reg.CAP_SQCUR = 0x40 ∧
    (seqOf (after (.sequencerTransition 1) capSt) 1).cnt = [1, 0, 0, 0] ∧ (seqOf (after (.sequencerTransition 1) capSt) 1).tmr.getD 2 (0, 0) = (1, 500) ∧
    (seqOf (after (.sequencerTimerExpire 1 2) (after (.sequencerTransition 1) capSt)) 1).tmr.getD 2 (0, 0) = (2, 500) := by decide +kernel

/-- A closed record with no entry, its place in device 1, and its commit. -/
def stagedSt : State :=
  wr recSt Reg.CAP_STORE_BASE 0x80000100
def commitSt : State := go (execRecordCommit true) stagedSt

theorem test_commit : commitSt.cap.commit.map (fun x => (x.2.1, x.2.2)) = some (256, 1) ∧ commitSt.cap.staged = [] ∧
    (go (execRecordCommitted true) commitSt).cap.dir.map (fun d => (d.first, d.sectors)) = [(256, 1)] ∧ rd (go (execRecordCommitted true) commitSt) Reg.CAP_RECORDS = 1 := by decide +kernel
theorem test_shavings : (go (execShavingStore 0 5 ⟨0, [[7]]⟩) shavSt).cap.hist.map (fun e => (e.t, e.chan)) =
      [(208333, 0)] ∧ bit (after .captureScanEnd (wr capSt Reg.CAP_STATUS 0x80)) Reg.CAP_STATUS 7 = false := by decide +kernel

theorem witness_FrontEndGroups : afeSt.afe.startAt.length = 8 ∧ afeSt.afe.stopAt.length = 8 ∧ afeSt.afe.runFrom.length = 8 ∧ afeSt.afe.lastStop.length = 8 ∧
    gated afeSt Reg.AFE_CTRL = false ∧ gated (inMode 11 []) Reg.AFE_CTRL = true ∧ gated afeSt Reg.AFE_GRP_CTRL = false ∧ gated afeSt Reg.AFE_CC_CMD = false ∧
    rd afeSt Reg.AFE_CTRL ≠ 0x8000000B ∧ rd afeSt Reg.AFE_GRP_CTRL % 256 ≠ 0 ∧ rd solo Reg.AFE_GRP_CTRL % 256 = 0 ∧ fld solo Reg.AFE_GRP_STATUS 7 0 = 0 ∧
    (let s := after (.groupImmStart 0x203) afeSt
     s.afe.startAt.getD 1 none = some 0 ∧ bit s Reg.AFE_CTRL 31 = true ∧ grpRunning s 1 = false ∧ (grpChans s 1).all (startOk s) = true) ∧
    startOk (tabs afeSt [(cfgKey Win.AFE_CH 1 0, 0x90FF8000)]) 1 = false ∧ (after (.groupRunWrite 2) afeSt).afe.stopAt.getD 0 none = some 0 := by decide +kernel
theorem witness_FrontEndChannels : afeSt.afe.trk.length = 24 ∧ afEn afeSt 0 = true ∧ grpRunning afeSt (afGroup afeSt 0) = true ∧ bit afeSt Reg.AFE_STUCK 0 = false ∧
    stageSh afeSt 0 1 ≤ 63 ∧ (8388607 : Int) < (2 ^ 80 + 2 ^ (stageSh afeSt 0 1 - 1)) / 2 ^ stageSh afeSt 0 1 ∧
    (let xs := [0x3F800000, 0x3F800000, 0xBF800000, 0x3F800000]
     2 ≤ xs.length ∧ xs.all (isFin f32) = true ∧ (lastTwo xs).1.m < 0 ∧ 0 ≤ (lastTwo xs).2.m) ∧ (trkOf trkSt 0).last = none ∧ afEn trkSt 0 = true ∧
    grpRunning trkSt (afGroup trkSt 0) = true ∧ (trkOf trk1 0).last = some 1 ∧ trkLocked (wr trk1 Reg.AFE_TRK_LOCK 1) 0 = true ∧
    (let s := { afeSt with cfg := putC [] Win.ING_ST 0 0 0x80000000 }
     stEn (confOf s 0) 0 = true ∧ s.afe.s0 = none ∧ runsLathe (mode s) = true ∧ s0Sources s (confOf s 0) 0 = ([], []) ∧ s.afe.refAt = []) ∧
    (getN afeSt Win.AFE_DIN 5 0).testBit 31 = true ∧ gated afeSt Reg.AFE_DIN_LEVEL = false ∧ (getN afeSt Win.AFE_DIN 5 0).testBit 28 = true ∧ afeSt.afe.dinFifo = [] ∧
    dinSt.afe.dinFifo = (19990, 5, 1) :: [] ∧ gated dinSt Reg.AFE_DINEV_TAG = false := by decide +kernel
theorem witness_EnergyCycle : ([0x41712A8800000000, 0x414B774000000000, 0, 0, 0].all (fun x => decide (x < 2 ^ 64) && isFin f64 x)) = true ∧
    (circOf cyc1 0).ival.map (fun v => v.start) = some 0 ∧ 0 < cyc1.nrg.circ.length ∧ nrgSt.nrg.circ.length = 8 ∧ cirEn nrgSt 0 = true ∧ cirEn nrgSt 1 = false ∧
    gated nrgSt Reg.NRG_CTRL = false ∧ accumulates (mode nrgSt) = true ∧ (circOf nrgSt 0).lastFull = none := by decide +kernel
theorem witness_EnergyRecords : nrgSt.nrg.circ.all (fun x => x.acc.length == 14) = true ∧ gated nrgSt Reg.NRG_CTRL = false ∧ runsAlarms (mode nrgSt) = true ∧
    saving nrgSt = false ∧ saving (after .energyPeriodicSave nrgSt) = true ∧ (getN nrgSt Win.NRG_PLS 3 0).testBit 31 = true ∧ accumulates (mode nrgSt) = true ∧
    (getN nrgSt Win.NRG_PLS 3 0).testBit 28 = true ∧ runsAlarms (mode (inMode 8 [])) = false := by decide +kernel
theorem witness_CaptureTriggers : capSt.pins.xtrigEnd.length = 4 ∧ capSt.pins.xtrigLast.length = 4 ∧ capSt.cap.thr.length = 64 ∧ capSt.cap.seq.length = 8 ∧
    capState capSt = 1 ∧ capSt.cap.staged = [] ∧ capState crossSt = 2 ∧ capState recSt = 3 ∧ capState solo = 0 ∧ bitOf (cw capSt Win.CAP_IN 4 0) 30 = false ∧
    capSt.pins.xtrigEnd.getD 2 none = none ∧ capSt.pins.xtrigLast.getD 2 none = none ∧ gated capSt Reg.CAP_CTRL = false ∧ bit solo Reg.CAP_CTRL 31 = false ∧
    (cw capSt Win.CAP_TH 0 0).testBit 30 = false ∧ (cw capSt Win.CAP_TH 0 0).testBit 31 = true ∧ isNaN f32 0x482E9C00 = false ∧ isNaN f32 0x7FC00000 = true ∧
    (seqCond capSt 1 (seqOf capSt 1) (cw capSt Win.CAP_TR 64 0)).isSome = true ∧ (seqOf capSt 1).lastCyc = none ∧
    ((seqOf (after (.sequencerTransition 1) capSt) 1).tmr.getD 2 (0, 0)).1 = 1 := by decide +kernel
theorem witness_CaptureRecords : crossSt.nvs.nor.length = 2 ∧ crossSt.cmp.queues.length = 3 ∧ crossSt.dma.rings.length = 16 ∧
    crossSt.cap.cur.map (fun r => r.spanDone) = some false ∧ (after .postSpanEnd crossSt).cap.cur.map (fun r => r.spanDone) = some true ∧
    capChans shavSt = [(0, [0x80000000, 0, 0x10000, 0])] ∧ capChans crossSt = [] ∧ stagedSt.cap.staged.map (fun r => (r.blocks.length, r.nblk, recSectors r)) = [(0, 0, 1)] ∧
    recRoom stagedSt 1 = true ∧ recPlace stagedSt 1 = some (256, []) ∧ norProtected stagedSt 1 256 1 = false ∧ (norOf stagedSt 1).present = true ∧
    stagedSt.cap.commit = none ∧ commitSt.cap.commit.isSome = true ∧ bit capSt Reg.CAP_STATUS 7 = false ∧ Tab.has shavSt.cap.lastV 0 = false := by decide +kernel

/-- Mesh channel 0 running from superframe 1 with node 300, joined, of slot 75, its last number 9. -/
def mshSt : State :=
  let s := tabs (go (execMeshChannelEnable 1) solo) [(cfgKey Win.MSH_NODE 300 0, 0x8000004B), (cfgKey Win.MSH_NODE 300 1, 0x1E000000)]
  let s := { s with msh := { s.msh with ch := s.msh.ch.set 0 { chOf s 0 with admitAt := some 0 } } }
  setNode (go (execMeshChannelStart 0) s) 300 { MeshNode.zero with st := 1, lastSeq := 9 }
/-- A REPORT of node 300 with the number given. -/
def meshF (net seq : Nat) : MeshFrame := ⟨true, 0, 8, net, 300, 1, 0, [seq / 256, seq % 256] ++ List.replicate 30 0, 60⟩
abbrev net0 : Nat := mcF mshSt 0 0 15 8

theorem test_mesh_channel : mcRun mshSt 0 = true ∧ mshSt.cycle = 500000000 ∧ (chOf mshSt 0).sf = 1 ∧ (chOf (go (execMeshSuperframeEnd 0) mshSt) 0).sf = 2 ∧
    (go (execMeshSuperframeEnd 0) mshSt).cycle = 1000000000 ∧ (go (execMeshSpiWrite 5) solo).msh.spi = some (1600, 5) ∧
    rd (go (execMeshSpiShiftEnd 7) (go (execMeshSpiWrite 5) solo)) Reg.MSH_SPI = 7 ∧ bit (go (execMeshSpiWrite 6) (go (execMeshSpiWrite 5) solo)) Reg.MSH_STATUS 3 = true ∧
    rd (go (execMeshCommandGo 0x80020000) solo) Reg.MSH_CMD_STATUS = 0x40000001 := by decide +kernel
theorem test_mesh_frames : rd (go (execMeshFrameReceive 0 (meshF net0 10)) mshSt) Reg.MSH_RX_FRAMES = 1 ∧ (nodeOf (go (execMeshFrameReceive 0 (meshF net0 10)) mshSt) 300).lastSeq = 10 ∧
    rd (go (execMeshFrameReceive 0 (meshF net0 9)) mshSt) Reg.MSH_REPEAT = 1 ∧ rd (go (execMeshFrameReceive 0 (meshF net0 8)) mshSt) Reg.MSH_STALE = 1 ∧
    rd (go (execMeshFrameReceive 0 (meshF (net0 + 1) 10)) mshSt) Reg.MSH_RX_FOREIGN = 1 ∧
    rd (go (execMeshFrameReceive 0 { meshF net0 10 with fcsOk := false }) mshSt) Reg.MSH_RX_BAD = 1 := by decide +kernel
theorem test_mesh_beacon : (go (execMeshBeaconSend 0) mshSt).pins.mshTxEn = 1 ∧ (chOf (go (execMeshBeaconSend 0) mshSt) 0).bcnDone = true ∧
    ((go (execMeshBeaconSend 0) mshSt).msh.sent.getD 0 []).length = 26 ∧ (go (execMeshTransmitEnd 0) (go (execMeshBeaconSend 0) mshSt)).pins.mshTxEn = 0 ∧
    runs (.meshWakeSend 0 [.bad]) mshSt = true ∧ runs (.meshCapTransmit 0 []) mshSt = true ∧ runs (.meshCcaBackoffEnd 0 [.fill]) mshSt = true := by decide +kernel

/-- STANDBY with the twin link enabled and both lanes up, and a session in which this device is preferred. -/
def twnSt : State := wr (wr (inMode 5 []) Reg.TWN_CTRL 0xC0000000) Reg.TWN_STATUS 0x30000
def sessLink : LinkSess := ⟨5, true, 3, 7⟩
def linkSt : State := { twnSt with twn := { twnSt.twn with sess := some sessLink } }
/-- A frame of the partner with its number, a good tag and the text given after decryption. -/
def linkF (ty lseq : Nat) (body : List Nat) : LinkFrame :=
  ⟨ty, lseq, 100, 1, false, body, gcmTag 5 (linkIv false lseq) (linkHeader ty body.length lseq 100 1 false) (gcmText 5 (linkIv false lseq) body)⟩

theorem test_twin_link : twF (go (execTwinLaneDown 1 false) linkSt) 17 16 = 1 ∧ (go (execTwinLaneDown 1 true) linkSt).twn.sess = none ∧
    twF (go (execTwinLaneUp 0) (wr twnSt Reg.TWN_STATUS 0)) 17 16 = 1 ∧ (go (execTwinHealthReceive (linkF 2 8 [])) linkSt).twn.held.length = 1 ∧
    (go (execTwinHealthReceive (linkF 2 6 [])) linkSt).twn.held = [] ∧ (go execTwinLseqTimeout (go (execTwinHealthReceive (linkF 2 8 [])) linkSt)).twn.sess = none ∧
    (go execTwinCopyTimeout { linkSt with twn := { linkSt.twn with rx := some ⟨1, 8, 0, [], false⟩ } }).cycle = 5000000 ∧
    rd (go execTwinCopyTimeout { linkSt with twn := { linkSt.twn with rx := some ⟨1, 8, 0, [], false⟩ } }) Reg.TWN_COPY_FAIL = 1 := by decide +kernel
/-- A contact record of a standby that missed its partner twice before, long after its start. -/
def lostSt : State := { linkSt with now := 10 ^ 10 * 2 ^ 48, twn := { linkSt.twn with recs := List.replicate 5 (false, false) } }

theorem test_twin_session : (go (execTwinHealthReceive (linkF 2 7 [0, 0, 0, 9])) linkSt).twn.sess = some ⟨5, true, 3, 8⟩ ∧
    rd (go (execTwinHealthReceive (linkF 2 7 (gcmText 5 (linkIv false 7) [0, 0, 0, 9]))) linkSt) Reg.TWN_PEER_HEALTH = 9 ∧
    (go (execTwinHealthReceive { linkF 2 7 [] with tag := 0 }) linkSt).twn.sess = none ∧ rd (go (execTwinHealthReceive { linkF 2 7 [] with tag := 0 }) linkSt) Reg.TWN_AUTH_FAIL = 1 ∧
    (go execTwinHealthSend linkSt).twn.sess = some ⟨5, true, 4, 7⟩ ∧ (go execTwinCfgSend linkSt).twn.sess = some ⟨5, true, 4, 7⟩ := by decide +kernel
theorem test_roles : ((go execTwinContactRecord lostSt).twn.due.map (fun d => (d.1, d.2.2.1))) = some (true, 2) ∧ rd (go execTwinContactRecord lostSt) Reg.TWN_HB_MISSED = 1 ∧
    mode (go execRoleChange (go execTwinContactRecord lostSt)) = 4 ∧ twinRole (go execRoleChange (go execTwinContactRecord lostSt)) = 3 ∧
    (go (execTwnRelinquish 0xC0000001) (inMode 4 [(Reg.TWN_CTRL, 0xC0000000)])).twn.hostRelinq = true ∧
    twinRole (go (execTwnPartnerDown 0xC0000002) (go (execTwnUnlockWrite 0x0D0E7A1C) (go execRoleChange (go execTwinContactRecord lostSt)))) = 1 ∧
    twinRole (go (execTwnPartnerDown 0xC0000002) (go execRoleChange (go execTwinContactRecord lostSt))) = 3 ∧
    (go (execTwnLinkRestart 0xC0000003) linkSt).twn.sess = none := by decide +kernel
theorem test_self_tests : bit (go (execSelftestLaneKat 3 false) solo) Reg.SYS_HEALTH Health.selftestFail = true ∧ (go (execSelftestLaneKat 3 false) solo).sys.laneFail = 8 ∧
    go (execSelftestLaneKat 3 true) solo = solo ∧ bit (go (execSelftestCryptoKat false) solo) Reg.SYS_HEALTH Health.selftestFail = true ∧
    ownGrade (go execMonitorOutOfLimits solo) = 0 ∧ Tab.get (fun _ => 0) (go (execMemoryScrubPass [⟨2, 0, 64, true⟩]) solo).eccCorr 2 = 1 ∧
    bit (go (execMemoryScrubPass [⟨1, 0, 64, false⟩]) solo) Reg.SYS_HEALTH Health.eccUe = true := by decide +kernel

theorem witness_MeshChannels : solo.msh.ch.length = 2 ∧ gated solo Reg.MSH_CTRL = false ∧ radioOk solo = true ∧ meshCfgOk solo 0 = true ∧
    meshCfgOk (wr solo (Reg.MSH_CH_CFG 0 + 4) 0) 0 = false ∧ mcRun mshSt 0 = true ∧ mcRun solo 0 = false ∧ mcEn mshSt 0 = true ∧ gated solo Reg.MSH_SPI = false ∧
    solo.msh.spi = none ∧ (go (execMeshSpiWrite 5) solo).msh.spi = some (1600, 5) ∧ ((chOf (go (execMeshBeaconSend 0) mshSt) 0).txEnd).isSome = true ∧
    gated solo Reg.MSH_CMD = false ∧ solo.msh.cmd = none ∧ cmdNodes mshSt 300 = [300] ∧ cmdNodes solo 300 = [] ∧
    (chOf (let s := go (execMeshChannelEnable 1) solo
      { s with msh := { s.msh with ch := s.msh.ch.set 0 { chOf s 0 with admitAt := some 0 } } }) 0).admitAt = some 0 := by decide +kernel
theorem witness_MeshTraffic : mshSt.msh.ch.length = 2 ∧ mshSt.msh.sent.length = 2 ∧ mcRun mshSt 0 = true ∧ (chOf mshSt 0).txEnd = none ∧
    (meshF net0 10).net = mcF mshSt 0 0 15 8 ∧ ndEn mshSt 300 = true ∧ ndCh mshSt 300 = 0 ∧ (seenPrune mshSt).msh.seen = [] ∧ (nodeOf mshSt 300).st ≠ 0 ∧
    mfLe (meshF net0 10) 6 2 = 10 ∧ (chOf mshSt 0).bcnDone = false ∧ 1000 * airtime mshSt 0 30 ≤ budgetNow mshSt 0 ∧
    budgetNow { mshSt with msh := { mshSt.msh with ch := mshSt.msh.ch.set 0 { chOf mshSt 0 with budget := 0 } } } 0 < 1000 * airtime mshSt 0 30 := by decide +kernel
theorem witness_TwinLinkFrames : bit linkSt Reg.TWN_CTRL 31 = true ∧ twF linkSt 17 16 = 3 ∧ linkSt.twn.sess = some sessLink ∧ linkSt.twn.held = [] ∧
    (linkF 2 7 []).lseq = sessLink.rxSeq ∧ sessLink.rxSeq < (linkF 2 8 []).lseq ∧ (linkF 2 6 []).lseq < sessLink.rxSeq ∧ takesCopies linkSt = true ∧ inTwin (mode linkSt) = true ∧
    linkSt.twn.rx = none ∧ twinKey linkSt = none ∧ linkSt.twn.sending = none := by decide +kernel
theorem witness_TwinLinkFrames_tag : (linkF 2 7 [1]).tag = gcmTag sessLink.key (linkIv (!sessLink.pref) (linkF 2 7 [1]).lseq)
    (linkHeader 2 (linkF 2 7 [1]).body.length 7 (linkF 2 7 [1]).epoch (linkF 2 7 [1]).role (linkF 2 7 [1]).pri)
    (gcmText sessLink.key (linkIv (!sessLink.pref) (linkF 2 7 [1]).lseq) (linkF 2 7 [1]).body) := by decide +kernel
theorem witness_TwinRolesAndSelfTests : linkSt.out.tx.length = 4 ∧ bit linkSt Reg.TWN_CTRL 30 = true ∧ inTwin (mode linkSt) = true ∧ bcnKey linkSt = none ∧
    mode lostSt = Mode.standby ∧ lostSt.twn.due = none ∧ lostSt.sys.twinMode ≠ 2 ∧ hbMiss lostSt ≤ 6 ∧ lostSt.twn.entryAt + startS lostSt * secU ≤ lostSt.now ∧
    mode (inMode 4 []) = Mode.active ∧ gated linkSt Reg.TWN_CTRL = false ∧ gated linkSt Reg.TWN_UNLOCK = false ∧ ((go execTwinContactRecord lostSt).twn.due).isSome = true ∧
    (laneOf solo 3).item = none ∧ domOn solo 6 = true ∧ (⟨1, 0, 64, false⟩ : EccError).mem ≠ 7 := by decide +kernel

/-! Keys, the non-volatile store, the Drill Log, NOR, the governor, JTAG, the queue (17 to 19; 00, 01). -/

/-- The scalar of the P-384 example of RFC 6979, and its public key, X then Y. -/
def scalar1 : Nat := 0x6B9D3DAD2E1B8C1C05B19875B6659F4DE23C3B667BF297BA9AA47740787137D896D5724E4C70A825F872C9EA60D2EDF5
def public1 : Nat := 0xEC3A4E415B4E19A4568618029F427FA5DA9A8BC4AE92E02E06AAE5286B300C64DEF8F0EA9055866064A254515480BC138015D9B72D7D57244EA8EF9AC0C621896708A59367F9DFB9F54CA84B3F1C9DB1288B231C3AE0D4FE7344FD2533264720

-- FIPS 180-4's example, test case 14 of the GCM specification, RFC 3394 4.6, and RFC 6979's example of P-384 with SHA-384 and "sample".
theorem test_sha384 : sha384 [97, 98, 99] = 0xCB00753F45A35E8BB5A03D699AC65007272C32AB0EDED1631A8B605A43FF5BED8086072BA1E7CC2358BAECA134C825A7 := by decide +kernel
theorem test_gcm : ofBe (gcmText 0 (List.replicate 12 0) (List.replicate 16 0)) = 0xCEA7403D4D606B6E074EC5D3BAF39D18 ∧
    gcmTag 0 (List.replicate 12 0) [] (List.replicate 16 0) = 0xD0D1C8A799996BF0265B98B5D48AB919 := by decide +kernel
theorem test_key_wrap : keyWrap 0x000102030405060708090A0B0C0D0E0F101112131415161718191A1B1C1D1E1F 0x00112233445566778899AABBCCDDEEFF000102030405060708090A0B0C0D0E0F =
      0x28C9F404C4B810F4CBCCB35CFB87F8263F5786E2D80ED326CBC7F0E71A99F43BFB988B9B7A02DD21 ∧
    keyUnwrap 0x000102030405060708090A0B0C0D0E0F101112131415161718191A1B1C1D1E1F 0x28C9F404C4B810F4CBCCB35CFB87F8263F5786E2D80ED326CBC7F0E71A99F43BFB988B9B7A02DD21 =
      some 0x00112233445566778899AABBCCDDEEFF000102030405060708090A0B0C0D0E0F ∧ keyUnwrap 0 0 = none := by decide +kernel
theorem test_public_key : pubKey scalar1 = public1 ∧ onCurve public1 = true ∧ onCurve (public1 + 1) = false := by decide +kernel
theorem test_signature : ecdsaSign scalar1 (ascii "sample") 0x94ED910D1A099DAD3254E9242AE85ABDE4BA15168EAF0CA87A555FD56D10FBCA2907E3E83BA95368623B8C4686915CF8 =
      (0x94EDBB92A5ECB8AAD4736E56C691916B3F88140666CE9FA73D64C4EA95AD133C81A648152E44ACF96E36DD1E80FABE46,
       0x99EF4AEB15F178CEA1FE40DB2603138F130E740A19624526203B6351D0A3A94FA329C145786E679E7B82C71A38628AC8) := by decide +kernel
theorem test_signature_verifies : ecdsaOk public1 (ascii "sample") 0x94EDBB92A5ECB8AAD4736E56C691916B3F88140666CE9FA73D64C4EA95AD133C81A648152E44ACF96E36DD1E80FABE46
      0x99EF4AEB15F178CEA1FE40DB2603138F130E740A19624526203B6351D0A3A94FA329C145786E679E7B82C71A38628AC8 = true ∧
    ecdsaOk public1 (ascii "sampl") 0x94EDBB92A5ECB8AAD4736E56C691916B3F88140666CE9FA73D64C4EA95AD133C81A648152E44ACF96E36DD1E80FABE46
      0x99EF4AEB15F178CEA1FE40DB2603138F130E740A19624526203B6351D0A3A94FA329C145786E679E7B82C71A38628AC8 = false := by decide +kernel

/-- Ring 14 enabled with two descriptors of 1,024 bytes posted; the bus can be mastered. -/
def keySt (m : Nat) : State :=
  let s := inMode m []
  let s := { s with dma := { s.dma with linkUp := true, bme := true } }
  after (.descTailWrite 14 2 [⟨0x1000, 1024, 7, false, [], []⟩, ⟨0x2000, 1024, 8, false, [], []⟩]) (after (.ringEnable 14 0x82000000) s)
/-- An ATTEST without a signer. -/
def attest1 : KeyCmd := ⟨true, 1, 1, 0, 0, 0, List.replicate 32 5, 0, 0⟩
/-- The status of the answer in the first buffer. -/
def answer (s : State) : List Nat := Memory.bytes Memory.zero s.dma.hostMem 0x1000 8

/-- Slot 40 LIVE in cell 0 with GEN 6, the other cell staged, its flip due at blank 0, which is open; slot 41 its child. -/
def flipSt : State :=
  { solo with aln := { solo.aln with newest := some 0 }
              key := { solo.key with slots := [(40, ⟨1, 0, 4, none, 6, some ⟨1, 2, 3⟩, some ⟨4, 5, 6⟩, true, some 0, false⟩), (41, ⟨1, 0, 4, some 40, 1, some ⟨7, 8, 9⟩, none, false, none, false⟩)] } }

/-- A configuration bank write of one payload line requested by the transaction engine. -/
def bankSt : State := requestBank solo 0 2 2 (List.replicate 64 1)

theorem test_answers : rd (go (execAttest attest1) (keySt 3)) Reg.KEY_CMD_OK = 1 ∧
    answer (go (execAttest { attest1 with magicOk := false }) (keySt 3)) = [0x4B, 0x52, 0x53, 0x50, 1, 0, 1, 0] ∧
    answer (go (execAttest { attest1 with target := 5 }) (keySt 3)) = [0x4B, 0x52, 0x53, 0x50, 1, 0, 3, 0] ∧
    answer (go (execUnknownCommandCode { attest1 with code := 0x7F }) (keySt 3)) = [0x4B, 0x52, 0x53, 0x50, 0x7F, 0, 1, 0] := by decide +kernel
-- No signer: SIGNER, and for INSTALL_OWNER, which takes none, MODE outside PROVISION; each code is refused before its effect.
theorem test_signer : ((List.map (fun x => answer (go x (keySt 3))) [execInstallOwner attest1, execProvisionDone attest1, execOwnerRotate attest1, execSecRaise attest1,
      execKeyLoad attest1, execKeyCommit attest1, execKeyDerive attest1, execKeyDelete attest1, execPair attest1, execEnterDiag attest1, execZeroize attest1,
      execNrgClear attest1, execLogClear attest1]).map (fun l => (l.getD 4 0, l.getD 6 0))) =
    [(2, 5), (3, 6), (4, 6), (5, 6), (0x10, 6), (0x11, 6), (0x12, 6), (0x13, 6), (0x14, 6), (0x20, 6), (0x21, 6), (0x30, 6), (0x31, 6)] := by decide +kernel
-- The flip of the worked example of 17: GEN 6 becomes 7, and the other cell is live.
theorem test_key_flip : (slotOf (go (execKeyFlip 40) flipSt) 40).gen = 7 ∧ (slotOf (go (execKeyFlip 40) flipSt) 40).live = 1 ∧
    (slotOf (go (execKeyFlip 40) flipSt) 40).flip = none ∧ slotOf (go (execKeyFlip 41) flipSt) 41 = slotOf flipSt 41 ∧
    (slotOf (go (execKeyMaskRefresh [(40, 0)]) flipSt) 40).st = 2 ∧ (slotOf (go (execKeyMaskRefresh [(40, 0)]) flipSt) 41).st = 2 ∧
    (slotOf (go (execKeyMaskRefresh [(40, 1)]) flipSt) 40).cell1 = none ∧ rd (go (execKeyMaskRefresh [(40, 1)]) flipSt) Reg.KEY_FAULTS = 1 := by decide +kernel

def bankDone : State := go (execNvLineWriteComplete true) (go (execNvLineWriteComplete true) (go (execNvLineWriteComplete true) bankSt))

theorem test_bank_write : bankSt.nvs.inUse = [1, 1, 1] ∧ bankDone.nvs.inUse = [0, 1, 1] ∧ rd bankDone (Reg.NVS_SEQ 0) = 1 ∧ rd bankDone Reg.NVS_BANK_WRITES = 1 ∧
    bankDone.nvs.bw = [] ∧ bit bankDone Reg.NVS_STATUS 0 = true ∧ bit bankDone Reg.TXN_STATUS 11 = true ∧
    (go (execNvLineWriteComplete false) bankSt).nvs.bw.map (fun w => (w.line, w.fails)) = [(0, 1)] ∧
    rd (go (execNvLineWriteComplete false) (go (execNvLineWriteComplete false) bankSt)) Reg.NVS_BANK_FAIL = 1 := by decide +kernel

/-- The log in RUN with one record queued; and with slot 0 written. -/
def logSt : State := logRec (setF solo Reg.NVS_STATUS 15 14 0) 0x0010 [1, 2, 3, 4]
def logged : State := go (execLogRecordWrite true) logSt

theorem test_drill_log : logSt.nvs.queue.length = 1 ∧ rd logged Reg.NVS_LOG_COUNT = 1 ∧ logged.nvs.queue = [] ∧ rd (go (execLogSlotLoad 0) logged) Reg.NVS_LOG_RDSTAT = 0xE0000000 ∧
    rd (go (execLogSlotLoad 1) logged) Reg.NVS_LOG_RDSTAT = 0x20000001 ∧ rd (go (execLogRecordWrite false) logSt) Reg.NVS_LOG_COUNT = 1 ∧
    rd (go (execLogRecordWrite false) logSt) Reg.NVS_LOG_RETRY = 1 ∧ fld (go (execLogAutoAdvance 15) (go (execLogSlotLoad 0x80000000) logged)) Reg.NVS_LOG_CUR 14 0 = 1 ∧
    logState (go execLogScanComplete { logged with regs := (wr logged Reg.NVS_STATUS 0xC000).regs }) = 0 := by decide +kernel

/-- Device 1 idle; a program of 4 bytes of its first sector from a buffer at 64. -/
def norSt : State :=
  let s := wr (wr (wr solo Reg.NVS_NOR_ADDR 0x10) Reg.NVS_NOR_LEN 4) Reg.NVS_NOR_BUF_LO 64
  { s with hist := [(64, 0xA5), (65, 1), (66, 2), (67, 3)] }
def progSt : State := go (execNorOpComplete 1 true) (go (execNorProgram 0x102) norSt)

theorem test_nor : bit (go (execNorProgram 0x102) norSt) Reg.NVS_NOR_OP 31 = true ∧ Tab.get norDef (norOf progSt 1).mem 0x10 = 0xA5 ∧ Tab.get norDef (norOf progSt 1).mem 0x14 = 0xFF ∧
    fld progSt Reg.NVS_NOR_OP 30 28 = 0 ∧ fld (go (execNorOpComplete 1 true) (go (execNorVerify 0x104) progSt)) Reg.NVS_NOR_OP 30 28 = 0 ∧
    Tab.get norDef (norOf (go (execNorOpComplete 1 true) (go (execNorErase 0x103) progSt)) 1).mem 0x10 = 0xFF ∧
    (go (execNorOpComplete 1 true) (go (execNorRead 0x101) { progSt with hist := [] })).hist = norSt.hist ∧
    fld (go (execNorOpTimeout 1) (go (execNorProgram 0x102) norSt)) Reg.NVS_NOR_OP 30 28 = 1 := by decide +kernel

/-- Domain 8 queued for power-up since cycle 0, of COST 1,200, under the reset SLEW of 40: a ramp of 300 cycles. -/
def govSt : State := let s := putN solo Win.PWR_DOM 8 0 0x880004B0; { s with pwr := { s.pwr with headAt := 0 } }
def rampSt : State := go execGovRampStart govSt
def rampDone : State := go execGovRampEnd rampSt

theorem test_governor : govHead govSt = some 8 ∧ rampSt.cycle = 20 ∧ domState rampSt 8 = 2 ∧ rampDone.cycle = 320 ∧ domState rampDone 8 = 3 ∧ rd rampDone Reg.PWR_RAMPS = 1 ∧
    (go (execGovSettleEnd 8) rampDone).cycle = 1320 ∧ domState (go (execGovSettleEnd 8) rampDone) 8 = 4 := by decide +kernel
theorem test_jtag : (go execJtagIdcode solo).jtag.dr = 0x181924EF ∧ (go execJtagBypass solo).jtag.ir = 1 ∧ (go (execJtagSamplePreload 5) solo).jtag.boundary = 5 ∧
    (go execJtagExtest (inMode 8 [])).jtag.ir = 4 ∧ (go execJtagClamp solo).jtag.ir = 5 ∧ (go execJtagHighz solo).jtag.ir = 6 ∧ (go (execJtagTrst true) solo).pins.trstLow = true ∧
    (go execJtagIdcode (go (execJtagTrst true) solo)).jtag.ir = 0 := by decide +kernel
theorem test_step : step { solo with pending := [.drain C0 ⟨0, 0, 0, 0⟩, .pwrFailFall] } = exec (.drain C0 ⟨0, 0, 0, 0⟩) { solo with pending := [.pwrFailFall] } := rfl
/-- In one state no management core runs, in the other core 0 does: the two cases of an idle step. -/
theorem witness_Idle : (State.reset.pending = [] ∧ (List.range 4).all (fun c => !coreRuns State.reset c) = true) ∧ (solo.pending = [] ∧ coreRuns solo 0 = true) := by decide +kernel

/-- A Sync whose timestamp is taken is followed by its Follow_Up (R95). -/
theorem test_two_step : (after (.ethFrameTransmit 0) { wr solo (ethReg 0 0) (2 ^ 30) with out := { solo.out with tx := [[ptpFrame 0 7], [], [], []] } }).out.tx.getD 0 [] =
    [ptpFrame 8 7] := by decide +kernel
theorem test_idle : (match step solo with | .next t => (t.cycle, t.now) | _ => (0, 0)) = (1, 2 * 2 ^ 48) := by decide +kernel
theorem test_first_step_from_reset : (match step { State.reset with pending := [.ref10mLoss] } with | .next _ => true | _ => false) = true := by decide +kernel

/-! Ill-formed commands, one for each check of WellFormed, and the well-formed one beside it. -/

theorem test_ill_formed_offset : (Instr.registerWrite 2 0 15).wf = false ∧ (Instr.registerWrite 0x210000 0 15).wf = false ∧
    (Instr.registerWrite 4 0 15).wf = true ∧ (Instr.registerWrite 0x208000 0 15).wf = true := by decide +kernel
theorem test_ill_formed_window : (Instr.windowRead 4 0).wf = false ∧ (Instr.windowRead Win.TIME_CMP 0).wf = true := by decide +kernel
theorem test_ill_formed_stream : (Instr.resamplerOutput 8192 0).wf = false ∧ (Instr.resamplerOutput 8191 0).wf = true := by decide +kernel
theorem test_ill_formed_session : (Instr.sessionFinalSend 0 0).wf = false ∧ (Instr.keyCellEpochLimit 256).wf = false ∧ (Instr.sessionFinalSend 255 0).wf = true ∧
    (Instr.meterCycleComplete 0 0 65536000000000 [] []).wf = false ∧ (Instr.c37DataOn 2 ⟨9, false⟩ 65536).wf = false ∧ (Instr.c37DataOn 2 ⟨9, false⟩ 4712).wf = true := by decide +kernel
theorem test_ill_formed_descriptor : (Instr.descTailWrite 4 1 [⟨0, 1, 7, false, [], [256]⟩]).wf = false ∧ (Instr.descTailWrite 4 1 [⟨2 ^ 64, 64, 7, false, [], []⟩]).wf = false ∧ (Instr.descTailWrite 4 1 [⟨0, 2 ^ 24, 7, false, [], []⟩]).wf = false ∧
    (Instr.descTailWrite 4 1 [⟨0, 64, 2 ^ 16, false, [], []⟩]).wf = false ∧ (Instr.descTailWrite 4 1 [⟨0, 1, 7, false, [256], []⟩]).wf = false ∧
    (Instr.descTailWrite 4 1 [⟨0, 1, 7, false, [1, 2], []⟩]).wf = false ∧ (Instr.descTailWrite 4 1 [⟨0, 1, 7, false, [255], []⟩]).wf = true := by decide +kernel
theorem test_ill_formed_key_command : (Instr.attest { attest1 with ver := 2 ^ 16 }).wf = false ∧ (Instr.attest { attest1 with code := 2 ^ 16 }).wf = false ∧
    (Instr.attest { attest1 with seq := 2 ^ 64 }).wf = false ∧ (Instr.attest { attest1 with target := 2 ^ 64 }).wf = false ∧
    (Instr.attest { attest1 with kind := 2 ^ 16 }).wf = false ∧ (Instr.attest { attest1 with payload := [256] }).wf = false ∧
    (Instr.attest { attest1 with r := 2 ^ 384 }).wf = false ∧ (Instr.attest { attest1 with s := 2 ^ 384 }).wf = false ∧ (Instr.attest attest1).wf = true := by decide +kernel
theorem test_ill_formed_mesh_frame : (Instr.meshFrameReceive 0 { meshF 5 9 with ftype := 16 }).wf = false ∧ (Instr.meshFrameReceive 0 (meshF 65536 9)).wf = false ∧
    (Instr.meshFrameReceive 0 { meshF 5 9 with addr := 65536 }).wf = false ∧ (Instr.meshFrameReceive 0 { meshF 5 9 with body := [256] }).wf = false ∧
    (Instr.meshFrameReceive 0 { meshF 5 9 with body := List.replicate 128 0 }).wf = false ∧ (Instr.meshFrameReceive 0 (meshF 5 9)).wf = true := by decide +kernel
theorem test_ill_formed_link_frame : (Instr.twinHelloReceive ⟨256, 0, 0, 0, false, [], 0⟩).wf = false ∧ (Instr.twinHelloReceive ⟨1, 2 ^ 32, 0, 0, false, [], 0⟩).wf = false ∧
    (Instr.twinHelloReceive ⟨1, 0, 2 ^ 64, 0, false, [], 0⟩).wf = false ∧ (Instr.twinHelloReceive ⟨1, 0, 0, 4, false, [], 0⟩).wf = false ∧
    (Instr.twinHelloReceive ⟨1, 0, 0, 0, false, [256], 0⟩).wf = false ∧ (Instr.twinHelloReceive ⟨1, 0, 0, 3, false, [255], 0⟩).wf = true := by decide +kernel
theorem test_ill_formed_c37 : (Instr.internalFrameDeliver { c37f with idcode := 2 ^ 16 } 1 false 0).wf = false ∧ (Instr.internalFrameDeliver { c37f with soc := 2 ^ 32 } 1 false 0).wf = false ∧
    (Instr.internalFrameDeliver { c37f with fracsec := 2 ^ 32 } 1 false 0).wf = false ∧ (Instr.internalFrameDeliver { c37f with cmd := 2 ^ 16 } 1 false 0).wf = false ∧
    (Instr.internalFrameDeliver { c37f with size := 2 ^ 16 } 1 false 0).wf = false ∧ (Instr.internalFrameDeliver c37f (2 ^ 128) false 0).wf = false ∧
    (Instr.internalFrameDeliver c37f 1 false 0).wf = true := by decide +kernel
theorem test_ill_formed_ethernet : (Instr.ethFrameReceive 0 { eth1 with len := 9217 }).wf = false ∧ (Instr.ethFrameReceive 0 { eth1 with udpSrc := 65536 }).wf = false ∧
    (Instr.ethFrameReceive 0 { eth1 with udpDst := 65536 }).wf = false ∧ (Instr.ethFrameReceive 0 { eth1 with srcIp := 2 ^ 128 }).wf = false ∧
    (Instr.ethFrameReceive 0 { eth1 with payload := .c37 { c37f with size := 65536 } }).wf = false ∧ (Instr.ethFrameReceive 0 eth1).wf = true := by decide +kernel
theorem test_no_table_word : decodeTableWord 32 5 = none ∧ State.reset.withFetchWord 32 5 = State.reset := by decide +kernel

theorem witness_KeyCommands : attest1.seq < 2 ^ 64 ∧ ringRuns (keySt 3) 14 = true ∧ busOk (keySt 3) = true ∧ posted (keySt 3) 14 = 2 ∧ cplRoom (keySt 3) 14 = 15 ∧
    (keySt 3).key.busy = none ∧ gated (keySt 3) Reg.KEY_STATUS = false ∧ descOk (Tab.get noDesc (ringOf (keySt 3) 14).q 0) = true ∧
    signerOk attest1 = true ∧ sigOk (keySt 3) attest1 = true ∧ attest1.target = unitId (keySt 3) ∧ cmdModeOk (keySt 3) 1 = true ∧ attest1.payload.length = 32 ∧
    signerOk { attest1 with code := 0x21 } = false ∧ (slotOf flipSt 40).flip = some 0 ∧ newestOr flipSt = 0 ∧ (slotOf flipSt 40).st = 1 ∧
    (slotOf flipSt 40).cell 1 ≠ none ∧ (slotOf flipSt 41).parent = some 40 ∧ (slotOf flipSt 5).cell 0 = none := by decide +kernel
theorem witness_BankWrites : mode bankSt ≠ Mode.halt ∧ (bankHead bankSt).map (fun w => (w.kind, w.line, w.fails, w.who)) = some (0, 0, 0, 2) ∧
    (bankHead (go (execNvLineWriteComplete false) bankSt)).map (fun w => (w.bank, w.fails)) = some (0, 1) ∧
    ((bankHead (go (execNvLineWriteComplete true) (go (execNvLineWriteComplete true) bankSt))).map (fun w => decide (w.lines < w.line))) = some true ∧
    bankSt.nvs.inUse.length = 3 ∧
    (let s := requestBank (keyWait (keySt 3) (0, ⟨0x1000, 1024, 7, false, [], []⟩) { attest1 with code := 0x11, kind := 1, payload := leBytes 2 40 ++ List.replicate 14 0 } 1) 2 1 1 []
     (bankHead s).map (fun w => (w.kind, w.who)) = some (2, 1) ∧ (s.key.busy.map (fun b => (b.left, b.cmd.code))) = some (1, KC.keyCommit)) := by decide +kernel
theorem witness_DrillLogAndNor : logSt.nvs.nor.length = 2 ∧ logSt.nvs.queue.map (fun r => r.code) = [0x0010] ∧ logState logSt = 0 ∧ gated logSt Reg.NVS_STATUS = false ∧
    rd logSt Reg.NVS_LOG_COUNT = 0 ∧ logSt.nvs.fails = 0 ∧ logState State.reset = 3 ∧ gated logSt Reg.NVS_LOG_CUR = false ∧ gated norSt Reg.NVS_NOR_OP = false ∧
    (norOf norSt 1).run = none ∧ norProtected norSt 1 0 1 = false ∧ (norOf (go (execNorProgram 0x102) norSt) 1).run = some (2, 0x10, 4, 64, 0) := by decide +kernel
theorem witness_GovernorAndJtag : govHead govSt = some 8 ∧ govSt.pwr.ramp = none ∧ mode govSt ≠ Mode.lastGasp ∧ rampSt.pwr.ramp = some (8, 320) ∧ domState rampDone 8 = 3 ∧
    domState solo 8 ≠ 3 ∧ solo.pins.trstLow = false ∧ (go (execJtagTrst true) solo).pins.trstLow = true ∧ mode (inMode 8 []) = Mode.diagnostic := by decide +kernel
theorem witness_StepTakesTheFrontCommand : ({ solo with pending := [.pwrFailFall] } : State).pending = .pwrFailFall :: [] ∧ solo.pending = [] := by decide +kernel
/-- A LOG_CLEAR of the empty log signed by the owner, and the part with that owner. -/
def clear1 : KeyCmd :=
  let c : KeyCmd := ⟨true, 1, 0x31, 5, 0, 2, List.replicate 8 0, 0, 0⟩
  let g := ecdsaSign scalar1 (cmdBytes c) 6
  { c with r := g.1, s := g.2 }
def ownedSt : State := let s := keySt 3; { s with key := { s.key with owner := some public1 } }

theorem test_signed_command : answer (go (execLogClear clear1) ownedSt) = [0x4B, 0x52, 0x53, 0x50, 0x31, 0, 0, 0] ∧ rd (go (execLogClear clear1) ownedSt) Reg.NVS_LOG_GEN = 1 ∧
    rd (go (execLogClear clear1) ownedSt) Reg.KEY_CMD_SEQ_LO = 5 ∧ rd (go (execLogClear { clear1 with seq := 6 }) ownedSt) Reg.KEY_SIG_FAIL = 1 := by decide +kernel
theorem test_repeated_command : rd (go (execLogClear clear1) (go (execLogClear clear1) ownedSt)) Reg.KEY_REPEAT = 1 ∧
    rd (go (execLogClear clear1) (go (execLogClear clear1) ownedSt)) Reg.NVS_LOG_GEN = 1 := by decide +kernel
theorem witness_KeyCommands_signed : clear1.seq < 2 ^ 64 ∧ signerOk clear1 = true ∧ sigOk ownedSt clear1 = true ∧ clear1.target = unitId ownedSt ∧ cmdSeq ownedSt < clear1.seq ∧
    cmdModeOk ownedSt 0x31 = true ∧ sigOk ownedSt { clear1 with r := 0 } = false ∧ cmdLe clear1 0 4 = rd ownedSt Reg.NVS_LOG_GEN := by decide +kernel
theorem witness_KeyCommands_owner : (let s := keySt 1
    let c := { attest1 with code := 2, payload := List.replicate 96 3 }
    ringRuns s 14 = true ∧ signerOk c = true ∧ sigOk s c = true ∧ c.target = unitId s ∧ cmdModeOk s 2 = true ∧ keyParam s c = 0 ∧
    bit (go (execInstallOwner c) s) Reg.KEY_STATUS 7 = true ∧ (go (execInstallOwner c) s).nvs.bw.length = 1) := by decide +kernel
theorem witness_InvariantKept : Invariant solo ∧ runs .pwrFailFall solo = true := by
  unfold Invariant Canonical Shape ChutesFit; decide +kernel

/-! Witnesses that rest on samples of the front end, and further ones for single clauses. -/

/-- Circuit 0 metered on channel 0, whose inputs are all 1 and whose coefficients of phase 0 on the tracking grid are all 0. -/
def meterSt : State := wr (tabs trkSt [(cfgKey Win.NRG_CIR 0 0, 0x80000000)]) (Reg.AFE_FIRGD 0) 0
def meterEnd : State := passTo meterSt (cycleEnd meterSt 0)
def meterIn : List GridTaps := List.replicate 256 ⟨1000000, [List.replicate 16 1]⟩

theorem fir_even {s : State} {ch p : Nat} (h : fld s (Reg.AFE_FIRGD (afFir s ch)) 7 0 = 0) :
    tapInstant s false ch p = sincInstant s ch (halfCentre (halfCentre (firNewest s ch p))) := by
  simp [tapInstant, firInstant, h, halfInstant]

theorem macSum_zero : macSum (List.replicate 16 0) (List.replicate 16 0x3F800000) = 0 := by
  unfold macSum fmac
  generalize Config.macFused = b
  cases b <;> decide +kernel

theorem meter_sample (t : Nat) (ht : t ≤ lastT) : chSample meterEnd false 0 t ⟨1000000, [List.replicate 16 1]⟩ = 0 := by
  have hs : Fresh meterEnd := by unfold Fresh; decide +kernel
  have hi : SincLate meterEnd 0 (halfCentre (halfCentre (firNewest meterEnd 0 1000000))) lastT := by unfold SincLate; decide +kernel
  refine (sample_eq hs (by decide) (by decide +kernel) (by decide +kernel) ?_ (by decide +kernel) (by decide +kernel) (by decide +kernel)).trans macSum_zero
  rw [fir_even (by decide +kernel)]
  exact Nat.le_trans ht (sinc_le hs (by decide +kernel) hi)

theorem meter_samples : ∀ z ∈ chSamples meterEnd false 0 (cycleInstants meterEnd 0 (cycleEnd meterSt 0)) meterIn, isNaN f32 z = false := by
  have hb : ∀ t ∈ cycleInstants meterEnd 0 (cycleEnd meterSt 0), t ≤ lastT := by decide +kernel
  have hl : (cycleInstants meterEnd 0 (cycleEnd meterSt 0)).length = 256 := by decide +kernel
  intro z hz
  simp only [chSamples, List.mem_map, Prod.exists] at hz
  obtain ⟨t, i, hm, rfl⟩ := hz
  have hi : i < 256 := hl ▸ (List.mem_zipIdx' hm).1
  have hg : meterIn.getD i ⟨0, []⟩ = ⟨1000000, [List.replicate 16 1]⟩ := by
    rw [List.getD_eq_getElem?_getD, meterIn, List.getElem?_replicate, if_pos hi, Option.getD_some]
  rw [hg, meter_sample t (hb t (List.fst_mem_of_mem_zipIdx hm))]
  decide +kernel

-- A full cycle without NaN: 256 instants, no sample NaN.
theorem witness_FullCycle : (circOf meterSt 0).next = none ∧ cirEn meterSt 0 = true ∧ gated meterSt Reg.NRG_CTRL = false ∧ 0 < cycleEnd meterSt 0 ∧
    cirElems meterSt 0 = 1 ∧ bits (getN meterSt Win.NRG_CIR 0 1) 20 16 = 0 ∧ bits (getN meterSt Win.NRG_CIR 0 1) 5 0 = 0 ∧
    (cycleInstants meterEnd 0 (cycleEnd meterSt 0)).length = 256 ∧ meterIn.length = 256 ∧ accumulates (mode meterSt) = true ∧
    (trkOf meterSt (trkRef meterSt)).cycs = [] := by decide +kernel

/-- Threshold unit 0 of `capSt` on channel 0 of `trkSt`. -/
def thrSt : State := { capSt with ntab := trkSt.ntab, afe := trkSt.afe }
theorem thr_samples : lockedSamples thrSt 0 480 trkIn = [0x3F800000, 0x3F800000, 0xBF800000, 0x3F800000] :=
  locked_samples (l := [1, 1, -1, 1]) 480 (by decide) (by decide) (by unfold Fresh; decide +kernel) (by decide +kernel) (by decide +kernel)
    (by decide +kernel) (by decide +kernel) (by unfold SincLate; decide +kernel)
theorem witness_Thresholds : bits (cw thrSt Win.CAP_TH 0 0) 17 0 = 0 ∧ (cw thrSt Win.CAP_TH 0 0).testBit 31 = true ∧ (cw thrSt Win.CAP_TH 0 0).testBit 30 = false ∧
    bits (cw thrSt Win.CAP_TH 0 0) 27 26 = 0 ∧ runsLathe (mode thrSt) = true ∧ isNaN f32 0x3F800000 = false ∧ lockedSamples thrSt 0 480 [] = [] ∧
    thrValue thrSt 0 480 [] = f32.nan ∧ (cycReg capSt Reg.CAP_NOREC).2.2 = 0 := by decide +kernel

theorem witness_Intervals : (match one.lo with | .num l => decide (0 < l.m) | _ => false) = true ∧ (⟨0, 0, 0⟩ : VEl).lo = .num ⟨0, -149⟩ ∧
    (match (⟨0xBF800000, 0, 0⟩ : VEl).hi with | .num h => decide (h.m < 0) | _ => false) = true ∧
    (match (⟨0, 0, 0x3F800000⟩ : VEl).lo, (⟨0, 0, 0x3F800000⟩ : VEl).hi with | .num l, .num h => decide (l.m < 0) && decide (0 < h.m) | _, _ => false) = true := by
  decide +kernel
/-- A word of the lane's scratch memory, of history memory and of chuck A with an uncorrectable error. -/
def eccSt : State := let s := laneSt [] [] []; { s with sys := { s.sys with ue := [(6, 0, 2), (5, 0, 0), (1, 0, 8)] } }
theorem witness_Ecc : ueIn eccSt 8 (.scratch 0 16) ≠ none ∧ ueIn eccSt 8 (.scratch 0 32) = none ∧ ueIn eccSt 48 (.hist 0) ≠ none ∧ ueIn eccSt 4 (.chuck 0 64) ≠ none ∧
    Issues eccSt L0 4 [3, 1] [] := by unfold Issues Fetches; decide +kernel
theorem witness_EndsNow : endsNow (laneSt [] [] []) L0 (laneOf (laneSt [] [] []) 0) = false ∧
    endsNow { laneSt [] [] [] with cycle := 10 ^ 12 } L0 (laneOf (laneSt [] [] []) 0) = true ∧
    ({ (laneSt [] [] []).ssk with ktBad := [0] }).ktBad.contains inv1.entry = true := by decide +kernel
theorem witness_SameCycle : solo.cyc.mode = none ∧ solo.cyc.addend = none ∧ solo.cyc.switched = false ∧ solo.cyc.accs = none ∧ Tab.has solo.cyc.regs 0x10004 = false ∧
    (halt (after .lastGaspEntry { solo with pwr := { solo.pwr with fallAt := some 0 } }) 0x12).cyc.mode ≠ none ∧ solo.time.addend ≤ 8 * 2 ^ 48 ∧
    Tab.has (assertLine (wr solo Reg.DET_ALM_CFG 8) 3 0xC0000005 7).cyc.lines 3 = true ∧
    almRank 0x80000001 < Tab.get (fun _ => 0) (assertLine (wr solo Reg.DET_ALM_CFG 8) 3 0xC0000005 7).cyc.lines 3 ∧
    (∀ x ∈ accsThen nrgSt, x.length = 14) ∧ Tab.has solo.cyc.health 5 = false := by decide +kernel
/-- SOLO with IRIG-B B004 selected and a frame of second 7 behind it. -/
def irigSt : State := { wr (wr solo Reg.TIME_CTRL 0x402) Reg.TIME_STATUS 8 with time := { solo.time with irigPrev := some 7 } }
theorem witness_IrigAndPtp : (let f : IrigFrame := ⟨false, true, true, true, 8, 8, none, false, 0, 0⟩
      fld irigSt Reg.TIME_CTRL 11 10 = 1 ∧ f.parityOk = true ∧ f.ext = true ∧ irigUtc irigSt f = 8) ∧ mode irigSt ≠ Mode.halt ∧
    solo.time.ptpPort = none ∧ (solo.ing.fwq.map (fun x => x.len)).sum + 9216 ≤ 262144 ∧ timeSrc (wr solo Reg.TIME_CTRL 1) = 1 := by decide +kernel
theorem witness_CompareAlone : cmpDest cmpSt 5 = none ∧ (5, cmpSt.cycle) ∉ cmpSt.time.along ∧
    ((5, 0) : Nat × Nat) ∈ ({ cmpSt with time := { cmpSt.time with along := [(5, 0)] } } : State).time.along ∧
    (let s := putN cmpSt Win.TIME_CMP 5 0 0xA0010000
     cmpDest s 5 ≠ none ∧ Tab.get (fun _ => 0) s.time.dest ((cmpDest s 5).getD 0) ≤ s.cycle ∧ ∀ j < 64, j ≠ 5 → cmpWaits s j = false) := by decide +kernel
/-- Blank 0 with a provisional evaluation of unit 0 and one of the island pair to come. -/
def detSt : State := { blankSt with aln := { blankSt.aln with ring := blankSt.aln.ring.map (fun o => o.map (fun b => { b with dets := [(0, 0, 7), (8, 2, 7)] })) } }
theorem witness_DetectorQueue : detNext detSt 0 = some (0, (0, 0, 7)) ∧ detNext detSt 8 = some (0, (8, 2, 7)) ∧ detNext detSt 1 = none ∧ 7 + 30000 < blankSt.cycle + 60000 ∧
    detBefore (0, (0, 0, 7)) (0, (0, 2, 7)) = true := by decide +kernel
theorem witness_Bus : mode ringSt ≠ Mode.halt ∧ ringSt.dma.owed = [] ∧ ringSt.dma.cfgAt ≤ ringSt.cycle ∧ busOk solo = false ∧
    descsFor solo 4 (min 64 (posted solo 4)) 0 8 = none ∧ posted solo 4 < 64 ∧ (ringOf ringSt 4).unsig = 0 ∧
    (after .functionLevelReset ringSt).cycle < (after .functionLevelReset ringSt).dma.cfgAt ∧
    (let s := after (.recordPlace 4) (wr ringSt (Reg.RING_IRQ_MOD 4) 0x640005)
     (ringOf s 4).unsig ≠ 0 ∧ (ringOf s 4).armed = true ∧ bit s (Reg.RING_CTRL 4) 25 = true) := by decide +kernel
theorem witness_ChuteQuiet : itemSt.cyc.refused = [] ∧ (chuteOf soiSt 1).coming = [] ∧ (chuteOf (after (.chPushHi 1 5) soiSt) 1).coming ≠ [] := by decide +kernel
/-- Ring 15 with one job of 64 bytes of parameters: 8 bytes of input, an output buffer of 64. -/
def hostSt : State :=
  let s := { solo with dma := { solo.dma with linkUp := true, bme := true } }
  after (.descTailWrite 15 1 [⟨0x1000, 64, 7, false, leBytes 8 0x2000 ++ leBytes 4 8 ++ leBytes 4 64 ++ leBytes 8 0x3000 ++ List.replicate 40 0, List.replicate 8 65⟩])
    (after (.ringEnable 15 0x82000000) s)
theorem witness_HostJob : (hostSt.cmp.queues.getD 0 []).isEmpty = true ∧ (hostSt.cmp.queues.getD 1 []).isEmpty = true ∧ bit hostSt Reg.CMP_CTRL 2 = false ∧ ringRuns hostSt 15 = true ∧
    busOk hostSt = true ∧ posted hostSt 15 ≠ 0 ∧ hostSt.cmp.order.length < cplRoom hostSt 15 ∧ bit hostSt Reg.CMP_CTRL 0 = true ∧ domOn hostSt 25 = true ∧
    (Tab.get noDesc (ringOf hostSt 15).q 0).addr % 8 = 0 ∧ (Tab.get noDesc (ringOf hostSt 15).q 0).len = 64 ∧
    ((after (.cmpJobStart 0) hostSt).cmp.run.getD 0 none).map (fun j => (j.paramOk, j.input, j.dst)) = some (true, List.replicate 8 65, 2) := by decide +kernel
theorem witness_SampleWords : (0xC8010800#32 : Word).toNat.testBit 30 = true ∧ iqSamples 1 1 [.word 0xC8010800#32] = [(-2047, 128)] ∧ iqSamples 0 0 [.bad, .word 0x8801_0800#32] = [(0, 0)] ∧
    (0x88010800#32 : Word).toNat.testBit 30 = false := by decide +kernel
theorem witness_MemoryErrors : (⟨7, 1, 40, false⟩ : EccError).mem = 7 ∧ (⟨9, 1, 0, false⟩ : EccError).mem = 9 ∧ (⟨8, 0, 0, false⟩ : EccError).mem = 8 ∧
    mode (go (execMemoryScrubPass [⟨8, 0, 0, false⟩]) solo) = Mode.halt ∧ (go (execMemoryScrubPass [⟨9, 1, 0, false⟩]) solo).ssk.ktBad = [1] ∧
    linkSt.twn.sess ≠ none ∧ isInstant { solo with now := 0 } 0 = true ∧ isInstant solo 1 = false := by decide +kernel

end Sys2Proof.Tests
end

section
/-! PROOFS. The step itself: the command at the front of the queue, and the fabric cycle of an empty one (00 R9; 01 R20; 03 R95; 04 R134). -/

namespace Sys2Proof

/-- What a listed key reads as does not rest on the default. -/
theorem Tab.get_of_has {α : Type} (d e : Nat → α) {t : Tab α} {k : Nat} (h : Tab.has t k = true) : Tab.get d t k = Tab.get e t k := by
  induction t with
  | nil => simp [Tab.has] at h
  | cons p t ih =>
    obtain ⟨i, v⟩ := p
    by_cases hi : i = k
    · simp [Tab.get, hi]
    · simpa [Tab.get, hi] using ih (by simpa [Tab.has, hi] using h)

end Sys2Proof

namespace Sys2Proof.Machine

theorem step_nil {s : State} (h : s.pending = []) : step s = .next (idle s) := by simp [step, h]

theorem step_cons {s : State} {c : Instr} {cs : List Instr} (h : s.pending = c :: cs) : step s = exec c { s with pending := cs } := by
  simp [step, h]

/-! One fabric cycle. -/

theorem pass_one (s : State) : pass s 1 = { s with cycle := s.cycle + 1, now := s.now + addendNow s, cyc := CycS.none } := by simp [pass]

theorem pass_changes (s : State) (n : Nat) : ChangesOnly [.cycle, .now] s (pass s n) := by
  refine ⟨by simp, fun c hc => ?_⟩
  cases c <;> first | exact absurd (by decide) hc | simp [Comp.same]

theorem coreRuns_pass (s : State) (n c : Nat) : coreRuns (pass s n) c = coreRuns s c := by
  unfold pass
  split <;> rfl

theorem firmwareRuns_pass (s : State) (n : Nat) : firmwareRuns (pass s n) = firmwareRuns s := by
  simp only [firmwareRuns, funext (coreRuns_pass s n)]

theorem firmwareRuns_iff (s : State) : firmwareRuns s = true ↔ ∃ c, c < 4 ∧ coreRuns s c = true := by simp [firmwareRuns]

/-! Firmware's own PTP messages (03 R95; log 132). -/

/-- The state in which firmware has taken the frames of its receive queue (04 R134). -/
def fwTakes (s : State) : State := { s with ing := { s.ing with fwq := [] } }

@[simp] theorem fwTakes_fields (s : State) :
    (fwTakes s).cycle = s.cycle ∧ (fwTakes s).now = s.now ∧ (fwTakes s).out = s.out ∧ (fwTakes s).time = s.time ∧
    (fwTakes s).ing = { s.ing with fwq := [] } := by
  and_intros <;> rfl

theorem idle_firmware {s : State} (h : firmwareRuns s = true) : idle s = ptpOwn (fwTakes (pass s 1)) := by
  rw [idle_eq, firmwareRuns_pass, if_pos h]
  rfl

theorem idle_no_firmware {s : State} (h : firmwareRuns s = false) : idle s = pass s 1 := by
  rw [idle_eq, firmwareRuns_pass, if_neg (by simp [h])]

theorem fwTakes_changes (s : State) : ChangesOnly [.ing] s (fwTakes s) := by
  refine ⟨rfl, fun c hc => ?_⟩
  cases c <;> first | rfl | exact absurd (by decide) hc

theorem ptpMay_iff (s : State) (p ty : Nat) :
    ptpMay s p ty = true ↔ (ty ≠ 2 → s.time.ptpPort ≠ some p) ∧
      (∀ x, Tab.has s.time.ptpSent (16 * p + ty) = true → (Tab.get (fun _ => x) s.time.ptpSent (16 * p + ty)).1 + 31250000 ≤ s.cycle) := by
  unfold ptpMay
  by_cases h : Tab.has s.time.ptpSent (16 * p + ty) = true
  · have hx (x) := Tab.get_of_has (fun _ => x) (fun _ => (0, 0)) h
    simp [h, hx, Classical.or_iff_not_imp_left]
  · simp [h, Classical.or_iff_not_imp_left]

/-- A frame that a port takes stands at the end of its queue, and the port transmits. -/
theorem enqueue_queued {s : State} {p : Nat} {f : TxFrame} (h : (enqueue s p f).2 = true) :
    txEn s p = true ∧ (enqueue s p f).1.out = { s.out with tx := s.out.tx.set p (s.out.tx.getD p [] ++ [f]) } := by
  unfold enqueue at h ⊢
  dsimp only at h ⊢
  split at h
  · rename_i hc
    rw [if_pos hc]
    exact ⟨(Bool.and_eq_true_iff.mp hc).1, rfl⟩
  · cases h

/-- Firmware sends nothing of its own, or one Sync, Pdelay_Req or Announce that it may send. -/
theorem ptpOwn_sends (s : State) :
    ((ptpOwn s).out = s.out ∧ (ptpOwn s).time = s.time) ∨
    ∃ p ty n, p < 4 ∧ (ty = 0 ∨ ty = 2 ∨ ty = 11) ∧ ptpMay s p ty = true ∧ txEn s p = true ∧
      (ptpOwn s).out = { s.out with tx := s.out.tx.set p (s.out.tx.getD p [] ++ [ptpFrame ty n]) } ∧
      (ptpOwn s).time = { s.time with ptpSent := (ptpOwn s).time.ptpSent } := by
  unfold ptpOwn
  dsimp only
  generalize Config.fresh s.freeCtr % 16 = x
  generalize hty : [0, 2, 11].getD (x / 4) 0 = ty
  generalize (Tab.get (fun _ => (0, 0)) s.time.ptpSent (16 * (x % 4) + ty)).2 = n
  split
  · rename_i hgo
    obtain ⟨⟨hx, hmay⟩, hq⟩ : (x < 12 ∧ ptpMay s (x % 4) ty = true) ∧ (enqueue s (x % 4) (ptpFrame ty n)).2 = true := by
      simpa using hgo
    obtain ⟨hen, hout⟩ := enqueue_queued hq
    have hkind : ty = 0 ∨ ty = 2 ∨ ty = 11 := by
      obtain h | h | h : x / 4 = 0 ∨ x / 4 = 1 ∨ x / 4 = 2 := by omega
      all_goals simp [h] at hty; omega
    exact .inr ⟨x % 4, ty, n, Nat.mod_lt _ (by decide), hkind, hmay, hen, hout, rfl⟩
  · exact .inl ⟨rfl, rfl⟩

theorem ptpOwn_ing (s : State) : (ptpOwn s).ing = s.ing := (ptpOwn_changes s).2 .ing (by decide)
theorem ptpOwn_cycle (s : State) : (ptpOwn s).cycle = s.cycle := (ptpOwn_changes s).2 .cycle (by decide)
theorem ptpOwn_now (s : State) : (ptpOwn s).now = s.now := (ptpOwn_changes s).2 .now (by decide)

/-- In the idle cycle of a part whose firmware runs, it takes what it has received and may send one message of its own. -/
theorem idle_firmware_changes {s : State} (h : firmwareRuns s = true) :
    ChangesOnly [.cycle, .now, .freeCtr, .ing, .out, .time] s (idle s) ∧ (idle s).ing = { s.ing with fwq := [] } := by
  rw [idle_firmware h]
  refine ⟨?_, by simp [ptpOwn_ing]⟩
  exact changesOnly_trans (changesOnly_mono (by decide) (pass_changes s 1))
    (changesOnly_trans (changesOnly_mono (by decide) (fwTakes_changes _)) (changesOnly_mono (by decide) (ptpOwn_changes _)))

theorem idle_cycle_now (s : State) : (idle s).cycle = s.cycle + 1 ∧ (idle s).now = s.now + addendNow s := by
  cases h : firmwareRuns s
  · simp [idle_no_firmware h, pass_one]
  · simp [idle_firmware h, ptpOwn_cycle, ptpOwn_now, pass_one]

/-- Settles O58: `step` by the form of the queue; the idle cycle by whether firmware runs in it. -/
theorem stepTakesTheFrontCommand : Obligations.StepTakesTheFrontCommand := by
  refine ⟨fun _ _ _ => step_cons, fun s hs => ⟨idle s, step_nil hs, (idle_cycle_now s).1, (idle_cycle_now s).2, ?_, ?_⟩⟩
  · intro hnone
    have h : firmwareRuns s = false := by
      rw [Bool.eq_false_iff, ne_eq, firmwareRuns_iff]
      rintro ⟨c, hc, hr⟩
      simp [hnone c hc] at hr
    rw [idle_no_firmware h]
    exact pass_changes s 1
  · intro hsome
    have h := (firmwareRuns_iff s).mpr hsome
    obtain ⟨hframe, hing⟩ := idle_firmware_changes h
    refine ⟨hframe, hing, ?_⟩
    rw [idle_firmware h]
    obtain ⟨hout, htime⟩ | ⟨p, ty, n, hp, hty, hmay, hen, hout, htime⟩ := ptpOwn_sends (fwTakes (pass s 1))
    · simp [hout, htime]
    · obtain ⟨hport, hgap⟩ := (ptpMay_iff _ _ _).mp hmay
      simp only [fwTakes_fields, pass_keeps] at hout htime hport hgap
      refine ⟨htime, by rw [hout], .inr ⟨p, ty, n, hp, hty, hport, ?_, by rw [hout], hen⟩⟩
      simpa [ptpOwn_cycle] using hgap

end Sys2Proof.Machine
end

section
/-! PROOFS. Full-word writes of registers (00 R9, R10, R12; 01 R34, R36; 02 R70). -/

namespace Sys2Proof.Machine

/-! Bits of words. -/

/-- The complement of a word, bit by bit. -/
theorem testBit_ones32_sub {x b : Nat} (hx : x < 2 ^ 32) (hb : b < 32) : (ones32 - x).testBit b = !x.testBit b := by
  have h := Nat.testBit_two_pow_sub_succ hx b
  have e : 2 ^ 32 - (x + 1) = ones32 - x := by unfold ones32; omega
  simpa [e, hb] using h

theorem and_lt_word {x y : Nat} (hx : x < 2 ^ 32) : x &&& y < 2 ^ 32 := Nat.lt_of_le_of_lt Nat.and_le_left hx

/-- A bit put to one. -/
theorem putBits_one (w b : Nat) : putBits w b b 1 = w ||| 2 ^ b := by
  refine Nat.eq_of_testBit_eq (fun i => ?_)
  rw [testBit_putBits _ _ _ _ _ (Nat.le_refl b), Nat.testBit_or, Nat.testBit_two_pow]
  by_cases h : b = i
  · simp [h]
  · simp [h, show ¬(b ≤ i ∧ i ≤ b) by omega]

/-! What a write leaves in a register, by its access codes. -/

/-- No bit is both RW and W1C, and the RW bits of a register lie in its word. -/
theorem regionRows_apart (region : Nat) : ∀ r ∈ regionRows region, r.rw &&& r.w1c = 0 ∧ r.rw < 2 ^ 32 := by
  unfold regionRows
  split
  all_goals decide

theorem regRow?_apart {off : Nat} {r : RegRow} (h : regRow? off = some r) : r.rw &&& r.w1c = 0 ∧ r.rw < 2 ^ 32 :=
  regionRows_apart _ r (List.mem_of_find?_eq_some h)

theorem testBit_writeWord {r : RegRow} {old v b : Nat} (hr : r.rw < 2 ^ 32) (hv : v < 2 ^ 32) (hb : b < 32) :
    (writeWord r old v).testBit b =
      ((if r.rw.testBit b then v.testBit b else old.testBit b) && !(v.testBit b && r.w1c.testBit b)) := by
  unfold writeWord
  simp only [Nat.testBit_and, Nat.testBit_or, testBit_ones32_sub hr hb, testBit_ones32_sub (and_lt_word hv) hb]
  cases r.rw.testBit b <;> simp

/-- The bits of a register after a write by its access codes alone (00 R9, R10, R12). -/
theorem testBit_plainWrite {s : State} {r : RegRow} {off v b : Nat} (hr : r.rw &&& r.w1c = 0 ∧ r.rw < 2 ^ 32) (hv : v < 2 ^ 32) (hb : b < 32) :
    (rd (plainWrite s r off v) off).testBit b =
      if r.w1c.testBit b ∧ v.testBit b then (rd s off).testBit b && (cycReg s off).2.1.testBit b
      else if r.rw.testBit b then v.testBit b else (rd s off).testBit b := by
  obtain ⟨hapart, hword⟩ := hr
  have hone : (r.rw.testBit b && r.w1c.testBit b) = false := by rw [← Nat.testBit_and, hapart, Nat.zero_testBit]
  unfold plainWrite setNow
  rw [rd_wr, if_pos rfl, Nat.testBit_mod_two_pow, decide_eq_true hb, Bool.true_and, Nat.testBit_or, testBit_writeWord hword hv hb, Nat.testBit_and,
    Nat.testBit_and]
  cases hw : r.w1c.testBit b with
  | false => simp
  | true =>
    have hrw : r.rw.testBit b = false := by simpa [hw] using hone
    cases hvb : v.testBit b <;> cases (rd s off).testBit b <;> simp [hrw]

/-! What a write does to a register of no window. -/

theorem occupied_of_row {off : Nat} {r : RegRow} (h : regRow? off = some r) : occupied off = true := by simp [occupied, h]

theorem regWrite_gated {s : State} {off v : Nat} {core : Bool} (ho : occupied off = true) (hg : gated s off = true) : regWrite s off v core = s := by
  simp [regWrite, ho, hg]

theorem regWrite_row {s : State} {off v : Nat} {core : Bool} {r : RegRow} (hr : regRow? off = some r) (hw : winAt? off = none)
    (hd : winData? off = none) (hg : gated s off = false) : regWrite s off v core = regRowWrite s r off v core := by
  simp [regWrite, occupied_of_row hr, hg, hw, hd, hr]

/-- The registers that a write changes by their access codes alone: those of SYS, NRG, CAP and of the host interface's control block whose
description gives a write no further effect, and all of PWR, OUT and KEY. -/
def ByAccess (off : Nat) : Prop :=
  off ∉ txnRegs ∧
    ((off / 0x10000 = 0 ∧ off ∉ [Reg.TXN_CTRL, Reg.TXN_TARGET_LO, Reg.TXN_TARGET_HI, Reg.SYS_OOS_LANE, Reg.SYS_OOS_UNIT, Reg.SYS_HEALTH]) ∨
     (off / 0x10000 ∈ [14, 15] ∧ off ∉ [Reg.NRG_CTRL, Reg.CAP_CTRL, Reg.CAP_STORE_BASE, Reg.CAP_STORE_SIZE]) ∨
     (off / 0x10000 = 12 ∧ off < Reg.RING_CTRL 0) ∨ off / 0x10000 ∈ [1, 11, 18])

theorem sysWrite_plain {s : State} {r : RegRow} {off v : Nat}
    (h : off ∉ [Reg.TXN_CTRL, Reg.TXN_TARGET_LO, Reg.TXN_TARGET_HI, Reg.SYS_OOS_LANE, Reg.SYS_OOS_UNIT, Reg.SYS_HEALTH]) :
    sysWrite s r off v = plainWrite s r off v := by
  simp only [List.mem_cons, List.not_mem_nil, or_false, not_or] at h
  obtain ⟨h1, h2, h3, h4, h5, h6⟩ := h
  simp only [sysWrite, h1, h2, h3, h4, h5, h6, or_self, if_false]

theorem capWrite_plain {s : State} {r : RegRow} {off v : Nat} (h : off ∉ [Reg.NRG_CTRL, Reg.CAP_CTRL, Reg.CAP_STORE_BASE, Reg.CAP_STORE_SIZE]) :
    capWrite s r off v = plainWrite s r off v := by
  simp only [List.mem_cons, List.not_mem_nil, or_false, not_or] at h
  obtain ⟨h1, h2, h3, h4⟩ := h
  simp only [capWrite, h1, h2, h3, h4, or_self, if_false]

theorem regRowWrite_plain {s : State} {r : RegRow} {off v : Nat} {core : Bool} (h : ByAccess off) :
    regRowWrite s r off v core = plainWrite s r off v := by
  obtain ⟨htxn, hblock⟩ := h
  unfold regRowWrite
  rw [if_neg (by simpa using htxn)]
  obtain ⟨hb, hoff⟩ | ⟨hb, hoff⟩ | ⟨hb, hlt⟩ | hb := hblock
  · simp only [hb, sysWrite_plain hoff]
  · simp only [List.mem_cons, List.not_mem_nil, or_false] at hb
    obtain hb | hb := hb <;> simp only [hb, capWrite_plain hoff]
  · simp only [hb, hlt, if_true]
  · simp only [List.mem_cons, List.not_mem_nil, or_false] at hb
    obtain hb | hb | hb := hb <;> simp only [hb]

theorem regRowWrite_txn {s : State} {r : RegRow} {off v : Nat} {core : Bool} (h : off ∈ txnRegs) :
    regRowWrite s r off v core = txnRegWrite s r off v := by
  unfold regRowWrite
  rw [if_pos (by simpa using h)]

/-! What those writes change. -/

theorem plainWrite_changes (s : State) (r : RegRow) (off v : Nat) :
    ChangesOnly [.regs] s (plainWrite s r off v) ∧ RegsBut [off] s (plainWrite s r off v) :=
  ⟨changesOnly_wr _ _ (by simp), regsBut_wr _ (by simp)⟩

theorem changesOnly_cfgPend (s : State) (t : Tab Word) : ChangesOnly [.cfgPend] s { s with cfgPend := t } := by
  refine ⟨rfl, fun c hc => ?_⟩
  cases c <;> first | rfl | exact absurd (by decide) hc

/-- A word of a configuration copy after a write of a register's. -/
theorem getC_putC (t : Tab Word) (w' i' j' v w i j : Nat) :
    getC (putC t w' i' j' v) w i j = if cfgKey w i j = cfgKey w' i' j' then v % 2 ^ 32 else getC t w i j := by
  unfold getC putC
  rw [Tab.get_set]
  by_cases h : cfgKey w i j = cfgKey w' i' j'
  · simp [h]
  · simp [h, Ne.symm h]

/-- Noting an event of the cycle changes nothing but the model's own record. -/
theorem changesOnly_noteReg (l : List Comp) (s : State) (off set n : Nat) : ChangesOnly l s (noteReg s off set n) :=
  ⟨rfl, fun c _ => by cases c <;> rfl⟩

theorem stray_eq (s : State) :
    stray s = wr (noteReg s Reg.TXN_STATUS (2 ^ 9) 0) Reg.TXN_STATUS (rd s Reg.TXN_STATUS ||| 0x200) := by
  rw [show (0x200 : Nat) = 2 ^ 9 from rfl, ← putBits_one]
  rfl

/-- STRAY is set, and nothing else changes (02 R70). -/
theorem stray_changes (s : State) :
    ChangesOnly [.regs] s (stray s) ∧ RegsBut [Reg.TXN_STATUS] s (stray s) ∧ rd (stray s) Reg.TXN_STATUS = rd s Reg.TXN_STATUS ||| 0x200 := by
  rw [stray_eq]
  refine ⟨changesOnly_trans (changesOnly_noteReg _ _ _ _ _) (changesOnly_wr _ _ (by simp)), regsBut_wr _ (by simp), ?_⟩
  rw [rd_wr, if_pos rfl, Nat.mod_eq_of_lt (Nat.or_lt_two_pow (rd_lt _ _) (by decide))]

/-! The host's commands. -/

theorem exec_registerWrite (s : State) (off : Nat) (v : Word) (be : BitVec 4) :
    exec (.registerWrite off v be) s = writeOut s off v.toNat (be == 15) := rfl

theorem exec_decodeErrorAccess_read (s : State) (off : Nat) (v : Word) (be : BitVec 4) :
    exec (.decodeErrorAccess off false v be) s = readOut s off (be == 15) := rfl

theorem exec_registerWrite_full {s : State} {off : Nat} {v : Word} (hlt : off < 0x200000) (h4 : off % 4 = 0) :
    exec (.registerWrite off v 15) s = .next (regWrite s off v.toNat false) := by
  rw [exec_registerWrite]
  simp [writeOut, inBar, hlt, h4, hostWrite]

theorem exec_read_gated {s : State} {off : Nat} {v : Word} (hlt : off < 0x200000) (h4 : off % 4 = 0) (ho : occupied off = true)
    (hg : gated s off = true) : exec (.decodeErrorAccess off false v 15) s = .next { s with hostData := 0 } := by
  rw [exec_decodeErrorAccess_read]
  simp [readOut, inBar, hlt, h4, hostRead, ho, hg]

/-- Settles O22: a write of a register of no window comes down to `plainWrite` or `txnRegWrite`, and the bits of `plainWrite` to the row's access
codes. -/
theorem registerWrites : Obligations.RegisterWrites := by
  intro s off v r hlt h4 hr hwin hdata plain
  refine ⟨fun hg hplain => ?_, fun hg htxn => ⟨fun hopen => ?_, fun hshut => ?_⟩, fun hg => ⟨?_, ?_⟩⟩
  · have hplain : ByAccess off := hplain
    obtain ⟨hframe, hregs⟩ := plainWrite_changes s r off v.toNat
    refine ⟨_, ?_, hframe, hregs, fun b hb => testBit_plainWrite (regRow?_apart hr) v.isLt hb⟩
    rw [exec_registerWrite_full hlt h4, regWrite_row hr hwin hdata hg, regRowWrite_plain hplain]
  · refine ⟨{ s with cfgPend := putC s.cfgPend off 0 0 (v.toNat &&& r.rw) }, ?_, changesOnly_cfgPend s _, fun w i j => ?_⟩
    · rw [exec_registerWrite_full hlt h4, regWrite_row hr hwin hdata hg, regRowWrite_txn htxn, txnRegWrite, txnState, if_pos hopen]
    · rw [getC_putC, Nat.mod_eq_of_lt (and_lt_word v.isLt)]
  · obtain ⟨hframe, hregs, hstray⟩ := stray_changes s
    refine ⟨stray s, ?_, hframe, hregs, hstray⟩
    rw [exec_registerWrite_full hlt h4, regWrite_row hr hwin hdata hg, regRowWrite_txn htxn, txnRegWrite, txnState, if_neg hshut]
  · rw [exec_registerWrite_full hlt h4, regWrite_gated (occupied_of_row hr) hg]
  · exact exec_read_gated hlt h4 (occupied_of_row hr) hg

end Sys2Proof.Machine
end
